-- ==== Sys2Proof/Word.lean ====
section
/-!
DEFINITION. The plainest types: bytes, 32-bit registers, and tables of numbered records.
A table lists (number, record) pairs; what a number that is not listed holds is said where the table is read.
-/
namespace Sys2Proof

/-- One byte of a packet, a window or a memory. -/
abbrev Byte := BitVec 8

/-- A 32-bit register of the register file (R513). -/
abbrev Reg32 := BitVec 32

/-- A table of numbered records: numbers strictly rising. -/
abbrev Tab (α : Type) := List (Nat × α)

/-- A sparse memory of bytes: addresses strictly rising, no zero byte listed (Host.Cell). -/
abbrev Mem := List (Nat × Byte)

end Sys2Proof
end

