-- ==== Sys2Proof/Syntax.lean ====
section
/-!
DEFINITION. The commands: one constructor per row of spec/opcode_table.json, with the row's operands.
Every command carries `dt`, the time in ns that has passed since the command before it (log 2).
-/
namespace Sys2Proof

/-- An Apqua packet without its opcode, on the queue that carries it (R43, R44): TAG, LEN, FLAGS, byte 7, WHEN, and
the parameter bytes from byte 16 on. -/
structure Cmd where
  queue : Nat
  tag : Nat := 0
  len : Nat := 16
  flags : Nat := 0
  rsvd : Nat := 0
  whenNs : Nat := 0
  params : List Byte := []
deriving DecidableEq, Repr

/-- One instant of the three paths of an analogue input, at the modulators or at the intermediate rate (R99, R100): samples
of path L, M and H as fractions of the path's own full scale in Q1.31, and whether the path's modulator was at its top or
bottom code. -/
structure Tri where
  l : Int := 0
  m : Int := 0
  h : Int := 0
  lTop : Bool := false
  mTop : Bool := false
  hTop : Bool := false
deriving DecidableEq, Repr

/-- What one channel's modulators delivered for a frame, oldest first: 128, 64 or 32 instants (R132). -/
structure AinIn where
  ch : Nat
  smp : List Tri
deriving DecidableEq, Repr

/-- An input set: what the converters delivered for one frame (R17); a channel that is not listed delivered zeros. -/
structure InputSet where
  ain : List AinIn := []
deriving DecidableEq, Repr

/-- Levels of the strap balls (R564). -/
structure Straps where
  addr : Nat := 0
  privScope : Bool := false
  bootsel : Nat := 0
deriving DecidableEq, Repr

/-- The states of the TAP controller (R587, IEEE 1149.1). -/
inductive TapState where
  | testLogicReset | runTestIdle | selectDr | captureDr | shiftDr | exit1Dr | pauseDr | exit2Dr | updateDr
  | selectIr | captureIr | shiftIr | exit1Ir | pauseIr | exit2Ir | updateIr
deriving DecidableEq, Repr

/-- An instruction load that may scan the boundary register behind it: the bits shifted in at TDI, the first of them first, none for
no scan; the state the TAP controller is left in, how many falling edges TCK has there, and the levels of the strap balls
meanwhile, which a boot at the end of a test hold latches (R587, R592, R594). -/
structure Scan where
  cells : List Bool := []
  rest : TapState := .runTestIdle
  edges : Nat := 0
  straps : Straps := {}
deriving DecidableEq, Repr

/-- A TAP operation without a scan: its time, the instruction code where the row has several (R589), and the strap levels. -/
structure TapOp where
  dt : Nat
  code : Nat := 0xFF
  straps : Straps := {}
deriving DecidableEq, Repr

/-- A TW0 read transaction: its address byte, how many bytes the controller reads, and whether a STOP or a repeated START ends it
(R522, R525). -/
structure TwRead where
  addr : Byte
  count : Nat
  stop : Bool := true
deriving DecidableEq, Repr

/-- What R533 found before a transfer: SDA high, SDA low and freed within nine pulses, SDA low after the ninth. -/
inductive BusClear where
  | idle | freed | stuck
deriving DecidableEq, Repr

/-- The commands of the block. -/
inductive Instr where
  /-- NOP (R85), opcode 0x0001. -/
  | nop (dt : Nat) (c : Cmd)
  /-- CAPS (R86), opcode 0x0002. -/
  | caps (dt : Nat) (c : Cmd)
  /-- ABORT (R73), opcode 0x0003. -/
  | abort (dt : Nat) (c : Cmd)
  /-- RESET_UNIT (R87), opcode 0x0004. -/
  | resetUnit (dt : Nat) (c : Cmd)
  /-- POWER_STATE (R88), opcode 0x0005. -/
  | powerState (dt : Nat) (c : Cmd)
  /-- EVENT_MASK (R91), opcode 0x0006. -/
  | eventMask (dt : Nat) (c : Cmd)
  /-- QUEUE_CONFIG (R92), opcode 0x0007. -/
  | queueConfig (dt : Nat) (c : Cmd)
  /-- TIME_READ (R93), opcode 0x0008. -/
  | timeRead (dt : Nat) (c : Cmd)
  /-- ROUTE_SET (R179), opcode 0x0101. -/
  | routeSet (dt : Nat) (c : Cmd)
  /-- ROUTE_GET (R185), opcode 0x0102. -/
  | routeGet (dt : Nat) (c : Cmd)
  /-- ROUTE_FADE_CFG (R187), opcode 0x0103. -/
  | routeFadeCfg (dt : Nat) (c : Cmd)
  /-- MIX_STAGE (R228), opcode 0x0201. -/
  | mixStage (dt : Nat) (c : Cmd)
  /-- MIX_COMMIT (R233), opcode 0x0202. -/
  | mixCommit (dt : Nat) (c : Cmd)
  /-- BUS_CFG (R236), opcode 0x0203. -/
  | busCfg (dt : Nat) (c : Cmd)
  /-- LIMITER_CFG (R238), opcode 0x0204. -/
  | limiterCfg (dt : Nat) (c : Cmd)
  /-- METER_CFG (R196), opcode 0x0301. -/
  | meterCfg (dt : Nat) (c : Cmd)
  /-- METER_READ (R198), opcode 0x0302. -/
  | meterRead (dt : Nat) (c : Cmd)
  /-- METER_RESET (R201), opcode 0x0303. -/
  | meterReset (dt : Nat) (c : Cmd)
  /-- AIN_CFG (R124), opcode 0x0401. -/
  | ainCfg (dt : Nat) (c : Cmd)
  /-- AIN_PAD (R126), opcode 0x0402. -/
  | ainPad (dt : Nat) (c : Cmd)
  /-- CHAIN_CFG (R157), opcode 0x0404. -/
  | chainCfg (dt : Nat) (c : Cmd)
  /-- CHAIN_SYNC (R160), opcode 0x0405. -/
  | chainSync (dt : Nat) (c : Cmd)
  /-- MERGE_STATUS (R129), opcode 0x0403. -/
  | mergeStatus (dt : Nat) (c : Cmd)
  /-- OUT_CFG (R296), opcode 0x0501. -/
  | outCfg (dt : Nat) (c : Cmd)
  /-- JACK_CFG (R300), opcode 0x0502. -/
  | jackCfg (dt : Nat) (c : Cmd)
  /-- FIRKIN_ALLOC (R258), opcode 0x0601. -/
  | firkinAlloc (dt : Nat) (c : Cmd)
  /-- FIRKIN_FREE (R260), opcode 0x0602. -/
  | firkinFree (dt : Nat) (c : Cmd)
  /-- DELAY_CFG (R261), opcode 0x0603. -/
  | delayCfg (dt : Nat) (c : Cmd)
  /-- FIRKIN_READ (R264), opcode 0x0604. -/
  | firkinRead (dt : Nat) (c : Cmd)
  /-- FIRKIN_WRITE (R264), opcode 0x0605. -/
  | firkinWrite (dt : Nat) (c : Cmd)
  /-- NET_PORT_CFG (R338), opcode 0x0701. -/
  | netPortCfg (dt : Nat) (c : Cmd)
  /-- TXSTREAM_CFG (R341), opcode 0x0702. -/
  | txstreamCfg (dt : Nat) (c : Cmd)
  /-- RXSTREAM_CFG (R344), opcode 0x0703. -/
  | rxstreamCfg (dt : Nat) (c : Cmd)
  /-- HOST_FRAME_SEND (R347), opcode 0x0704. -/
  | hostFrameSend (dt : Nat) (c : Cmd)
  /-- PTP_CFG (R378), opcode 0x0801. -/
  | ptpCfg (dt : Nat) (c : Cmd)
  /-- TT_SELECT (R382), opcode 0x0802. -/
  | ttSelect (dt : Nat) (c : Cmd)
  /-- TIME_POLICY (R385), opcode 0x0803. -/
  | timePolicy (dt : Nat) (c : Cmd)
  /-- PLL_CFG (R416), opcode 0x0901. -/
  | pllCfg (dt : Nat) (c : Cmd)
  /-- RAMP_LOAD (R419), opcode 0x0902. -/
  | rampLoad (dt : Nat) (c : Cmd)
  /-- CKO_CFG (R421), opcode 0x0903. -/
  | ckoCfg (dt : Nat) (c : Cmd)
  /-- TDM_CFG (R438), opcode 0x0A01. -/
  | tdmCfg (dt : Nat) (c : Cmd)
  /-- ASRC_CFG (R440), opcode 0x0A02. -/
  | asrcCfg (dt : Nat) (c : Cmd)
  /-- LISTEN_CFG (R465), opcode 0x0B01. -/
  | listenCfg (dt : Nat) (c : Cmd)
  /-- MODEL_LOAD (R468), opcode 0x0B02. -/
  | modelLoad (dt : Nat) (c : Cmd)
  /-- HISTORY_READ (R471), opcode 0x0B03. -/
  | historyRead (dt : Nat) (c : Cmd)
  /-- GAUGE_SEQ (R494), opcode 0x0C01. -/
  | gaugeSeq (dt : Nat) (c : Cmd)
  /-- GAUGE_WINDOW (R498), opcode 0x0C02. -/
  | gaugeWindow (dt : Nat) (c : Cmd)
  /-- GAUGE_CAL (R500), opcode 0x0C03. -/
  | gaugeCal (dt : Nat) (c : Cmd)
  /-- GAUGE_URGENT (R503), opcode 0x0C04. -/
  | gaugeUrgent (dt : Nat) (c : Cmd)
  /-- GAUGE_PLAUS (R505), opcode 0x0C05. -/
  | gaugePlaus (dt : Nat) (c : Cmd)
  /-- TW1_XFER (R535), opcode 0x0D01. -/
  | tw1Xfer (dt : Nat) (c : Cmd)
  /-- PORT_CFG (R546), opcode 0x0D02. -/
  | portCfg (dt : Nat) (c : Cmd)
  /-- SQ_TAIL_DOORBELL (R519). -/
  | sqTailDoorbell (dt : Nat) (q : Nat) (v : Nat)
  /-- CQ_HEAD_RELEASE (R520). -/
  | cqHeadRelease (dt : Nat) (port : Nat) (q : Nat) (v : Nat)
  /-- Q_STAT_OVF_CLEAR (R516). -/
  | qStatOvfClear (dt : Nat) (port : Nat) (q : Nat) (v : Nat)
  /-- IRQ_STAT_CLEAR (R515). -/
  | irqStatClear (dt : Nat) (port : Nat) (v : Nat)
  /-- PORT_ERR_CLEAR (R517). -/
  | portErrClear (dt : Nat) (port : Nat) (v : Nat)
  /-- SNAP_LATCH (R518). -/
  | snapLatch (dt : Nat) (port : Nat) (v : Nat)
  /-- ENG_PACE_CLEAR (R22). -/
  | engPaceClear (dt : Nat) (v : Nat)
  /-- ENG_STAT_DISC_CLEAR (R22). -/
  | engStatDiscClear (dt : Nat) (v : Nat)
  /-- ENG_LATE_CLEAR (R22). -/
  | engLateClear (dt : Nat) (v : Nat)
  /-- REGISTER_WRITE (R510). -/
  | registerWrite (dt : Nat) (port : Nat) (addr : Nat) (v : Nat)
  /-- HOST_SLOT_RELEASE (R332). -/
  | hostSlotRelease (dt : Nat) (slot : Nat)
  /-- READ (R508). -/
  | read (dt : Nat) (addr : Nat) (n : Nat)
  /-- FAST_READ (R508). -/
  | fastRead (dt : Nat) (addr : Nat) (n : Nat)
  /-- QUAD_READ (R508). -/
  | quadRead (dt : Nat) (addr : Nat) (n : Nat)
  /-- WRITE (R508). -/
  | write (dt : Nat) (addr : Nat) (data : List Byte)
  /-- QUAD_WRITE (R508). -/
  | quadWrite (dt : Nat) (addr : Nat) (data : List Byte)
  /-- READ_STATUS (R508). -/
  | readStatus (dt : Nat) (n : Nat)
  /-- READ_ID (R508). -/
  | readId (dt : Nat) (n : Nat)
  /-- QSPI_UNKNOWN_INSTRUCTION (R508). -/
  | qspiUnknownInstruction (dt : Nat) (code : Nat)
  /-- TW0_WRITE (R523): the bytes from the address byte on. -/
  | tw0Write (dt : Nat) (data : List Byte) (stop : Bool)
  /-- TW0_READ (R523). -/
  | tw0Read (dt : Nat) (r : TwRead)
  /-- TW0_READ_SHADOW_EXPIRE (R527). -/
  | tw0ReadShadowExpire (dt : Nat)
  /-- TW0_WRITE_SHADOW_EXPIRE (R528). -/
  | tw0WriteShadowExpire (dt : Nat)
  /-- TW0_STUCK_RELEASE (R529). -/
  | tw0StuckRelease (dt : Nat)
  /-- TW0_WAKE_MATCH (R531). -/
  | tw0WakeMatch (dt : Nat)
  /-- EXTEST (R589). -/
  | extest (dt : Nat) (sc : Scan)
  /-- SAMPLE_PRELOAD (R589). -/
  | samplePreload (dt : Nat) (sc : Scan)
  /-- IDCODE (R590). -/
  | idcode (op : TapOp)
  /-- CLAMP (R589). -/
  | clamp (dt : Nat)
  /-- HIGHZ (R589). -/
  | highz (dt : Nat)
  /-- EXTEST_PULSE (R594). -/
  | extestPulse (dt : Nat) (sc : Scan)
  /-- EXTEST_TRAIN (R594). -/
  | extestTrain (dt : Nat) (sc : Scan)
  /-- BYPASS (R589), with any of the codes that select the bypass register. -/
  | bypass (op : TapOp)
  /-- TAP_RESET (R587). -/
  | tapReset (op : TapOp)
  /-- TMODE_CHANGE (R588). -/
  | tmodeChange (dt : Nat) (level : Bool)
  /-- RST_N_ASSERT (R562). -/
  | rstNAssert (dt : Nat)
  /-- POWER_ON_RESET (R563). -/
  | powerOnReset (dt : Nat)
  /-- CRYSTAL_STOP (R389). -/
  | crystalStop (dt : Nat)
  /-- PG_IN_RISE (R566). -/
  | pgInRise (dt : Nat)
  /-- BOOT_STEP (R566). -/
  | bootStep (dt : Nat) (image : Option (List Byte)) (bus : BusClear)
  /-- BOOT_WINDOW_POLL (R567). -/
  | bootWindowPoll (dt : Nat)
  /-- CONFIG_PACKET_RUN (R570). -/
  | configPacketRun (dt : Nat)
  /-- CONFIG_TIMEOUT (R570). -/
  | configTimeout (dt : Nat)
  /-- PG_IN_LOST (R563). -/
  | pgInLost (dt : Nat)
  /-- PWR_EN_RETRY (R563). -/
  | pwrEnRetry (dt : Nat)
  /-- VCORE_BROWN_OUT (R553). -/
  | vcoreBrownOut (dt : Nat) (mv : Nat)
  /-- VCORE_LOW (R553). -/
  | vcoreLow (dt : Nat) (mv : Nat)
  /-- WAKE_N (R560). -/
  | wakeN (dt : Nat)
  /-- HELD_WAKE (R560). -/
  | heldWake (dt : Nat)
  /-- RUN_ENTRY_STEP (R558). -/
  | runEntryStep (dt : Nat)
  /-- HIBERNATE_ENTRY_STEP (R559). -/
  | hibernateEntryStep (dt : Nat)
  /-- PRIV_N_ASSERT (R459). -/
  | privNAssert (dt : Nat)
  /-- PRIV_N_RELEASE (R463). -/
  | privNRelease (dt : Nat)
  /-- THERMAL (R573). -/
  | thermal (dt : Nat) (tjC : Int) (tjE : Int)
  /-- THERMAL_RESTART (R574). -/
  | thermalRestart (dt : Nat)
  /-- SPK_OVERCURRENT (R275). -/
  | spkOvercurrent (dt : Nat) (k : Nat)
  /-- SPK_DC_FAULT (R275). -/
  | spkDcFault (dt : Nat) (k : Nat)
  /-- HP_CURRENT_LIMIT (R275). -/
  | hpCurrentLimit (dt : Nat) (k : Nat)
  /-- PVDD_UNDER (R275). -/
  | pvddUnder (dt : Nat) (mv : Nat)
  /-- PVDD_OVER (R275). -/
  | pvddOver (dt : Nat) (mv : Nat)
  /-- PVDD_RECOVERY (R275). -/
  | pvddRecovery (dt : Nat) (mv : Nat)
  /-- OUT_SEQ_STEP (R279). -/
  | outSeqStep (dt : Nat) (g : Nat)
  /-- CP_RAIL_LOWER (R272). -/
  | cpRailLower (dt : Nat) (k : Nat)
  /-- JACK_EDGE (R287). -/
  | jackEdge (dt : Nat) (j : Nat) (level : Bool)
  /-- JACK_DEBOUNCE_EXPIRE (R287). -/
  | jackDebounceExpire (dt : Nat) (j : Nat)
  /-- HEADSET_MEASURE_DONE (R291). -/
  | headsetMeasureDone (dt : Nat) (j : Nat) (i1 : Nat) (i2 : Nat)
  /-- BUTTON_POLL (R292). -/
  | buttonPoll (dt : Nat) (j : Nat) (i : Nat)
  /-- FRAME_BOUNDARY (R17). -/
  | frameBoundary (dt : Nat) (inp : InputSet) (done : Bool)
  /-- ENGINE_WORK_START (R19). -/
  | engineWorkStart (dt : Nat)
  /-- LATE_MUTE_START (R29). -/
  | lateMuteStart (dt : Nat)
  /-- LATE_MUTE_END (R31). -/
  | lateMuteEnd (dt : Nat)
  /-- ENGINE_MUTE_CLEAR (R31). -/
  | engineMuteClear (dt : Nat)
  /-- PACE_WINDOW (R21). -/
  | paceWindow (dt : Nat) (pace : Nat) (load : Nat)
  /-- COMMAND_START (R63). -/
  | commandStart (dt : Nat)
  /-- SCHED_APPLY (R67). -/
  | schedApply (dt : Nat)
  /-- CQ_RECORD_WRITE (R520). -/
  | cqRecordWrite (dt : Nat) (q : Nat)
  /-- EVENT_LOST (R57). -/
  | eventLost (dt : Nat) (port : Nat)
  /-- ROUTE_FADE_END (R168). -/
  | routeFadeEnd (dt : Nat) (dst : Nat)
  /-- ROUTE_HELD_APPLY (R171). -/
  | routeHeldApply (dt : Nat) (dst : Nat)
  /-- ZERO_FALLBACK (R169). -/
  | zeroFallback (dt : Nat) (dst : Nat)
  /-- MIX_FADE_END (R234). -/
  | mixFadeEnd (dt : Nat)
  /-- DELAY_XFADE_END (R252). -/
  | delayXfadeEnd (dt : Nat) (k : Nat)
  /-- DELAY_HELD_APPLY (R253). -/
  | delayHeldApply (dt : Nat) (k : Nat)
  /-- UNBIND_FADE_END (R254). -/
  | unbindFadeEnd (dt : Nat) (k : Nat)
  /-- PAD_STEPPED_START (R119). -/
  | padSteppedStart (dt : Nat) (ch : Nat)
  /-- PAD_CHANGE_DONE (R127). -/
  | padChangeDone (dt : Nat) (ch : Nat)
  /-- MERGE_CAL_BLOCK (R106), with the temperature of the converter die at the block in 1/128 °C (R108). -/
  | mergeCalBlock (dt : Nat) (ch : Nat) (pair : Nat) (tjC : Int)
  /-- FRONT_END_POWERED (R123). -/
  | frontEndPowered (dt : Nat) (ch : Nat)
  /-- SETTLE_END (R141). -/
  | settleEnd (dt : Nat) (ch : Nat)
  /-- LINK_CHANGE (R337). -/
  | linkChange (dt : Nat) (p : Nat) (speed : Nat) (an : Bool) (rf : Bool)
  /-- ETH_FRAME_RX (R309). -/
  | ethFrameRx (dt : Nat) (p : Nat) (frame : List Byte) (ok : Bool)
  /-- IGMP_REPORT_SEND (R325). -/
  | igmpReportSend (dt : Nat) (p : Nat)
  /-- TX_MEDIA_PACKET (R316). -/
  | txMediaPacket (dt : Nat) (p : Nat) (st : Nat)
  /-- HOST_FRAME_DEPART (R348). -/
  | hostFrameDepart (dt : Nat) (p : Nat)
  /-- RX_NO_SIGNAL (R323). -/
  | rxNoSignal (dt : Nat) (st : Nat)
  /-- RX_PATH_TIMEOUT (R321). -/
  | rxPathTimeout (dt : Nat) (st : Nat) (p : Nat)
  /-- RX_STREAM (R337). -/
  | rxStream (dt : Nat) (st : Nat)
  /-- FJARORD_EVENT_SEND (R544). -/
  | fjarordEventSend (dt : Nat)
  /-- PTP_DELAY_REQ_SEND (R356). -/
  | ptpDelayReqSend (dt : Nat) (t : Nat)
  /-- LEADER_ANNOUNCE_SYNC (R359). -/
  | leaderAnnounceSync (dt : Nat) (t : Nat) (sync : Bool)
  /-- ANNOUNCE_TIMEOUT (R358). -/
  | announceTimeout (dt : Nat) (t : Nat)
  /-- FOLLOWER_FORGET (R360). -/
  | followerForget (dt : Nat) (t : Nat)
  /-- TRACKER_EVAL (R366). -/
  | trackerEval (dt : Nat)
  /-- STEP_APPLY (R369). -/
  | stepApply (dt : Nat)
  /-- SLEW_END (R368). -/
  | slewEnd (dt : Nat)
  /-- MPLL_REF_LOSS (R396). -/
  | mpllRefLoss (dt : Nat) (m : Nat)
  /-- MPLL_REF_RETURN (R397). -/
  | mpllRefReturn (dt : Nat) (m : Nat) (phi : Int) (ppb : Int)
  /-- MPLL_PHASE_LOCK (R395). -/
  | mpllPhaseLock (dt : Nat) (m : Nat)
  /-- PHASE_SLEW_END (R398). -/
  | phaseSlewEnd (dt : Nat) (m : Nat)
  /-- MPLL_LOSS_OF_LOCK (R405). -/
  | mpllLossOfLock (dt : Nat) (m : Nat)
  /-- MPLL_RELOCK_STEP (R406). -/
  | mpllRelockStep (dt : Nat) (m : Nat)
  /-- MPLL_LOCK (R406). -/
  | mpllLock (dt : Nat) (m : Nat)
  /-- RAMP_SEGMENT_END (R403). -/
  | rampSegmentEnd (dt : Nat) (m : Nat)
  /-- PULL_RAMP_END (R402). -/
  | pullRampEnd (dt : Nat) (m : Nat)
  /-- RATE_CHANGE_APPLY (R410). -/
  | rateChangeApply (dt : Nat)
  /-- CKO_APPLY (R414). -/
  | ckoApply (dt : Nat) (k : Nat)
  /-- TP_FRAME (R431). -/
  | tpFrame (dt : Nat) (p : Nat) (slots : List Nat) (valid : Bool) (mhz : Nat)
  /-- TP_CLOCK_LOSS (R431). -/
  | tpClockLoss (dt : Nat) (p : Nat)
  /-- ASRC_LOCK (R435). -/
  | asrcLock (dt : Nat) (ch : Nat) (ratio : Nat)
  /-- ASRC_UNLOCK (R435). -/
  | asrcUnlock (dt : Nat) (ch : Nat) (ratio : Nat)
  /-- LISTEN_SAMPLE (R445). -/
  | listenSample (dt : Nat) (m0 : List Int) (m1 : List Int)
  /-- LISTEN_CLOCK_SWITCH (R443). -/
  | listenClockSwitch (dt : Nat)
  /-- VAD_BLOCK (R449). -/
  | vadBlock (dt : Nat)
  /-- PHRASE_HOP (R452). -/
  | phraseHop (dt : Nat)
  /-- CANDIDATE_TIMEOUT (R451). -/
  | candidateTimeout (dt : Nat)
  /-- HIBERNATE_DEFERRAL_EXPIRE (R454). -/
  | hibernateDeferralExpire (dt : Nat)
  /-- HISTORY_WAIT_DONE (R472). -/
  | historyWaitDone (dt : Nat)
  /-- MODEL_COMMIT_DONE (R469). -/
  | modelCommitDone (dt : Nat)
  /-- GAUGE_PASS_DUE (R480). -/
  | gaugePassDue (dt : Nat) (c : Nat)
  /-- URGENT_CONVERSION_START (R482). -/
  | urgentConversionStart (dt : Nat) (c : Nat)
  /-- GAUGE_CONVERSION_END (R484). -/
  | gaugeConversionEnd (dt : Nat) (c : Nat) (raw : Int) (ovr : Bool)
  /-- GAUGE_CAL_STEP_DONE (R492). -/
  | gaugeCalStepDone (dt : Nat) (c : Nat) (raws : List Int) (ovrAt : Option Nat)
  /-- REGION_CLEAR_DONE (R259). -/
  | regionClearDone (dt : Nat)
  /-- BULK_TRANSFER_DONE (R257). -/
  | bulkTransferDone (dt : Nat)
  /-- TW1_ATTEMPT_START (R533). -/
  | tw1AttemptStart (dt : Nat) (pulses : Nat) (stuck : Bool) (arb : Option (Nat × Nat))
  /-- TW1_STRETCH_TIMEOUT (R536). -/
  | tw1StretchTimeout (dt : Nat) (moved : Nat)
  /-- TW1_XFER_DONE (R535). -/
  | tw1XferDone (dt : Nat) (acked : Nat) (addrOk : Bool) (data : List Byte)
  /-- RST_N_RELEASE (R562). -/
  | rstNRelease (dt : Nat) (straps : Straps)
  /-- VAON_VALID (R563). -/
  | vaonValid (dt : Nat) (straps : Straps)
  /-- CRYSTAL_RESTART (R563). -/
  | crystalRestart (dt : Nat) (straps : Straps)
  /-- VCORE_RECOVERY (R563). -/
  | vcoreRecovery (dt : Nat) (mv : Nat)
  /-- PWR_EN_RAISE (R563). -/
  | pwrEnRaise (dt : Nat)
  /-- RESET_UNIT_DONE (R87). -/
  | resetUnitDone (dt : Nat)
  /-- HEADSET_MEASUREMENT_START (R291). -/
  | headsetMeasurementStart (dt : Nat) (j : Nat)
deriving DecidableEq, Repr

end Sys2Proof
end

