-- ==== Sys2Proof/Config.lean ====
section
/-!
DEFINITION. The values the spec leaves open: opaque constants without a body. Nothing in Lean can tell what they
answer, so a claim holds whatever the hardware's answer is. A first argument named `n` is the counter `freeCtr`.
-/
namespace Sys2Proof.Config

/-- A fresh open bit (R68: frame n or n + 1). -/
opaque freeBit : Nat → Bool
/-- A fresh open number; the user reduces it to the range the spec gives (R315, R325, R312). -/
opaque freeNat : Nat → Nat
/-- R27: whether a destination is complete at the boundary that ends a late frame: fresh count, destination. -/
opaque lateComplete : Nat → Nat → Bool
/-- R205: mantissa of 24 bits of a gain code other than 0.00 dB and mute; the user holds it within 0.001 dB. -/
opaque gainFactor : Int → Int
/-- R214: log2db of a magnitude in units of 2^-39, in units of 2^-16 centi-dB; the user holds it within 0.01 dB. -/
opaque log2db : Nat → Int
/-- R214: pow2db of a gain in units of 2^-16 centi-dB, as a factor in units of 2^-96; the user holds it within 0.01 dB. -/
opaque pow2db : Int → Int
/-- R192: reading in centi-dB of a Q31 magnitude; the user holds it within the error of the rule. -/
opaque centiDb : Nat → Int
/-- R192: the same for the square root of a mean square in Q62. -/
opaque centiDbSq : Nat → Int
/-- R130: output of the half-band stages of the front stage, whose taps are not given: how many stages, the CIC's outputs in
units of 2^-41, newest first. -/
opaque halfBand : Nat → List Int → Int
/-- R131: padding of the front stage at 176.4 and 192 kHz, in intermediate samples. -/
opaque frontPad : Nat
/-- R100: how many modulator samples contribute to an intermediate sample at a base rate; the user holds it to at least 16. -/
opaque frontSpan : Nat → Nat
/-- R101: a path's sample delayed by an estimate other than 0, in 2^-16 ps: base rate, delay, history newest first. -/
opaque fracDelay : Nat → Int → List Int → Int
/-- R106: the gain, in 2^-16 microdB, of a least-squares fit of the second list to the first whose factor is not above 0. -/
opaque lsqGain : List Int → List Int → Int
/-- R130, R133: output of the final FIR: response, merged history newest first. -/
opaque firOut : Nat → List Int → Int
/-- R112: whether an overloaded merged sample was used in computing an output sample: response, phase delay, frame, the
indices of the overloaded merged samples. -/
opaque ovlUsed : Nat → Nat → Nat → List Nat → Bool
/-- R115: merged samples from the end of an overload to recovery, by its index; the user holds it to 12 output samples. -/
opaque ovlTail : Nat → Nat
/-- R591: what a boundary cell captures where no rule says what its ball holds: time, cell. -/
opaque bsCell : Nat → Nat → Bool
/-- R591: the order of the boundary cells, which only the BSDL files give: which of those still to be placed comes next. -/
opaque bsPlace : Nat → Nat
/-- R591: the value of a control or drive-low cell that enables its ball's driver: cell. -/
opaque bsEnable : Nat → Bool
/-- R588: what a test data register of Holras captures: time, instruction code. -/
opaque testReg : Nat → Nat → List Bool
/-- R30: what a ring that moved on without work holds there: fresh count, source. -/
opaque staleSample : Nat → Nat → Int
/-- R107: the factory seed of a channel's pair: channel, pair, quantity (0 G in microdB, 1 D in ps, 2 O in LSB32). -/
opaque seed : Nat → Nat → Nat → Int
/-- R38: sample of pink (1) and white (2) noise. -/
opaque noise : Nat → Nat → Int
/-- R38: GEN0's sine sample: base rate, frame; the user holds it to the codes next to the exact value. -/
opaque sine : Nat → Nat → Int
/-- R394: how far the edges of WCLK_IN or PPS_IN have drifted in ppb since they were measured: PLL, time; the user holds the
sum within the reference's validity. -/
opaque refDrift : Nat → Nat → Int
/-- R136, R147, R154, R434, R456: interpolated read between samples: numerator and denominator of the place, samples. -/
opaque interp : Nat → Nat → List Int → Int
/-- R133, R442: output of F7 in 24-bit units: modulator samples of 28 Listen samples, newest first. -/
opaque f7Out : List Int → Int
/-- R449: level of a block of zeros in 2^-16 centi-dB; the user holds it below that of any other. -/
opaque silentLevel : Int
/-- R450: the phrase engine after a hop: model id, the engine before it, the samples of the hop, oldest first. -/
opaque phraseState : Nat → Nat → List Int → Nat
/-- R450: phrase score 0 to 65,535 (reduced by the user): model id, the engine after the hop. -/
opaque phraseScore : Nat → Nat → Nat
/-- R452: how many samples before the deciding hop the phrase began (0) and ended (1). -/
opaque phraseSpan : Nat → Nat → Nat
/-- R357: servo frequency in ppb after a measurement: present frequency, offset in ns, bandwidth code. -/
opaque servoPpb : Int → Int → Nat → Int
/-- R378: filtered offset in ns after a measurement. -/
opaque filterNs : Int → Int → Int
/-- R569: whether the Holras signature of a patch section verifies for a ROM version, and the patch's version then. -/
opaque patchVersion : List Byte → Nat → Option Nat
/-- R448, R449: fresh noise estimate of a restarted detector, 2^-16 centi-dB. -/
opaque freshNoise : Nat → Int
/-- R345: MARGIN_US of a stream: fresh count, stream. -/
opaque marginUs : Nat → Nat → Int
/-- R307: which of several valid answers; unused fields of firmware frames such as the IPv4 identification. -/
opaque frameField : Nat → Nat

end Sys2Proof.Config
end

