-- ==== Sys2Proof/Machine/Bits.lean ====
section
/-!
DEFINITION. Bit fields, byte order, rounding, tables and sparse memory: the helpers every unit uses.
-/
namespace Sys2Proof.Machine
open Sys2Proof

/-- Little-endian bytes of a number (R10). -/
def le : Nat → Nat → List Byte
  | 0, _ => []
  | n + 1, x => BitVec.ofNat 8 x :: le n (x / 256)

/-- Number of little-endian bytes. -/
def unle : List Byte → Nat
  | [] => 0
  | b :: bs => b.toNat + 256 * unle bs

/-- Big-endian bytes (network byte order, R10). -/
def be (n x : Nat) : List Byte := (le n x).reverse

/-- Number of big-endian bytes. -/
def unbe (bs : List Byte) : Nat := unle bs.reverse

/-- Byte i of a list, 0 beyond its end. -/
def byteAt (bs : List Byte) (i : Nat) : Nat := (bs.getD i 0#8).toNat

/-- Little-endian field of n bytes at offset i. -/
def fieldLe (bs : List Byte) (i n : Nat) : Nat := unle ((List.range n).map fun k => bs.getD (i + k) 0#8)

/-- Big-endian field of n bytes at offset i. -/
def fieldBe (bs : List Byte) (i n : Nat) : Nat := unbe ((List.range n).map fun k => bs.getD (i + k) 0#8)

/-- n bytes from offset i, zeros beyond the end. -/
def slice (bs : List Byte) (i n : Nat) : List Byte := (List.range n).map fun k => bs.getD (i + k) 0#8

/-- The bits [lo + w - 1 : lo] of x. -/
def bits (x lo w : Nat) : Nat := x / 2 ^ lo % 2 ^ w

/-- Bit i of x. -/
def bit (x i : Nat) : Bool := x.testBit i

/-- 1 for true, 0 for false. -/
def b2n (b : Bool) : Nat := if b then 1 else 0

/-- A number made of flags, bit 0 first. -/
def flags : List Bool → Nat
  | [] => 0
  | b :: bs => b2n b + 2 * flags bs

/-- Two's-complement reading of the low w bits. -/
def sgn (w x : Nat) : Int :=
  let y := x % 2 ^ w
  if y < 2 ^ (w - 1) then (y : Int) else (y : Int) - (2 ^ w : Nat)

/-- Two's-complement code of an integer in w bits. -/
def uns (w : Nat) (x : Int) : Nat := (x % ((2 ^ w : Nat) : Int)).toNat

/-- Saturation of an integer to lo..hi. -/
def clampI (lo hi x : Int) : Int := if x < lo then lo else if hi < x then hi else x

/-- Largest and smallest Q1.31 sample (R40). -/
def q31Max : Int := 2147483647
def q31Min : Int := -2147483648

/-- Saturation to Q1.31. -/
def satQ31 (x : Int) : Int := clampI q31Min q31Max x

/-- num / den rounded to nearest, a half away from zero (R597). -/
def roundAway (num : Int) (den : Nat) : Int :=
  let m := (2 * num.natAbs + den) / (2 * den)
  if num < 0 then -(m : Int) else (m : Int)

/-- num / den rounded to nearest, ties to even (R41, R207, R491). -/
def roundEven (num : Int) (den : Nat) : Int :=
  let q := num / (den : Int)
  let r := (num % (den : Int)).toNat
  if 2 * r < den then q else if den < 2 * r then q + 1 else if q % 2 = 0 then q else q + 1

/-- x / 2^s rounded to nearest with ties to even: rne of R249. -/
def rne (x : Int) (s : Nat) : Int := roundEven x (2 ^ s)

/-- Nat division rounded up. -/
def ceilDiv (a b : Nat) : Nat := (a + b - 1) / b

/-- Frames of a time in ms at a base rate: round(ms × fs / 1,000) of R166, half up (R597). -/
def msFrames (ms fs : Nat) : Nat := (2 * ms * fs + 1000) / 2000

/-- A counter of w bits that stays at its largest value (R79): (count, SAT). -/
def satInc (w : Nat) (c : Nat × Bool) : Nat × Bool :=
  if c.1 + 1 < 2 ^ w then (c.1 + 1, c.2) else (2 ^ w - 1, true)

/-- Register form of a 31-bit counter with SAT at bit 31 (R79). -/
def satWord (c : Nat × Bool) : Nat := c.1 % 2 ^ 31 + (if c.2 then 2 ^ 31 else 0)

/-- Largest number whose square is at most x, bit by bit from 2^n. -/
def isqrt (x : Nat) : Nat → Nat → Nat
  | 0, r => if (r + 1) * (r + 1) ≤ x then r + 1 else r
  | n + 1, r => let c := r + 2 ^ (n + 1); isqrt x n (if c * c ≤ x then c else r)

/-- Terms of the cosine series in units of 2^-62: x2 is the squared angle, t the present term. -/
def cosSeries : Nat → Nat → Nat → Nat → Int
  | 0, _, _, _ => 0
  | fuel + 1, k, x2, t =>
    let t' := t * x2 / 2 ^ 62 / ((2 * k + 1) * (2 * k + 2))
    (t : Int) - cosSeries fuel (k + 1) x2 t'

/-- cos(π num / den) for 2 num ≤ den, in units of 2^-62. -/
def cosHalf (num den : Nat) : Int :=
  let x := 14488038916154245684 * num / den
  cosSeries 16 0 (x * x / 2 ^ 62) (2 ^ 62)

/-- Raised-cosine weight 0.5 (1 - cos(π num / den)) in units of 2^-62 (R103, R168, R252). -/
def rcos (num den : Nat) : Nat :=
  if den ≤ num then 2 ^ 62
  else if num = 0 then 0
  else if 2 * num ≤ den then (((2 ^ 62 : Int) - cosHalf num den) / 2).toNat
  else (((2 ^ 62 : Int) + cosHalf (den - num) den) / 2).toNat

/-- (1 - w) old + w new in Q1.31, w in units of 2^-62, rounded to nearest (R168). -/
def blend (w : Nat) (old new : Int) : Int := roundAway (old * ((2 ^ 62 : Int) - w) + new * w) (2 ^ 62)

/-- A sample times a gain in units of 2^-62, rounded to nearest. -/
def scale62 (g : Nat) (x : Int) : Int := roundAway (x * g) (2 ^ 62)

/-- Record k of a table whose unlisted records are d. -/
def tget {α : Type} (d : α) : Tab α → Nat → α
  | [], _ => d
  | (a, v) :: t, k => if a = k then v else tget d t k

/-- Whether record k is listed. -/
def tget? {α : Type} : Tab α → Nat → Option α
  | [], _ => none
  | (a, v) :: t, k => if a = k then some v else tget? t k

/-- Table with record k made v: numbers stay strictly rising. -/
def tset {α : Type} (k : Nat) (v : α) : Tab α → Tab α
  | [] => [(k, v)]
  | (a, w) :: t => if k < a then (k, v) :: (a, w) :: t else if a = k then (k, v) :: t else (a, w) :: tset k v t

/-- Table with f applied to every listed record. -/
def tmap {α : Type} (f : α → α) : Tab α → Tab α
  | [] => []
  | (a, v) :: t => (a, f v) :: tmap f t

/-- Table without record k. -/
def tdel {α : Type} (k : Nat) : Tab α → Tab α
  | [] => []
  | (a, w) :: t => if a = k then t else (a, w) :: tdel k t

/-- One byte of a memory; an unlisted address reads 0 (R245, R566 step 4). -/
def mread (m : Mem) (a : Nat) : Byte := tget 0#8 m a

/-- Store of one byte; the canonical form is kept: storing 0 removes the entry. -/
def mwrite (m : Mem) (a : Nat) (b : Byte) : Mem := if b = 0#8 then tdel a m else tset a b m

/-- Store of consecutive bytes. -/
def mwrites (m : Mem) (a : Nat) : List Byte → Mem
  | [] => m
  | b :: bs => mwrites (mwrite m a b) (a + 1) bs

/-- Read of n consecutive bytes. -/
def mreads (m : Mem) (a n : Nat) : List Byte := (List.range n).map fun k => mread m (a + k)

/-- Bytes stored at lo..hi-1 removed: the span reads 0. -/
def mclear (m : Mem) (lo hi : Nat) : Mem := m.filter fun c => decide (c.1 < lo) || decide (hi ≤ c.1)

/-- Strictly rising numbers. -/
def risingFrom {α : Type} : Nat → Tab α → Bool
  | _, [] => true
  | lo, (a, _) :: t => decide (lo ≤ a) && risingFrom (a + 1) t

/-- The canonical form of a memory: addresses strictly rising, no zero byte listed. -/
def memWf (m : Mem) : Bool := risingFrom 0 m && m.all fun c => c.2 != 0#8

/-- Insertion into a list sorted by a key, after equal keys. -/
def insertBy {α : Type} (key : α → Nat) (x : α) : List α → List α
  | [] => [x]
  | y :: ys => if key x < key y then x :: y :: ys else y :: insertBy key x ys

/-- Stable sort by a key (structural). -/
def sortBy {α : Type} (key : α → Nat) : List α → List α
  | [] => []
  | x :: xs => insertByFront key x (sortBy key xs)
where
  /-- Insertion before equal keys, so that a sort from the right is stable. -/
  insertByFront (key : α → Nat) (x : α) : List α → List α
    | [] => [x]
    | y :: ys => if key y < key x then y :: insertByFront key x ys else x :: y :: ys

/-- The first number from lo below lo + n that satisfies p. -/
def firstFrom (p : Nat → Bool) : Nat → Nat → Option Nat
  | _, 0 => none
  | lo, n + 1 => if p lo then some lo else firstFrom p (lo + 1) n

/-- Padding of a byte list with zeros to a multiple of 4 (R50). -/
def pad4 (bs : List Byte) : List Byte := bs ++ List.replicate ((4 - bs.length % 4) % 4) 0#8

/-- Bits set of a mask below n, ascending. -/
def maskBits (m n : Nat) : List Nat := (List.range n).filter fun i => m.testBit i

/-- Mask of a list of bit numbers. -/
def maskOf (l : List Nat) : Nat := l.foldl (fun a i => a ||| 2 ^ i) 0

end Sys2Proof.Machine
end

