-- ==== Sys2Proof/Machine/Level.lean ====
section
/-!
DEFINITION. Levels and gains in fixed point: powers and logarithms of 2, gain codes, readings in centi-dB, time constants,
the fixed sine and the interpolating filter of the true-peak meter (R38, R191 to R193, R204, R205, R214, R231). Where a
rule gives only a largest error, the value is a free one held to the values within that error (log 92).
-/
namespace Sys2Proof.Machine
open Sys2Proof

/-- A free value held to the span that a rule leaves open. -/
def freeIn (lo hi x : Int) : Int := clampI lo hi x

/-- An interpolated read between samples: the filter is linear, so that it reads zero where all of them are (R136, R147). -/
def interpRead (num den : Nat) (l : List Int) : Int := if l.all (fun x => decide (x = 0)) then 0 else Config.interp num den l

/-- The same held to 32-bit Q1.31 (R40). -/
def interpQ (num den : Nat) (l : List Int) : Int := satQ31 (interpRead num den l)

/-! ### Powers and logarithms -/

/-- t + t y / k + t y² / (k (k + 1)) + …, y in units of 2^-62. -/
def expSeries : Nat → Nat → Nat → Nat → Nat
  | 0, _, _, _ => 0
  | fuel + 1, k, y, t => t + expSeries fuel (k + 1) y (t * y / 2 ^ 62 / k)

/-- Unity of a gain: gains count in units of 2^-96. -/
def unity : Int := 2 ^ 96

/-- 2 to the power x / 2^62, in units of 2^-96. -/
def pow2Q (x : Int) : Nat :=
  let q := x / 2 ^ 62
  let frac := expSeries 28 1 ((x % 2 ^ 62).toNat * 3196577161300663915 / 2 ^ 62) (2 ^ 62)
  if 0 ≤ q + 34 then frac * 2 ^ (q + 34).toNat else frac / 2 ^ (-(q + 34)).toNat

/-- The next n binary digits of the logarithm of x, a number from 1 to 2 in units of 2^-62. -/
def log2Bits : Nat → Nat → Nat
  | 0, _ => 0
  | n + 1, x => let y := x * x / 2 ^ 62; if 2 ^ 63 ≤ y then 2 ^ n + log2Bits n (y / 2) else log2Bits n y

/-- log2 of m, in units of 2^-32 (m above 0). -/
def log2Q (m : Nat) : Nat := m.log2 * 2 ^ 32 + log2Bits 32 (m * 2 ^ 62 / 2 ^ m.log2)

/-- log2(10) / 2,000 in units of 2^-62: the power of 2 of one centi-dB. -/
def cdbLog : Int := 7659844674706589

/-- log2(e) in units of 2^-62. -/
def log2e : Int := 6653256548922161246

/-- 20 log10(m / 2^s) in units of 2^-16 centi-dB. -/
def cdbQ (m s : Nat) : Int := ((log2Q m : Int) - s * 2 ^ 32) * 2585827972984 / 2 ^ 48

/-- 20 log10(m / 2^s) in units of 2^-16 µdB (m above 0). -/
def microDbQ (m s : Nat) : Int := ((log2Q m : Int) - s * 2 ^ 32) * 101008905194674 / 2 ^ 40

/-- A gain of x / 2^16 centi-dB, in units of 2^-96. -/
def gainQ (x : Int) : Nat := pow2Q (x * cdbLog / 65536)

/-- 1 - exp(-T / tau) in units of 2^-32, for T one frame at a base rate and tau in units of 0.01 ms (R191, R214). -/
def expCoef (rate tau : Nat) : Nat := (2 ^ 96 - pow2Q (-(100000 * log2e) / (rate * tau : Nat))) / 2 ^ 64

/-- A magnitude after one frame of a fall by `decay` dB/s (R191). -/
def holdFall (rate decay h : Nat) : Nat := h * pow2Q (-(100 * decay * cdbLog) / rate) / 2 ^ 96

/-! ### Gain codes (R204, R205, R231) -/

/-- Code of mute in a signed 16-bit centi-dB field (R204). -/
abbrev muteCode : Int := -32768

/-- A gain code of R204. -/
def gainOk (g : Int) : Bool := decide (g = muteCode) || (decide (-14400 ≤ g) && decide (g ≤ 2400))

/-- The mantissas of 24 bits whose factor is within 0.001 dB of 10^(g / 2,000), as the place of their last bit (in units of
2^-96) and the lowest and the highest (R205). -/
def gainSpan (g : Int) : Nat × Nat × Nat :=
  let x := gainQ (g * 65536)
  let u := 2 ^ (x.log2 - 23)
  (u, ceilDiv (x - x * 1151226 / 10000000000) u, (x + x * 1151358 / 10000000000) / u)

/-- Linear factor of a gain code in units of 2^-96: exactly 0 for mute, exactly 1 for 0.00 dB, else a mantissa of 24 bits
within 0.001 dB, which the table of the part decides (R204, R205). -/
def factor (g : Int) : Int :=
  if g = muteCode then 0
  else if g = 0 then unity
  else
    let (u, lo, hi) := gainSpan g
    freeIn lo (min hi (2 ^ 24)) (Config.gainFactor g) * u

/-- An amplitude above 0 as the nearest code, no lower than -327.67 dB (R231). -/
def gainCode (a : Nat) : Int := max (-32767) (roundAway (cdbQ a 96) 65536)

/-! ### Readings of a meter (R192, R193) -/

/-- Centi-dB within the error of R192 of the quantity m / 2^s: 0.02 dB down to -140 dBFS, 0.5 dB below. -/
def readCdb (m s : Nat) (free : Int) : Int :=
  let e := cdbQ m s
  let tol : Int := if e < -14000 * 65536 then 50 * 65536 else 2 * 65536
  freeIn (-((tol - e) / 65536)) ((e + tol) / 65536) free

/-- The four phases of the interpolating filter of ITU-R BS.1770-4 Annex 2, in units of 2^-13 (log 121). -/
def tpPhase (k : Nat) : List Int :=
  let p0 : List Int := [14, 90, -161, 272, -487, 1125, 7964, -838, 390, -218, 122, -68]
  let p1 : List Int := [-239, 240, -424, 730, -1364, 3810, 6388, -1641, 832, -477, 271, -155]
  if k = 0 then p0 else if k = 1 then p1 else if k = 2 then p1.reverse else p0.reverse

/-- Magnitude in Q31 of one phase's output over the samples, newest first. -/
def tpOut (k : Nat) (hist : List Int) : Nat :=
  (roundAway (((tpPhase k).zip hist).foldl (fun a e => a + e.1 * e.2) 0) 8192).natAbs

/-- The true-peak value of a frame: four phases up to 48 kHz, phases 0 and 2 up to 96 kHz, the sample above (R193). -/
def truePeak (rate : Nat) (hist : List Int) : Nat :=
  if 96000 < rate then (hist.headD 0).natAbs
  else (if rate ≤ 48000 then [0, 1, 2, 3] else [0, 2]).foldl (fun a k => max a (tpOut k hist)) 0

/-! ### The sine of GEN0 (R38) -/

/-- sin(2π p / fs) in units of 2^-62, p below fs: by the cosine of the angle from the nearest crest. -/
def sinQ (p fs : Nat) : Int :=
  if p = 0 ∨ 2 * p = fs then 0
  else if 4 * p ≤ fs then cosHalf (fs - 4 * p) (2 * fs)
  else if 2 * p < fs then cosHalf (4 * p - fs) (2 * fs)
  else if 4 * p ≤ 3 * fs then -(cosHalf (3 * fs - 4 * p) (2 * fs))
  else -(cosHalf (4 * p - 3 * fs) (2 * fs))

/-- GEN0 in frame n: 997 Hz at a peak of one tenth of full scale, its phase zero at every multiple of the base rate; a
sample is one of the two codes next to the exact value, which it is where that is a code. -/
def gen0 (n rate : Nat) : Int :=
  let num := sinQ (997 * n % rate) rate * 2 ^ 31
  let lo := num / (10 * 2 ^ 62)
  freeIn lo (if num % (10 * 2 ^ 62) = 0 then lo else lo + 1) (Config.sine rate n)

end Sys2Proof.Machine
end

