-- ==== Sys2Proof/Machine/State.lean ====
section
/-!
DEFINITION. The state of the block as plain data: everything the spec gives the LF9512, the queue of waiting
commands, and the model's own two counters. Every record's default values are its reset values, so `{}` is a record
after reset, and a table that lists nothing holds the reset record under every number.
-/
namespace Sys2Proof.Machine
open Sys2Proof

/-- No fault is raised: the block has no trap; what goes wrong is reported in records, registers and events. -/
inductive Fault where
deriving DecidableEq, Repr

/-- Why a command has no next state. -/
inductive Refusal where
  /-- A row without a meaning yet, by its mnemonic; raised by exec's refused arms only. Safe: the machine stops. -/
  | notModelled (mnemonic : String)
  /-- An operand outside the range its row gives it, which is no command of the hardware; raised by `run`.
  Safe: the machine stops where the hardware has no such happening. -/
  | illFormed
  /-- An opcode of the test group 0x0Exx started while TMODE is high: the spec gives these opcodes no effect
  (R83, R588); raised by COMMAND_START and CONFIG_PACKET_RUN. Safe: the machine stops where the hardware goes on. -/
  | testGroup
deriving DecidableEq, Repr

/-- A counter that stays at its largest value, with its SAT bit (R79). -/
abbrev Ctr := Nat × Bool

/-- A linear move from m to t in n performed frames, k of them made; n = 0 is a step in the next performed frame
(R222, R217, R236, R268, R117). -/
structure Fade where
  m : Int
  t : Int
  k : Nat := 0
  n : Nat := 0
deriving DecidableEq, Repr

/-! ### The part and its surroundings -/

/-- The three variants (R1, R86). -/
inductive Variant where
  | a | n | small
deriving DecidableEq, Repr

/-- What is fixed at manufacture (R1, R7, R86); no command writes it (log 4). -/
structure Part where
  variant : Variant := .a
  gradeI : Bool := false
  uid : Nat := 0
  romVer : Nat := 0x01000000
deriving DecidableEq, Repr

/-- Levels of the input balls (log 5). -/
structure Pins where
  privN : Bool := true
  wakeN : Bool := true
  rstN : Bool := true
  pgIn : Bool := false
  tmode : Bool := false
  jackLow : List Bool := [false, false, false, false]
deriving DecidableEq, Repr

/-- What the part's own sensors see: die temperatures in 1/128 °C, VCORE and PVDD in mV, the CKO bank (log 5). -/
structure Env where
  tjC : Int := 3200
  tjE : Int := 3200
  vcoreMv : Nat := 800
  pvddMv : Nat := 14000
  ckBank33 : Bool := true
deriving DecidableEq, Repr

/-! ### Packets, queues, records -/

/-- Where a Fjarord command came from, for its reply (R541). -/
structure FjOrigin where
  mac : Nat
  ip : Nat
  udp : Nat
  node : Nat
  key : Nat
  eth : Nat
deriving DecidableEq, Repr

/-- A packet that a queue holds (R43), with the BLEN of its datagram when that differs from LEN (R539). -/
structure Packet where
  opc : Nat
  queue : Nat
  tag : Nat
  len : Nat
  flags : Nat := 0
  rsvd : Nat := 0
  whenNs : Nat := 0
  params : List Byte := []
  blen : Option Nat := none
  origin : Option FjOrigin := none
  arrival : Nat := 0
  config : Bool := false
deriving DecidableEq, Repr

/-- How far a started command is (R62, R67, R74). -/
inductive Phase where
  /-- scheduled, waits for its WHEN (R67) -/
  | waitWhen
  /-- unscheduled and tied to a frame, waits for that frame's boundary; `some b` when a discarded frame moved it (R20) -/
  | waitFrame (due : Option Nat)
  /-- runs: its unit completes it -/
  | running
  /-- has completed in the present step: the record to write, none under QUIET (R58, R66) -/
  | ended (status doneNs : Nat) (data : List Byte)
deriving DecidableEq, Repr

/-- A command in flight (R62); `win` is what the window held for a bulk FIRKIN_WRITE when it started (R265), `after` names the
targets of an ABORT that end by themselves and whose records come before its own (R74). -/
structure Flight where
  id : Nat
  pkt : Packet
  port : Nat
  startNs : Nat
  startClk : Nat
  phase : Phase := .running
  notBefore : Nat := 0
  info : Option Nat := none
  win : List Byte := []
  after : List Nat := []
deriving DecidableEq, Repr

/-- A completion or event record with its result data (R50). -/
structure Rec where
  tag : Nat
  status : Nat
  queue : Nat
  doneNs : Nat
  data : List Byte := []
  origin : Option FjOrigin := none
deriving DecidableEq, Repr

/-- The classes of R60, coded as in R92. -/
inductive QClass where
  | urgent | normal | bulk | event
deriving DecidableEq, Repr

/-- One queue: binding (0 none, 1 QSPI, 2 Fjarord, 3 TW0), class, packets not started, ring counts; `recEnds` the counts at
which unread records end, `lostEnds` those of EVENT_LOST among them (R57 to R60, R516, R519, R520). -/
structure Queue where
  port : Nat := 0
  cls : QClass := .normal
  unstarted : List Packet := []
  ovf : Bool := false
  sqHead : Nat := 0
  sqTail : Nat := 0
  cqHead : Nat := 0
  cqTail : Nat := 0
  recEnds : List Nat := []
  lostEnds : List Nat := []
  waitRecs : List Rec := []
deriving DecidableEq, Repr

/-- Register copies of one port, QSPI or TW0 (R513, R515, R517, R518). -/
structure PortRegs where
  irqEn : Nat := 0b01011
  cqIrqEn : Nat := 0xFFFFFFFF
  stickyErr : Bool := false
  stickyBoot : Bool := false
  errCnt : Nat := 0
  errSat : Bool := false
  errQueue : Nat := 0
  errCause : Nat := 0
  snapNs : Nat := 0
  snapFrac : Nat := 0
  snapFrame : Nat := 0
  snapDone : Bool := false
deriving DecidableEq, Repr

/-- A register shadow of TW0: register address, bytes written or latched value, start time (R527, R528). -/
structure RdShadow where
  reg : Nat
  val : Nat
  at0 : Nat
deriving DecidableEq, Repr

structure WrShadow where
  reg : Nat
  bytes : List (Option Byte)
  at0 : Nat
deriving DecidableEq, Repr

/-- TW0 target (R522 to R531): pointer, the bytes present in each submission window, the completion windows, the two
shadows, the bytes the last read returned, and what a wake by TW0 left. -/
structure Tw0 where
  ptr : Nat := 0
  sub : Tab (List (Option Byte)) := []
  cmem : Mem := []
  rd : Option RdShadow := none
  wr : Option WrShadow := none
  out : List Byte := []
  stretch : Bool := false
  nackUntilRun : Bool := false
deriving DecidableEq, Repr

/-- A sender known to the replay test (R540): node, highest SEQ, the 64 values below it accepted, order of use. -/
structure FjSender where
  node : Nat
  high : Nat
  window : Nat
  used : Nat
deriving DecidableEq, Repr

/-- Settings and counters of PORT_CFG (R546, R548). `nodeId` none: the low 16 bits of UID (R542). -/
structure PortCfg where
  nodeId : Option Nat := none
  rightsTw0 : Nat := 1
  rightsFj : Nat := 0
  tw0Fl : Nat := 1
  tw1Speed : Nat := 1
  tw1Tout : Nat := 25
  tw1Retry : Nat := 3
  fjFl : Nat := 2
  evtIp : Nat := 0
  evtUdp : Nat := 0
  key0 : Option (List Byte) := none
  key1 : Option (List Byte) := none
  senders : List FjSender := []
  floor : Nat := 0
  useCtr : Nat := 0
  lastSeq : Nat := 0
  fjRxOk : Ctr := (0, false)
  fjAuthFail : Ctr := (0, false)
  fjReplay : Ctr := (0, false)
  fjBad : Ctr := (0, false)
  fjDupNode : Ctr := (0, false)
  tw0Stuck : Ctr := (0, false)
  tw1Arb : Ctr := (0, false)
  tw1Clear : Ctr := (0, false)
deriving DecidableEq, Repr

/-- A TW1 transfer: its parameters, attempts and bus-clear pulses so far, whether an attempt is under way, and the settings
it started with (R532 to R536). -/
structure Tw1Cur where
  id : Nat
  sr : Bool
  taddr : Nat
  retry : Nat
  wlen : Nat
  rlen : Nat
  data : List Byte
  attempts : Nat := 0
  pulses : Nat := 0
  active : Bool := false
  speed : Nat := 1
  tout : Nat := 25
deriving DecidableEq, Repr

structure Tw1 where
  cur : Option Tw1Cur := none
  waiting : List Tw1Cur := []
  stopOwed : Bool := false
deriving DecidableEq, Repr

/-! ### Power, reset and boot -/

/-- The power states of R554. -/
inductive PState where
  | off | hibernate | listen | idle | run
deriving DecidableEq, Repr

/-- A power-state transition that has started (R557 to R559): its command (none for a detection), its target, the
state it left, the step reached and when that step began, whether the Hibernate record is written. -/
structure PTrans where
  job : Option Nat
  target : PState
  old : PState
  step : Nat := 0
  at0 : Nat := 0
  deferMs : Nat := 0
deriving DecidableEq, Repr

/-- Where a boot is (R566). -/
inductive Boot where
  | off | released | qspi | tw0 | image | config | done
deriving DecidableEq, Repr

/-- Power and boot (R553 to R574): the state and its transitions, PWR_EN with the time it last moved (clk), whether it is
to be raised again after 100 ms, failed tries, a held wake cause, the causes of reset that hold, the boot's place, start,
last step and result, whether an image's load has ended, the configuration section, an accepted patch and its version, straps, whether
VAON's trim shadow holds the trims, thermal level. -/
structure Pwr where
  pstate : PState := .idle
  trans : Option PTrans := none
  deferral : Option PTrans := none
  pwrEn : Bool := true
  pwrEnAt : Nat := 0
  raiseDue : Bool := false
  pgTries : Nat := 0
  heldWake : Option Nat := none
  cause : Nat := 1
  vaonLow : Bool := false
  crystalStopped : Bool := false
  brownOut : Bool := false
  tripped : Bool := false
  boot : Boot := .off
  fullBoot : Bool := true
  bootT0 : Nat := 0
  stepAt : Nat := 0
  loaded : Bool := false
  result : Nat := 0
  cfgRest : List Packet := []
  cfgAt : Nat := 0
  cfgRun : Nat := 0
  cfgJob : Option Nat := none
  cfgStatus : Nat := 0
  bootErr : Bool := false
  patched : Bool := false
  patchVer : Nat := 0
  straps : Straps := {}
  trims : Bool := false
  ready : Bool := false
  thermLevel : Nat := 0
deriving DecidableEq, Repr

/-- Test access port (R587 to R594): state of the controller, instruction, what the data register it selects holds with the bit
nearest TDO first, the boundary register's latched cells from cell 0 on, the bits that TDO drove in the last scans, whether the trains
of EXTEST_TRAIN stand inverted, test hold. -/
structure Jtag where
  tap : TapState := .testLogicReset
  ir : Nat := 2
  dr : List Bool := []
  cells : List Bool := []
  tdo : List Bool := []
  train : Bool := false
  hold : Bool := false
deriving DecidableEq, Repr

/-! ### Time and trackers -/

/-- The states of a tracker (R358). -/
inductive TtSt where
  | disabled | listening | acquiring | locked | holdover | leader | faulty
deriving DecidableEq, Repr

/-- A leader's dataset from its Announce messages, how often and when it was heard (R356, R380). -/
structure PtpLeader where
  ident : Nat
  port : Nat
  gm : Nat
  prio1 : Nat
  cls : Nat
  acc : Nat
  var : Nat
  prio2 : Nat
  steps : Nat
  utc : Int
  logAnn : Int
  n : Nat := 1
  annAt : Nat
  twoStep : Bool := false
  logSync : Int := 0
  syncAt : Nat := 0
deriving DecidableEq, Repr

/-- A follower of a leader tracker (R360). -/
structure Follower where
  ident : Nat
  port : Nat
  last : Nat
deriving DecidableEq, Repr

/-- One tracker: settings (R378), state, estimate and servo, leaders heard, measurements, counters (R380). Times in
2^-16 ns unless named ns; `lkHist` holds the frequencies of the last 10 s in LOCKED with their durations in ns, `acc` the
accepted offsets of the last 10 s with their times; `back` marks a return from HOLDOVER or FAULTY still to be made. -/
structure Tracker where
  en : Bool := false
  l2 : Bool := false
  port : Option Nat := none
  domain : Nat := 0
  profile : Nat := 1
  role : Nat := 0
  logAnn : Int := 1
  logSync : Int := -3
  logDreq : Int := -3
  annTo : Nat := 3
  prio1 : Nat := 128
  prio2 : Nat := 128
  cclass : Nat := 248
  cacc : Nat := 0xFE
  cvar : Nat := 0xFFFF
  servo : Nat := 2
  dscp : Nat := 46
  ttl : Nat := 1
  jumpNs : Nat := 20000
  lockNs : Nat := 1000
  phyTx : Nat := 0
  phyRx : Nat := 0
  utcOfs : Int := 37
  st : TtSt := .disabled
  since : Nat := 0
  est : Option Int := none
  ppb : Int := 0
  avgPpb : Int := 0
  lkHist : List (Nat × Int) := []
  lkAt : Nat := 0
  lead : Option PtpLeader := none
  cands : List PtpLeader := []
  offset : Int := 0
  acc : List (Nat × Int) := []
  mpds : List Int := []
  outs : List Int := []
  back : Bool := false
  first4 : Option (List Int) := none
  firstCause : Nat := 1
  inLock : Nat := 0
  inLockAt : Nat := 0
  outLock : Nat := 0
  t1 : Option Int := none
  t2 : Option Int := none
  syncSeq : Nat := 0
  t3 : Option Int := none
  dreqSeq : Nat := 0
  dreqAt : Nat := 0
  dreqLog : Option Int := none
  annSentAt : Nat := 0
  syncSentAt : Nat := 0
  annSeq : Nat := 0
  sSeq : Nat := 0
  followers : List Follower := []
  reqAt : Nat := 0
  reqCnt : Nat := 0
  syncRx : Ctr := (0, false)
  dreq : Ctr := (0, false)
  outlier : Ctr := (0, false)
  jumps : Ctr := (0, false)
  followOvf : Ctr := (0, false)
  annRx : Ctr := (0, false)
  stateFr : Nat := 0
deriving DecidableEq, Repr

/-- A device-time step decided and not yet made, with the loads of device time that it completes (R369, R371). -/
structure TStep where
  e : Int
  cause : Nat
  left : Nat
  load : Option Nat := none
  jobs : List Nat := []
deriving DecidableEq, Repr

/-- Device time, frames, media count, tracker selection and policy (R350 to R387); `tick` counts the boundaries since the last
tick (R390); `dMeas` is the difference of the estimates as the last 10 ms measurement found it (R364). -/
structure Tm where
  devT : Nat := 0
  frame : Nat := 0
  begun : Bool := false
  frameRun : Bool := false
  frameT : Nat := 0
  tick : Nat := 0
  mediaM : Nat := 0
  mediaSet : Bool := false
  rate : Nat := 48000
  mode : Nat := 2
  pref : Nat := 0
  revertS : Nat := 60
  swLimit : Nat := 100
  active : Option Nat := none
  switchWait : Option (Nat × Nat) := none
  swCnt : Ctr := (0, false)
  swFr : Nat := 0
  qualSince : Option Nat := none
  policy : Nat := 0
  slewMax : Nat := 50
  stepMin : Nat := 2000
  r : Int := 0
  b : Int := 0
  slewing : Bool := false
  slewAt : Nat := 0
  aligned : Bool := false
  step : Option TStep := none
  jumpHeld : List (Int × Nat) := []
  gs : Nat := 0
  gsUp : Bool := true
  stepCnt : Ctr := (0, false)
  holdPpb : Int := 0
  dMeas : Option Int := none
deriving DecidableEq, Repr

/-! ### Engine -/

/-- A sample with its flags (R40, R42). -/
structure Smp where
  v : Int := 0
  settle : Bool := false
  priv : Bool := false
deriving DecidableEq, Repr

/-- Engine registers and frame gate (R17 to R31): `mutePos` is the late-frame mute's place in ns, 0 for full gain; `pendSet`
the input set not begun with its boundary (device ns) `pendB`; `working` the frame begun last and not known to be finished;
`held` what the destinations present before the gate's gains, `presented` after them; `lastLatch` and `latchT` the last
boundary by clk and by device time in 2^-16 ns; `metFr` the frame metered last; `first` until the first frame after reset
or Listen. -/
structure Eng where
  pace : Nat := 0
  paceMin : Nat := 0xFFFF
  load : Nat := 0
  disc : Bool := false
  muted : Bool := false
  lowv : Bool := false
  lateCnt : Nat := 0
  lateSat : Bool := false
  lateRun : Nat := 0
  okRun : Nat := 0
  muteUp : Bool := true
  mutePos : Nat := 0
  pendSet : Option (Nat × InputSet) := none
  pendB : Nat := 0
  working : Option Nat := none
  applyQ : List Nat := []
  outSet : Tab Int := []
  held : Tab Int := []
  presented : Tab Int := []
  src : Tab Smp := []
  srcPrev : Tab Int := []
  srcHist : Tab (List Int) := []
  lastLatch : Nat := 0
  latchT : Nat := 0
  metFr : Nat := 0
  first : Bool := true
deriving DecidableEq, Repr

/-! ### Quickset and meters -/

/-- The kinds of a transition in progress (R162, R186). -/
inductive TKind where
  | fade | zero | fallback
deriving DecidableEq, Repr

/-- A transition in progress: k frames made of a fade of n or a search of w (R168, R169). -/
structure Trans where
  kind : TKind
  from0 : Nat
  k : Nat := 0
  n : Nat := 0
  w : Nat := 0
  job : Nat := 0
deriving DecidableEq, Repr

/-- A request for a destination: source, kind 1 CUT, 2 FADE, 3 ZERO, fade time and search window in ms (R166, R171),
and the command it belongs to. -/
structure Req where
  src : Nat
  kind : Nat
  fade : Nat := 0
  win : Nat := 0
  job : Nat := 0
  tag : Nat := 0
deriving DecidableEq, Repr

/-- A command's request that has begun at a destination: its frame, the source before it, its command. A later request of the
same frame takes its place (R174). -/
structure Fresh where
  fr : Nat
  src : Nat
  job : Nat
deriving DecidableEq, Repr

/-- A route entry (R162). `cutFr` is the frame in which a change last took effect at once; the destination is free again
in the frame after it (R167, R169). -/
structure Route where
  src : Nat := 0x3FF
  trans : Option Trans := none
  held : Option Req := none
  stored : Option Nat := none
  cutFr : Option Nat := none
  fresh : Option Fresh := none
  dtrans : Nat := 2
  dfade : Nat := 5
  dzwin : Nat := 10
deriving DecidableEq, Repr

/-- A ROUTE_SET in flight: its entries as fixed at its start, and what became of them (R181, R182). -/
structure RouteJob where
  ents : List (Nat × Req) := []
  open0 : Nat := 0
  begun : Nat := 0
  same : Nat := 0
  replaced : Nat := 0
  zfall : Nat := 0
  first : Nat := 0
  last : Nat := 0
  lowRep : Nat := 0xFFFF
deriving DecidableEq, Repr

/-- One meter point (R191, R196): magnitudes in Q31, HOLD in Q63, mean square in Q94. -/
structure Meter where
  peak : Nat := 0
  hold : Nat := 0
  holdTmr : Nat := 0
  tpeak : Nat := 0
  y : Nat := 0
  clip : Nat := 0
  clipSat : Bool := false
  clipRun : Bool := false
  tau : Nat := 300
  holdT : Nat := 100
  decay : Nat := 20
  tpEn : Bool := false
  hist : List Int := []
  settle : Bool := false
  priv : Bool := false
deriving DecidableEq, Repr

/-! ### Mix -/

/-- The contribution a commit moved away from (R224): amplitude in units of 2^-96. -/
structure Shadow where
  src : Nat
  bus : Nat
  f : Fade
deriving DecidableEq, Repr

/-- A mix entry: STAGE and LIVE (R219). -/
structure MixE where
  ssrc : Nat := 0x3FF
  sbus : Nat := 0
  sgain : Int := muteCode
  pend : Bool := false
  src : Nat := 0x3FF
  bus : Nat := 0
  gain : Int := muteCode
  fade : Option Fade := none
  shadow : Option Shadow := none
deriving DecidableEq, Repr

/-- A bus: staged and live parameters, direct trim fade in ms, limiter, flags (R213 to R219, R236). Levels in units of 2^-16
centi-dB, gains in units of 2^-96. -/
structure Bus where
  strim : Int := 0
  sthr : Int := -300
  sceil : Int := -100
  sbyp : Bool := true
  pTrim : Bool := false
  pThr : Bool := false
  pCeil : Bool := false
  pByp : Bool := false
  trim : Int := 0
  thr : Int := -300
  ceil : Int := -100
  byp : Bool := true
  trimFade : Nat := 10
  trimF : Option Fade := none
  thrF : Option Fade := none
  ceilF : Option Fade := none
  knee : Nat := 20
  att : Nat := 100
  rel : Nat := 100
  la : Nat := 0
  env : Int := 0
  win : List (Int × Int) := []
  g : Int := 0
  bypF : Option Fade := none
  laF : Option (List (Nat × Nat) × Nat × Nat) := none
  bsat : Bool := false
  fsat : Bool := false
  satCnt : Ctr := (0, false)
  satRun : Bool := false
  finRun : Bool := false
  grMax : Int := 0
deriving DecidableEq, Repr

/-- A MIX_COMMIT whose fades run: frames left (R234). -/
structure MixJob where
  id : Nat
  nEntry : Nat
  nBusp : Nat
  nShadow : Nat
  commitFr : Nat
  left : Nat
  endFr : Nat := 0
  endT : Nat := 0
deriving DecidableEq, Repr

/-! ### Firkin -/

/-- Owners of a region (R242). -/
inductive Owner where
  | host
  | rx (stream : Nat)
deriving DecidableEq, Repr

structure Region where
  first : Nat
  n : Nat
  fmt : Nat
  chans : Nat
  owner : Owner
deriving DecidableEq, Repr

/-- A clear or a bulk transfer that runs, with the bytes it has moved by the last boundary (R256, R257, R259). -/
structure Xfer where
  id : Nat
  write : Bool := false
  clear : Bool := false
  region : Nat
  ofs : Nat := 0
  wofs : Nat := 0
  total : Nat
  data : List Byte := []
  firstFr : Nat := 0
  at0 : Nat := 0
  moved : Nat := 0
deriving DecidableEq, Repr

/-- A tap crossfade of a delay line, or its unbind fade to zero (R252, R254): the old side is the tap `old`, or the
blend of taps `old` and `old2` at weight `w2`. -/
structure LFade where
  old : Nat
  old2 : Nat := 0
  w2 : Nat := 0
  toZero : Bool := false
  k : Nat := 0
  n : Nat
deriving DecidableEq, Repr

/-- A delay change that waits, with its XFADE_MS field (R253); stored in Listen with delay 0, an unbind (R262). -/
structure LReq where
  delay : Nat
  n : Nat := 0
  job : Nat := 0
deriving DecidableEq, Repr

structure Line where
  region : Option Nat := none
  delay : Nat := 0
  xfade : Nat := 10
  cnt : Nat := 0
  pos : Nat := 0
  grp : List Int := []
  fade : Option LFade := none
  held : Option LReq := none
  stored : Option LReq := none
  unbindJob : Option Nat := none
  applyFr : Nat := 0
  endT : Nat := 0
deriving DecidableEq, Repr

/-! ### Outputs and jacks -/

/-- One analogue output destination (R268, R296); g is a position 0 to 2^32 along its raised cosine (R269). -/
structure Out where
  otrim : Int := 0
  ofade : Nat := 10
  tf : Option Fade := none
  muteMs : Nat := 10
  smute : Bool := false
  g : Nat := 0
  hist : List Int := []
deriving DecidableEq, Repr

/-- One output group (R267, R275, R278 to R285). `resp` is the response in force, `respNew` one
that waits, for the next unmute or with `respGo` for g to reach 0 (R282); `due` is the
end of the present step and `rr` the length of its bias ramp, both in thousandths of a frame; `fast` moves g over 1 ms;
`rateMute` is the mute of a base-rate change: some 0 before B(s), then the frame it ends in (R410). -/
structure Grp where
  en : Bool := false
  resp : Nat := 0
  ramp : Nat := 200
  st : Nat := 0
  due : Nat := 0
  rr : Nat := 0
  cause : Nat := 0
  fault : Option Nat := none
  latched : Bool := false
  wait : Bool := false
  hwMute : Bool := false
  relock : Bool := false
  fast : Bool := false
  offSoon : Bool := false
  again : Option Nat := none
  respNew : Option Nat := none
  respGo : Bool := false
  fillTo : Option Nat := none
  railHigh : Bool := false
  loudAt : Nat := 0
  rateMute : Option Nat := none
deriving DecidableEq, Repr

/-- Debounce of a jack (R287): toward inserted, since (clk), device time and frame of the edge it counts from. -/
structure Deb where
  toIn : Bool
  at0 : Nat
  ns : Nat
  fr : Nat
deriving DecidableEq, Repr

/-- A headset measurement (R291): step 0 waits for its bias, 1 converts, 2 waits for Idle or Run; the JFLAGS and DONE of
its event. -/
structure HsMeas where
  step : Nat
  at0 : Nat
  jflags : Nat
  ns : Nat
deriving DecidableEq, Repr

/-- A jack (R286 to R302). `jen` and `micb` none are their reset values by jack; `acc` is the accepted state; `cand` is
the run of alike button polls: 0 to 3 a button's range, 4 the window band, with the readings and the first one's time. -/
structure Jack where
  jen : Option Bool := none
  pol : Bool := false
  auto : Bool := false
  hsdet : Bool := false
  btn : Bool := false
  linkSt : Bool := true
  micb : Option Nat := none
  dbIn : Nat := 50
  dbOut : Nat := 5
  linkMask : Nat := 0
  linkOn : Bool := false
  iShort : Nat := 1000
  btnLo : List Nat := [1220, 1175, 1100, 1000]
  btnHi : List Nat := [1400, 1219, 1174, 1099]
  acc : Option Bool := none
  deb : Option Deb := none
  cls : Nat := 0
  btnNow : Option Nat := none
  cand : Option Nat := none
  polls : List Nat := []
  firstPoll : Nat := 0
  iMicb : Nat := 0xFFFF
  glitch : Ctr := (0, false)
  edgeFr : Nat := 0
  edgeNs : Nat := 0
  pollAt : Nat := 0
  meas : Option HsMeas := none
deriving DecidableEq, Repr

/-- A mic bias (R277): MB_EN and the voltage code. -/
structure MicB where
  en : Bool := false
  volt : Nat := 2
deriving DecidableEq, Repr

/-! ### Analogue inputs -/

/-- Calibration states (R108). -/
inductive CalSt where
  | tracking | converged | frozen
deriving DecidableEq, Repr

/-- One calibration pair (R106 to R110): estimates in 2^-16 of their unit, none while they are the factory seeds;
qualifying blocks since the seed load and since TRACKING began; G and D of the last 2,000 qualifying blocks; the index at
which the block being gathered begins. -/
structure Pair where
  st : CalSt := .tracking
  g : Option Int := none
  d : Option Int := none
  o : Option Int := none
  qual : Nat := 0
  sinceTrack : Nat := 0
  lastTemp : Option Int := none
  hist : List (Int × Int) := []
  at0 : Nat := 0
deriving DecidableEq, Repr

/-- A merged instant kept for the calibration (R106): its index, the raw samples, which paths were clean, and whether Privet
or the settle period silenced the channel. -/
structure CalSmp where
  k : Nat
  t : Tri
  cleanM : Bool
  cleanH : Bool
  dead : Bool
deriving DecidableEq, Repr

/-- A channel's chain after the merge, newest first: merged samples, and the final FIR's output samples, one per frame (R130). -/
structure Hist where
  merged : List Int := []
  fir : List Int := []
deriving DecidableEq, Repr

/-- A pad change in progress (R119, R126): the intermediate index its search ends before, or the stepped change's start
(clk) and steps made. -/
structure PadJob where
  job : Nat
  target : Bool
  comp : Bool
  until0 : Nat
  stepping : Option (Nat × Nat) := none
deriving DecidableEq, Repr

/-- A crossfade of the phase-delay tap from a weighted blend of taps (R137); weights in units of 2^-62. -/
structure TapFade where
  old : List (Nat × Nat)
  k : Nat := 0
  n : Nat
deriving DecidableEq, Repr

/-- One analogue input: settings, power, reset, modulator samples, merge (R103), histories newest first, pairs, overload and
trim. `k` is the index of the next merged sample, `look` the raw samples from it on; `raw` is the chain as merged, `cmp` the
same with samples captured before a compensated pad change brought to the level after it, `comp` the steps whose capture
index the merge has not reached and their centi-dB (R120); `ovls` the indices of overloaded merged samples; `free` is the
sample of the last performed frame with the phase delay undone (R149). -/
structure Ain where
  en : Bool := true
  freeze : Bool := false
  hold : Nat := 20
  trim : Int := 0
  trimFade : Nat := 10
  tf : Option Fade := none
  pad : Bool := false
  padJob : Option PadJob := none
  resp : Nat := 0
  pd : Nat := 0
  pdFade : Nat := 10
  tap : Option TapFade := none
  powered : Bool := false
  resetFr : Nat := 0
  firstValid : Nat := 0
  settling : Bool := true
  path : Nat := 0
  fading : Bool := false
  tgt : Nat := 0
  f0 : Nat := 0
  lastBadM : Nat := 0
  lastBadH : Nat := 0
  k : Nat := 0
  mods : List Tri := []
  look : List Tri := []
  past : List Tri := []
  raw : Hist := {}
  cmp : Hist := {}
  comp : List (Nat × Int) := []
  ovls : List Nat := []
  quiet : Nat := 0
  cal : List CalSmp := []
  lm : Pair := {}
  mh : Pair := {}
  ovr : Bool := false
  tsat : Bool := false
  ovrRun : Bool := false
  ovrCnt : Ctr := (0, false)
  switchCnt : Ctr := (0, false)
  lastOvr : Nat := 0
  free : Int := 0
  out : Smp := {settle := true}
deriving DecidableEq, Repr

/-- An AIN_PAD in flight (R126): channels still to change, the result masks, the boundary of the last change. -/
structure PadCmd where
  left : List Nat
  quiet : Nat := 0
  step : Nat := 0
  stored : Nat := 0
  same : Nat := 0
  last : Nat := 0
deriving DecidableEq, Repr

/-! ### Network -/

/-- An IGMP message that waits for its time (R325): group, due (clk), 0 report, 1 second report, 2 leave. -/
structure IgmpJob where
  group : Nat
  src : Nat := 0
  due : Nat
  kind : Nat
deriving DecidableEq, Repr

/-- A host frame that waits for departure (R336, R347). -/
structure HostTx where
  id : Nat
  stamp : Bool
  csum : Bool
  fmt : Nat
  len : Nat
  sofs : Nat
  wofs : Nat
deriving DecidableEq, Repr

structure Net where
  nmode : Nat := 0
  nfl : Nat := 5
  lanepol : Nat := 0
  fwtag : Nat := 0
  dscp : Nat := 0
  mac : Nat := 0
  vid : Nat := 0
  ipv4 : Nat := 0
  hmcast : List Nat := []
  up : Bool := false
  speed : Nat := 0
  an : Bool := false
  rf : Bool := false
  linkFr : Nat := 0
  held : Nat := 0
  txq : List HostTx := []
  lastTx : List Byte := []
  igmp : List IgmpJob := []
  icmpAt : Nat := 0
  icmpCnt : Nat := 0
  rxOk : Ctr := (0, false)
  rxErr : Ctr := (0, false)
  rxMedia : Ctr := (0, false)
  rxHost : Ctr := (0, false)
  rxHostDrop : Ctr := (0, false)
  rxUnmatched : Ctr := (0, false)
  rxPause : Ctr := (0, false)
  txOk : Ctr := (0, false)
  txMedia : Ctr := (0, false)
  txHost : Ctr := (0, false)
  txDrop : Ctr := (0, false)
  linkDown : Ctr := (0, false)
deriving DecidableEq, Repr

/-- Settings of a Tx stream (R341). -/
structure TxCfg where
  ports : Nat
  fmt : Nat
  ptime : Nat
  nch : Nat
  pt : Nat
  tfl : Nat
  vid : Nat
  dscp : Nat
  ttl : Nat
  dstIp : Nat
  dstUdp : Nat
  srcUdp : Nat
  dstMac : Nat
  alignMin : Nat
  ssrc : Nat
  rtpOfs : Nat
  chmap : List Nat
deriving DecidableEq, Repr

/-- A packet whose frames are complete and that has still to leave the ports of a mask (R315, R316): `k` is the first fresh
argument of its dither, one for both ports (R311); `old` marks that of a stream since deleted. -/
structure TxPkt where
  cfg : TxCfg
  ports : Nat
  seq : Nat
  ts : Nat
  m : Nat
  smp : List (List Int)
  k : Nat := 0
  old : Bool := false
deriving DecidableEq, Repr

/-- A crossfade of a stream's taps (R150): the old side as weighted tables of delays by source, weights in units of 2^-62. -/
structure AlignFade where
  old : List (Tab Nat × Nat)
  k : Nat := 0
  n : Nat
deriving DecidableEq, Repr

/-- A Tx stream: settings, settings stored in Listen, alignment A in force, the A its timestamps use (that of its first packet,
log 108), the delays in force by source in 1/1024 sample and the sources with the lags that A was formed from, its crossfade,
sequence, first frame, the frames gathered for the next packet, packets due, counters (R146 to R150, R311 to R316, R342);
`fresh` marks one that was deleted in Listen before what is stored. -/
structure Tx where
  cfg : Option TxCfg := none
  stored : Option (Option TxCfg) := none
  fresh : Bool := false
  a : Nat := 0
  ta : Option Nat := none
  dly : Tab Nat := []
  srcs : List (Nat × Nat) := []
  tap : Option AlignFade := none
  seq : Nat := 0
  from0 : Nat := 0
  frames : List (List Int) := []
  firstM : Nat := 0
  due : List TxPkt := []
  pkts : Ctr := (0, false)
  skip : Ctr := (0, false)
deriving DecidableEq, Repr

/-- Settings of an Rx stream (R344). -/
structure RxCfg where
  ports : Nat
  fmt : Nat
  ptime : Nat
  nch : Nat
  pt : Nat
  rfl : Nat
  linkOfs : Nat
  ip0 : Nat
  src0 : Nat
  udp0 : Nat
  ip1 : Nat
  src1 : Nat
  udp1 : Nat
  ssrc : Nat
  rtpOfs : Nat
  chmap : List Nat
deriving DecidableEq, Repr

/-- A packet held in a jitter buffer (R320): sequence, timestamp, media count of its first sample, samples by frame, clk of its
arrival. -/
structure RxPkt where
  seq : Nat
  ts : Nat
  m : Int
  smp : List (List Int)
  arr : Nat
deriving DecidableEq, Repr

/-- A media datagram received and on its way to its stream: clk of its arrival, port, UDP checksum right, payload (R320). -/
structure RxFly where
  arr : Nat
  port : Nat
  sumOk : Bool
  data : List Byte
deriving DecidableEq, Repr

/-- A reader of an NRX (R322): concealment gain position (0 to 2^32), S of its stream, its recent pre-gain outputs. -/
structure Reader where
  g : Nat := 0
  spp : Nat := 1
  hist : List Int := []
deriving DecidableEq, Repr

/-- An Rx stream: settings, settings stored in Listen, region and the place there of media count 0 (log 138), state, paths,
datagrams on their way, held packets, gap of the Δ = 0 reader with the sequence number before it, what its event last reported,
frame of the first packet written, margins in ns (R317 to R323, R337, R345); `fresh` as in Tx. -/
structure Rx where
  cfg : Option RxCfg := none
  stored : Option (Option RxCfg) := none
  fresh : Bool := false
  org : Nat := 0
  fly : List RxFly := []
  region : Option Nat := none
  st : Nat := 0
  paths : Nat := 0
  last0 : Nat := 0
  last1 : Nat := 0
  lastWr : Nat := 0
  buf : List RxPkt := []
  lastTs : Nat := 0
  gap : Bool := false
  gapSeq : Option Nat := none
  repSt : Nat := 0
  repPaths : Nat := 0
  firstFr : Option Nat := none
  mgAt : Nat := 0
  mgNow : Option Int := none
  mgLast : Option Int := none
  pkts : Ctr := (0, false)
  missing : Ctr := (0, false)
  late : Ctr := (0, false)
  early : Ctr := (0, false)
  badFmt : Ctr := (0, false)
  dup : Ctr := (0, false)
  used0 : Ctr := (0, false)
  used1 : Ctr := (0, false)
  conceal : Ctr := (0, false)
  short : Ctr := (0, false)
  tsMis : Ctr := (0, false)
deriving DecidableEq, Repr

/-! ### Clocks -/

/-- A relock that runs (R405, R406): its cause, the step reached and since when (clk). -/
structure Relock where
  cause : Nat
  step : Nat := 1
  at0 : Nat := 0
deriving DecidableEq, Repr

/-- A ramp profile that runs (R403): segments (target ppb, duration ms), index, device time in ns and offset at the
segment's start, its duration after lengthening in µs; `ret` marks a return to zero. -/
structure Ramp where
  segs : List (Int × Nat)
  idx : Nat := 0
  at0 : Nat := 0
  from0 : Int := 0
  durUs : Nat := 0
  loop : Bool := false
  ret : Bool := false
deriving DecidableEq, Repr

/-- The terms of an NCO that its limiter moves, as they stood at a clk (R401): servo correction in ppb, pull in units of
1 / 1,001,000 ppb, ramp offset in ppb. -/
structure Lim where
  at0 : Nat := 0
  servo : Int := 0
  pull : Int := 0
  off : Int := 0
deriving DecidableEq, Repr

/-- A PLL: settings (R416), states, servo correction in ppb while it is held or measured and when it was (clk), a pull under
way, the limiter, ramp offset and profile, a ramp command stored in Listen, reference validity, the phase error a slew
removes, with its length in ns, start (clk) and PULL_PPM, the servo corrections of the last 10 s phase-locked or following with
their durations in ns and up to when (R396), a free run since the last lock to device time (R310). -/
structure Pll where
  en : Option Bool := none
  ref : Nat := 1
  refIdx : Nat := 0
  wmul : Nat := 0
  ndiv : Nat := 0
  pull : Nat := 0
  bw : Nat := 100
  ret : Nat := 0
  pullPpm : Nat := 100
  retMax : Nat := 10
  refOfs : Int := 0
  apllHz : Nat := 2400000000
  ssMode : Nat := 0
  ssDepth : Nat := 0
  ssKhz : Nat := 32
  lstate : Nat := 0
  rstate : Nat := 0
  relock : Option Relock := none
  corr : Int := 0
  refAt : Nat := 0
  pulling : Bool := false
  lim : Lim := {}
  offset : Int := 0
  ramp : Option Ramp := none
  rampStored : Option (Nat × List (Int × Nat) × Bool) := none
  nExt : Nat := 0
  total : Nat := 0
  startFr : Nat := 0
  refOk : Bool := false
  phase : Int := 0
  slewNs : Nat := 0
  slewAt : Nat := 0
  slewPpm : Nat := 100
  freeRan : Bool := false
  inBandAt : Nat := 0
  hist : List (Nat × Int) := []
  histAt : Nat := 0
  relockCnt : Ctr := (0, false)
  refLoss : Ctr := (0, false)
  lockFr : Nat := 0
deriving DecidableEq, Repr

/-- A base-rate change that is pending or stored (R410): the commands that wait for it, t0 (clk), and whether the rate has
changed and only B(s) is to come. -/
structure RateChg where
  rate : Nat
  jobs : List Nat := []
  at0 : Nat := 0
  stored : Bool := false
  applied : Bool := false
deriving DecidableEq, Repr

/-- Settings of a clock output (R421). -/
structure CkoCfg where
  cfl : Nat := 4
  src : Nat := 0
  fmt : Nat := 0
  iostd : Nat := 0
  guard : Nat := 0
  drive : Nat := 1
  div : Nat := 120
  width : Nat := 0
deriving DecidableEq, Repr

structure Cko where
  cfg : CkoCfg := {}
  now : CkoCfg := {}
  dirty : Bool := false
  applyFr : Nat := 0
deriving DecidableEq, Repr

/-! ### Serial audio -/

/-- A TP port: settings (R438), state, runs of valid and not valid frames, clock valid, measured rate, port frames by the
time they ended, newest first, the deadlines as ages in ns (none until the phase is measured), the frame last used, lag and
lead, the latched input samples, output sets by the time they were collected, the codes SDO carries, counters. -/
structure Tp where
  tfmt : Nat := 0
  role : Nat := 0
  clk : Nat := 0
  nslot : Nat := 2
  width : Nat := 2
  tfl : Nat := 0
  msrc : Nat := 0
  guard : Nat := 0
  prate : Nat := 0
  inMask : Nat := 0
  outMask : Nat := 0
  rise : Nat := 5
  st : Nat := 0
  good : Nat := 0
  bad : Nat := 0
  clkOk : Bool := false
  mhz : Nat := 0
  frames : List (Nat × List Int) := []
  inAge : Option Nat := none
  outAge : Option Nat := none
  used : Option Nat := none
  inLag : Nat := 0
  outLead : Nat := 0
  inNow : List Int := []
  outQ : List (Nat × List Int) := []
  outNow : List Int := []
  slip : Ctr := (0, false)
  ferr : Ctr := (0, false)
deriving DecidableEq, Repr

/-- An ASRC channel (R432 to R435): its port and slot, the slot a released one falls on, state, ratio in Q8.24, its gain's
last move in units of 2^-62, samples by the clk they stand for, newest first. -/
structure Asrc where
  owner : Option (Nat × Nat) := none
  tail : Option (Nat × Nat) := none
  st : Nat := 0
  ratio : Nat := 0
  fade : Fade := { m := 0, t := 0 }
  hist : List (Nat × Int) := []
deriving DecidableEq, Repr

/-! ### Listen and Privet -/

/-- One Listen channel's detector (R449): noise estimate in 2^-16 centi-dB, the present block's energy and samples, runs of voiced
and unvoiced blocks, an onset held. -/
structure Vad where
  noise : Option Int := none
  sum : Nat := 0
  cnt : Nat := 0
  voiced : Nat := 0
  quiet : Nat := 0
  onset : Bool := false
deriving DecidableEq, Repr

/-- LST0 or LST1 (R457): running, frames of its rise made. -/
structure Lst where
  on : Bool := false
  rise : Nat := 0
deriving DecidableEq, Repr

/-- The Listen path (R442 to R473): settings, samples counted, when the newest left F7 (clk), settle samples left and the runs
of indices that settled, newest first, clock source, detectors, candidate and since when its score is low, the last score, the
engine's running state, the model, a commit under way, the index before which all is zero by Privet,
HISTORY_READ commands that wait with their first index. -/
structure Listen where
  en : Nat := 0
  gain : Nat := 0
  vadSnr : Nat := 9
  vadMin : Int := -60
  vadHang : Nat := 30
  pfl : Nat := 0
  detAct : Nat := 0
  detThr : Nat := 49152
  candThr : Nat := 16384
  lstEn : Nat := 0
  idx : Nat := 0
  lastAt : Nat := 0
  settle0 : Nat := 0
  settle1 : Nat := 0
  zeros0 : List (Nat × Nat) := []
  zeros1 : List (Nat × Nat) := []
  mod0 : List Int := []
  mod1 : List Int := []
  clkSrc : Nat := 0
  vad0 : Vad := {}
  vad1 : Vad := {}
  cand : Bool := false
  candLow : Option Nat := none
  score : Nat := 0
  phSt : Nat := 0
  mstate : Nat := 0
  mlen : Nat := 0
  mdata : List Byte := []
  mcrc : Nat := 0
  hop : Nat := 0
  hopCnt : Nat := 0
  modelId : Nat := 0
  commitJob : Option Nat := none
  det : Ctr := (0, false)
  drop : Ctr := (0, false)
  l0 : Lst := {}
  l1 : Lst := {}
  zeroTo : Nat := 0
  waits : List (Nat × Nat) := []
deriving DecidableEq, Repr

/-! ### Gauge -/

/-- A sequence entry (R479, R494). -/
structure GEntry where
  input : Nat
  gain : Nat
  ctime : Nat
  win : Option Nat
  settle : Nat
  raw : Bool
deriving DecidableEq, Repr

/-- A FIFO entry (R484): its 64-bit word and the device time of its midpoint in ns. -/
structure GRes where
  word : Nat
  mid : Nat
deriving DecidableEq, Repr

/-- What a calibration step does to which slot (R492). -/
structure GCalJob where
  slot : Nat
  full : Bool
  navg : Nat
  value : Int
deriving DecidableEq, Repr

/-- The entry a converter settles on or converts, and when its settle began (clk). -/
structure GConv where
  ent : Nat
  at0 : Nat
deriving DecidableEq, Repr

/-- An urgent conversion or calibration step, in order of request (R482, R503); `started` is when its settle began (clk), `extra`
the time in ns that the jack unit's conversions have taken between a calibration's. -/
structure GUrg where
  id : Nat
  input : Nat
  gain : Nat
  ctime : Nat
  settle : Nat := 100
  fifo : Bool := false
  raw : Bool := true
  at0 : Nat
  cal : Option GCalJob := none
  started : Option Nat := none
  extra : Nat := 0
deriving DecidableEq, Repr

/-- A converter (R479 to R486): its sequence and mode, whether it runs, the entry at hand, the next entry, the pass under
way and since when (clk), a held pass, triggers not yet served, the next grid point (device ns), the last pass's duration in ns,
when a conversion last left it free (clk), each entry's latest result with its midpoint, urgent conversions, FIFO and counters. -/
structure Gauge where
  seq : List GEntry := []
  mode : Nat := 0
  trig : Nat := 0
  wmark : Nat := 32
  period : Nat := 0
  running : Bool := false
  cur : Option GConv := none
  nextEnt : Nat := 0
  inPass : Bool := false
  passAt : Nat := 0
  held : Bool := false
  trigPend : Nat := 0
  grid : Nat := 0
  passNs : Nat := 0
  freeAt : Nat := 0
  last : Tab (Int × Nat) := []
  urg : List GUrg := []
  fifo : List GRes := []
  dropCnt : Ctr := (0, false)
  overrun : Ctr := (0, false)
deriving DecidableEq, Repr

structure GWin where
  wen : Bool := false
  reentry : Bool := false
  ncons : Nat := 1
  low : Int := -8388608
  high : Int := 8388607
  hyst : Nat := 0
  st : Nat := 3
  toward : Nat := 3
  run : Nat := 0
  last : Int := 0
  evt : Ctr := (0, false)
deriving DecidableEq, Repr

structure GCal where
  st : Nat := 0
  conv : Nat := 0
  input : Nat := 0
  gain : Nat := 0
  ofs : Int := 0
  gcor : Nat := 0
deriving DecidableEq, Repr

structure GPlaus where
  pen : Bool := false
  input : Nat := 0
  gain : Nat := 0
  entA : Nat := 0
  entB : Nat := 0
  tol : Nat := 8388
  failed : Bool := false
  fail : Ctr := (0, false)
  stale : Ctr := (0, false)
deriving DecidableEq, Repr

/-- A RESET_UNIT that runs (R87): command, unit, index, start. -/
structure RstUnit where
  id : Nat
  unit : Nat
  index : Nat
  at0 : Nat
deriving DecidableEq, Repr

/-! ### The whole -/

/-- The block. -/
structure State where
  pending : List Instr := []
  clk : Nat := 0
  freeCtr : Nat := 0
  part : Part := {}
  pins : Pins := {}
  env : Env := {}
  pwr : Pwr := {}
  jtag : Jtag := {}
  tm : Tm := {}
  tt0 : Tracker := {}
  tt1 : Tracker := {}
  eng : Eng := {}
  queues : Tab Queue := []
  rr : Nat := 0
  flight : List Flight := []
  seq : Nat := 0
  arr : Nat := 0
  evMask1 : List Nat := []
  evMask2 : List Nat := []
  evMask3 : List Nat := []
  evDrop1 : Nat := 0
  evDrop2 : Nat := 0
  evDrop3 : Nat := 0
  evLast : Tab Nat := []
  pr1 : PortRegs := {}
  pr3 : PortRegs := {}
  qout : List Byte := []
  mem : Mem := []
  tw0 : Tw0 := {}
  pc : PortCfg := {}
  tw1 : Tw1 := {}
  routes : Tab Route := []
  routeJobs : Tab RouteJob := []
  meters : Tab Meter := []
  mix : Tab MixE := []
  buses : Tab Bus := []
  mixJobs : List MixJob := []
  regions : Tab Region := []
  fk : Mem := []
  xfers : List Xfer := []
  lines : Tab Line := []
  outs : Tab Out := []
  grps : Tab Grp := []
  jacks : Tab Jack := []
  micb : Tab MicB := []
  ains : Tab Ain := []
  padCmds : Tab PadCmd := []
  net : Tab Net := []
  tx : Tab Tx := []
  rx : Tab Rx := []
  readers : Tab Reader := []
  ring : Nat := 0
  plls : Tab Pll := []
  rateChg : Option RateChg := none
  ckos : Tab Cko := []
  tps : Tab Tp := []
  asrc : Tab Asrc := []
  ls : Listen := {}
  ga : Gauge := {}
  gb : Gauge := {}
  gw : Tab GWin := []
  cal : Tab GCal := []
  plaus : GPlaus := {}
  rsts : List RstUnit := []
  listenCmds : List Packet := []
  jackCmds : List Packet := []
deriving DecidableEq, Repr

/-- The part right after RST_N has risen with PG_IN still low (R562, R566): every field at its reset value. -/
def State.reset : State := {}

end Sys2Proof.Machine
end

