-- ==== Sys2Proof/WellFormed.lean ====
section
/-!
DEFINITION. Which commands are commands of this block: every operand names something the part has (a queue, a unit, a register
value of 32 bits, an instruction byte) and fits the field that carries it. What is not such a command cannot reach the hardware and
is refused by name (`illFormed`). Nothing else is refused: a measured quantity, a count and the length of a burst, a scan or a
frame may take any value.
-/
namespace Sys2Proof
open Sys2Proof.Machine

/-- The packet's fields fit their bytes (R43), and a LEN that check 1 of R46 lets pass is the packet's length. -/
def Cmd.wf (c : Cmd) : Bool :=
  decide (c.queue < 32) && decide (c.tag < 65536) && decide (c.len < 65536) && decide (c.flags < 256) &&
  decide (c.rsvd < 256) && decide (c.whenNs < 2 ^ 64) &&
  (if c.len % 4 = 0 ∧ 16 ≤ c.len ∧ c.len ≤ 1024 then decide (c.params.length + 16 = c.len) else true)

/-- A host port code of R92: 1 QSPI, 3 TW0 (the two ports with registers of their own). -/
def regPort (p : Nat) : Bool := decide (p = 1) || decide (p = 3)

/-- A frame's modulator samples per channel, each a Q1.31 fraction, no channel twice (R132). -/
def InputSet.wf (i : InputSet) : Bool :=
  i.ain.all (fun a => decide (a.ch < 32) && [128, 64, 32].contains a.smp.length &&
    a.smp.all fun t => [t.l, t.m, t.h].all fun x => decide (q31Min ≤ x) && decide (x ≤ q31Max)) &&
  decide ((i.ain.map (·.ch)).Nodup)

/-- Levels of five strap balls. -/
def Straps.wf (s : Straps) : Bool := decide (s.addr < 4) && decide (s.bootsel < 4)

/-- The time a command carries. -/
def Instr.dt : Instr → Nat
  | .nop dt _ => dt
  | .caps dt _ => dt
  | .abort dt _ => dt
  | .resetUnit dt _ => dt
  | .powerState dt _ => dt
  | .eventMask dt _ => dt
  | .queueConfig dt _ => dt
  | .timeRead dt _ => dt
  | .routeSet dt _ => dt
  | .routeGet dt _ => dt
  | .routeFadeCfg dt _ => dt
  | .mixStage dt _ => dt
  | .mixCommit dt _ => dt
  | .busCfg dt _ => dt
  | .limiterCfg dt _ => dt
  | .meterCfg dt _ => dt
  | .meterRead dt _ => dt
  | .meterReset dt _ => dt
  | .ainCfg dt _ => dt
  | .ainPad dt _ => dt
  | .chainCfg dt _ => dt
  | .chainSync dt _ => dt
  | .mergeStatus dt _ => dt
  | .outCfg dt _ => dt
  | .jackCfg dt _ => dt
  | .firkinAlloc dt _ => dt
  | .firkinFree dt _ => dt
  | .delayCfg dt _ => dt
  | .firkinRead dt _ => dt
  | .firkinWrite dt _ => dt
  | .netPortCfg dt _ => dt
  | .txstreamCfg dt _ => dt
  | .rxstreamCfg dt _ => dt
  | .hostFrameSend dt _ => dt
  | .ptpCfg dt _ => dt
  | .ttSelect dt _ => dt
  | .timePolicy dt _ => dt
  | .pllCfg dt _ => dt
  | .rampLoad dt _ => dt
  | .ckoCfg dt _ => dt
  | .tdmCfg dt _ => dt
  | .asrcCfg dt _ => dt
  | .listenCfg dt _ => dt
  | .modelLoad dt _ => dt
  | .historyRead dt _ => dt
  | .gaugeSeq dt _ => dt
  | .gaugeWindow dt _ => dt
  | .gaugeCal dt _ => dt
  | .gaugeUrgent dt _ => dt
  | .gaugePlaus dt _ => dt
  | .tw1Xfer dt _ => dt
  | .portCfg dt _ => dt
  | .sqTailDoorbell dt _ _ => dt
  | .cqHeadRelease dt _ _ _ => dt
  | .qStatOvfClear dt _ _ _ => dt
  | .irqStatClear dt _ _ => dt
  | .portErrClear dt _ _ => dt
  | .snapLatch dt _ _ => dt
  | .engPaceClear dt _ => dt
  | .engStatDiscClear dt _ => dt
  | .engLateClear dt _ => dt
  | .registerWrite dt _ _ _ => dt
  | .hostSlotRelease dt _ => dt
  | .read dt _ _ => dt
  | .fastRead dt _ _ => dt
  | .quadRead dt _ _ => dt
  | .write dt _ _ => dt
  | .quadWrite dt _ _ => dt
  | .readStatus dt _ => dt
  | .readId dt _ => dt
  | .qspiUnknownInstruction dt _ => dt
  | .tw0Write dt _ _ => dt
  | .tw0Read dt _ => dt
  | .tw0ReadShadowExpire dt => dt
  | .tw0WriteShadowExpire dt => dt
  | .tw0StuckRelease dt => dt
  | .tw0WakeMatch dt => dt
  | .extest dt _ => dt
  | .samplePreload dt _ => dt
  | .idcode op => op.dt
  | .clamp dt => dt
  | .highz dt => dt
  | .extestPulse dt _ => dt
  | .extestTrain dt _ => dt
  | .bypass op => op.dt
  | .tapReset op => op.dt
  | .tmodeChange dt _ => dt
  | .rstNAssert dt => dt
  | .powerOnReset dt => dt
  | .crystalStop dt => dt
  | .pgInRise dt => dt
  | .bootStep dt _ _ => dt
  | .bootWindowPoll dt => dt
  | .configPacketRun dt => dt
  | .configTimeout dt => dt
  | .pgInLost dt => dt
  | .pwrEnRetry dt => dt
  | .vcoreBrownOut dt _ => dt
  | .vcoreLow dt _ => dt
  | .wakeN dt => dt
  | .heldWake dt => dt
  | .runEntryStep dt => dt
  | .hibernateEntryStep dt => dt
  | .privNAssert dt => dt
  | .privNRelease dt => dt
  | .thermal dt _ _ => dt
  | .thermalRestart dt => dt
  | .spkOvercurrent dt _ => dt
  | .spkDcFault dt _ => dt
  | .hpCurrentLimit dt _ => dt
  | .pvddUnder dt _ => dt
  | .pvddOver dt _ => dt
  | .pvddRecovery dt _ => dt
  | .outSeqStep dt _ => dt
  | .cpRailLower dt _ => dt
  | .jackEdge dt _ _ => dt
  | .jackDebounceExpire dt _ => dt
  | .headsetMeasureDone dt _ _ _ => dt
  | .buttonPoll dt _ _ => dt
  | .frameBoundary dt _ _ => dt
  | .engineWorkStart dt => dt
  | .lateMuteStart dt => dt
  | .lateMuteEnd dt => dt
  | .engineMuteClear dt => dt
  | .paceWindow dt _ _ => dt
  | .commandStart dt => dt
  | .schedApply dt => dt
  | .cqRecordWrite dt _ => dt
  | .eventLost dt _ => dt
  | .routeFadeEnd dt _ => dt
  | .routeHeldApply dt _ => dt
  | .zeroFallback dt _ => dt
  | .mixFadeEnd dt => dt
  | .delayXfadeEnd dt _ => dt
  | .delayHeldApply dt _ => dt
  | .unbindFadeEnd dt _ => dt
  | .padSteppedStart dt _ => dt
  | .padChangeDone dt _ => dt
  | .mergeCalBlock dt _ _ _ => dt
  | .frontEndPowered dt _ => dt
  | .settleEnd dt _ => dt
  | .linkChange dt _ _ _ _ => dt
  | .ethFrameRx dt _ _ _ => dt
  | .igmpReportSend dt _ => dt
  | .txMediaPacket dt _ _ => dt
  | .hostFrameDepart dt _ => dt
  | .rxNoSignal dt _ => dt
  | .rxPathTimeout dt _ _ => dt
  | .rxStream dt _ => dt
  | .fjarordEventSend dt => dt
  | .ptpDelayReqSend dt _ => dt
  | .leaderAnnounceSync dt _ _ => dt
  | .announceTimeout dt _ => dt
  | .followerForget dt _ => dt
  | .trackerEval dt => dt
  | .stepApply dt => dt
  | .slewEnd dt => dt
  | .mpllRefLoss dt _ => dt
  | .mpllRefReturn dt _ _ _ => dt
  | .mpllPhaseLock dt _ => dt
  | .phaseSlewEnd dt _ => dt
  | .mpllLossOfLock dt _ => dt
  | .mpllRelockStep dt _ => dt
  | .mpllLock dt _ => dt
  | .rampSegmentEnd dt _ => dt
  | .pullRampEnd dt _ => dt
  | .rateChangeApply dt => dt
  | .ckoApply dt _ => dt
  | .tpFrame dt _ _ _ _ => dt
  | .tpClockLoss dt _ => dt
  | .asrcLock dt _ _ => dt
  | .asrcUnlock dt _ _ => dt
  | .listenSample dt _ _ => dt
  | .listenClockSwitch dt => dt
  | .vadBlock dt => dt
  | .phraseHop dt => dt
  | .candidateTimeout dt => dt
  | .hibernateDeferralExpire dt => dt
  | .historyWaitDone dt => dt
  | .modelCommitDone dt => dt
  | .gaugePassDue dt _ => dt
  | .urgentConversionStart dt _ => dt
  | .gaugeConversionEnd dt _ _ _ => dt
  | .gaugeCalStepDone dt _ _ _ => dt
  | .regionClearDone dt => dt
  | .bulkTransferDone dt => dt
  | .tw1AttemptStart dt _ _ _ => dt
  | .tw1StretchTimeout dt _ => dt
  | .tw1XferDone dt _ _ _ => dt
  | .rstNRelease dt _ => dt
  | .vaonValid dt _ => dt
  | .crystalRestart dt _ => dt
  | .vcoreRecovery dt _ => dt
  | .pwrEnRaise dt => dt
  | .resetUnitDone dt => dt
  | .headsetMeasurementStart dt _ => dt

/-- Every operand in the range of its row. -/
def Instr.wf : Instr → Bool
  | .nop _ c => c.wf
  | .caps _ c => c.wf
  | .abort _ c => c.wf
  | .resetUnit _ c => c.wf
  | .powerState _ c => c.wf
  | .eventMask _ c => c.wf
  | .queueConfig _ c => c.wf
  | .timeRead _ c => c.wf
  | .routeSet _ c => c.wf
  | .routeGet _ c => c.wf
  | .routeFadeCfg _ c => c.wf
  | .mixStage _ c => c.wf
  | .mixCommit _ c => c.wf
  | .busCfg _ c => c.wf
  | .limiterCfg _ c => c.wf
  | .meterCfg _ c => c.wf
  | .meterRead _ c => c.wf
  | .meterReset _ c => c.wf
  | .ainCfg _ c => c.wf
  | .ainPad _ c => c.wf
  | .chainCfg _ c => c.wf
  | .chainSync _ c => c.wf
  | .mergeStatus _ c => c.wf
  | .outCfg _ c => c.wf
  | .jackCfg _ c => c.wf
  | .firkinAlloc _ c => c.wf
  | .firkinFree _ c => c.wf
  | .delayCfg _ c => c.wf
  | .firkinRead _ c => c.wf
  | .firkinWrite _ c => c.wf
  | .netPortCfg _ c => c.wf
  | .txstreamCfg _ c => c.wf
  | .rxstreamCfg _ c => c.wf
  | .hostFrameSend _ c => c.wf
  | .ptpCfg _ c => c.wf
  | .ttSelect _ c => c.wf
  | .timePolicy _ c => c.wf
  | .pllCfg _ c => c.wf
  | .rampLoad _ c => c.wf
  | .ckoCfg _ c => c.wf
  | .tdmCfg _ c => c.wf
  | .asrcCfg _ c => c.wf
  | .listenCfg _ c => c.wf
  | .modelLoad _ c => c.wf
  | .historyRead _ c => c.wf
  | .gaugeSeq _ c => c.wf
  | .gaugeWindow _ c => c.wf
  | .gaugeCal _ c => c.wf
  | .gaugeUrgent _ c => c.wf
  | .gaugePlaus _ c => c.wf
  | .tw1Xfer _ c => c.wf
  | .portCfg _ c => c.wf
  | .sqTailDoorbell _ q v => decide (q < 32) && decide (v < 4294967296)
  | .cqHeadRelease _ port q v => regPort port && decide (q < 32) && decide (v < 4294967296)
  | .qStatOvfClear _ port q v => regPort port && decide (q < 32) && decide (v < 4294967296)
  | .irqStatClear _ port v => regPort port && decide (v < 4294967296)
  | .portErrClear _ port v => regPort port && decide (v < 4294967296)
  | .snapLatch _ port v => regPort port && decide (v < 4294967296)
  | .engPaceClear _ v => decide (v < 4294967296)
  | .engStatDiscClear _ v => decide (v < 4294967296)
  | .engLateClear _ v => decide (v < 4294967296)
  | .registerWrite _ port addr v => regPort port && decide (addr < 16777216) && decide (v < 4294967296)
  | .hostSlotRelease _ slot => decide (slot < 64)
  | .read _ addr _ => decide (addr < 16777216)
  | .fastRead _ addr _ => decide (addr < 16777216)
  | .quadRead _ addr _ => decide (addr < 16777216)
  | .write _ addr _ => decide (addr < 16777216)
  | .quadWrite _ addr _ => decide (addr < 16777216)
  | .readStatus _ _ => true
  | .readId _ _ => true
  | .qspiUnknownInstruction _ code => decide (code < 256)
  | .tw0Write _ _ _ => true
  | .tw0Read _ _ => true
  | .tw0ReadShadowExpire _ => true
  | .tw0WriteShadowExpire _ => true
  | .tw0StuckRelease _ => true
  | .tw0WakeMatch _ => true
  | .extest _ sc => sc.straps.wf
  | .samplePreload _ sc => sc.straps.wf
  | .idcode op => op.straps.wf
  | .clamp _ => true
  | .highz _ => true
  | .extestPulse _ sc => sc.straps.wf
  | .extestTrain _ sc => sc.straps.wf
  | .bypass op => decide (7 ≤ op.code) && decide (op.code < 256) && op.straps.wf
  | .tapReset op => op.straps.wf
  | .tmodeChange _ _ => true
  | .rstNAssert _ => true
  | .powerOnReset _ => true
  | .crystalStop _ => true
  | .pgInRise _ => true
  | .bootStep _ _ _ => true
  | .bootWindowPoll _ => true
  | .configPacketRun _ => true
  | .configTimeout _ => true
  | .pgInLost _ => true
  | .pwrEnRetry _ => true
  | .vcoreBrownOut _ _ => true
  | .vcoreLow _ _ => true
  | .wakeN _ => true
  | .heldWake _ => true
  | .runEntryStep _ => true
  | .hibernateEntryStep _ => true
  | .privNAssert _ => true
  | .privNRelease _ => true
  | .thermal _ _ _ => true
  | .thermalRestart _ => true
  | .spkOvercurrent _ k => decide (k < 2)
  | .spkDcFault _ k => decide (k < 2)
  | .hpCurrentLimit _ k => decide (k < 2)
  | .pvddUnder _ _ => true
  | .pvddOver _ _ => true
  | .pvddRecovery _ _ => true
  | .outSeqStep _ g => decide (g < 20)
  | .cpRailLower _ k => decide (k < 2)
  | .jackEdge _ j _ => decide (j < 4)
  | .jackDebounceExpire _ j => decide (j < 4)
  | .headsetMeasureDone _ j _ _ => decide (j < 4)
  | .buttonPoll _ j _ => decide (j < 4)
  | .frameBoundary _ inp _ => inp.wf
  | .engineWorkStart _ => true
  | .lateMuteStart _ => true
  | .lateMuteEnd _ => true
  | .engineMuteClear _ => true
  | .paceWindow _ _ _ => true
  | .commandStart _ => true
  | .schedApply _ => true
  | .cqRecordWrite _ q => decide (q < 32)
  | .eventLost _ port => (decide (1 ≤ port) && decide (port ≤ 3))
  | .routeFadeEnd _ dst => decide (dst < 1024)
  | .routeHeldApply _ dst => decide (dst < 1024)
  | .zeroFallback _ dst => decide (dst < 1024)
  | .mixFadeEnd _ => true
  | .delayXfadeEnd _ k => decide (k < 128)
  | .delayHeldApply _ k => decide (k < 128)
  | .unbindFadeEnd _ k => decide (k < 128)
  | .padSteppedStart _ ch => decide (ch < 32)
  | .padChangeDone _ ch => decide (ch < 32)
  | .mergeCalBlock _ ch pair _ => decide (ch < 32) && decide (pair < 2)
  | .frontEndPowered _ ch => decide (ch < 32)
  | .settleEnd _ ch => decide (ch < 32)
  | .linkChange _ p speed _ _ => decide (p < 2) && decide (speed < 7)
  | .ethFrameRx _ p _ _ => decide (p < 2)
  | .igmpReportSend _ p => decide (p < 2)
  | .txMediaPacket _ p st => decide (p < 2) && decide (st < 128)
  | .hostFrameDepart _ p => decide (p < 2)
  | .rxNoSignal _ st => decide (st < 128)
  | .rxPathTimeout _ st p => decide (st < 128) && decide (p < 2)
  | .rxStream _ st => decide (st < 128)
  | .fjarordEventSend _ => true
  | .ptpDelayReqSend _ t => decide (t < 2)
  | .leaderAnnounceSync _ t _ => decide (t < 2)
  | .announceTimeout _ t => decide (t < 2)
  | .followerForget _ t => decide (t < 2)
  | .trackerEval _ => true
  | .stepApply _ => true
  | .slewEnd _ => true
  | .mpllRefLoss _ m => decide (m < 2)
  | .mpllRefReturn _ m _ _ => decide (m < 2)
  | .mpllPhaseLock _ m => decide (m < 2)
  | .phaseSlewEnd _ m => decide (m < 2)
  | .mpllLossOfLock _ m => decide (m < 3)
  | .mpllRelockStep _ m => decide (m < 3)
  | .mpllLock _ m => decide (m < 3)
  | .rampSegmentEnd _ m => decide (m < 2)
  | .pullRampEnd _ m => decide (m < 2)
  | .rateChangeApply _ => true
  | .ckoApply _ k => decide (k < 8)
  | .tpFrame _ p slots _ mhz => decide (p < 4) && slots.all (fun x => decide (x < 4294967296)) && decide (mhz < 4294967296)
  | .tpClockLoss _ p => decide (p < 4)
  | .asrcLock _ ch ratio => decide (ch < 64) && decide (ratio < 4294967296)
  | .asrcUnlock _ ch ratio => decide (ch < 64) && decide (ratio < 4294967296)
  | .listenSample _ m0 m1 => [m0, m1].all fun m => decide (m.length = 64) && m.all fun x => decide (-8388608 ≤ x) && decide (x ≤ 8388607)
  | .listenClockSwitch _ => true
  | .vadBlock _ => true
  | .phraseHop _ => true
  | .candidateTimeout _ => true
  | .hibernateDeferralExpire _ => true
  | .historyWaitDone _ => true
  | .modelCommitDone _ => true
  | .gaugePassDue _ c => decide (c < 2)
  | .urgentConversionStart _ c => decide (c < 2)
  | .gaugeConversionEnd _ c _ _ => decide (c < 2)
  | .gaugeCalStepDone _ c _ _ => decide (c < 2)
  | .regionClearDone _ => true
  | .bulkTransferDone _ => true
  | .tw1AttemptStart _ _ _ _ => true
  | .tw1StretchTimeout _ _ => true
  | .tw1XferDone _ _ _ _ => true
  | .rstNRelease _ straps => straps.wf
  | .vaonValid _ straps => straps.wf
  | .crystalRestart _ straps => straps.wf
  | .vcoreRecovery _ _ => true
  | .pwrEnRaise _ => true
  | .resetUnitDone _ => true
  | .headsetMeasurementStart _ j => decide (j < 4)

end Sys2Proof
end

