-- ==== Sys2Proof/Machine/Ops.lean ====
section
/-!
DEFINITION. The named operations every unit uses: what is present on a variant, device time, records of the tables,
queues, completion records and events, flights, and the reset of the part.
-/
namespace Sys2Proof.Machine
open Sys2Proof

/-! ### Statuses (R48) -/

def stOk : Nat := 0x0000
def stLate : Nat := 0x0001
def stBadOpc : Nat := 0x8001
def stBadLen : Nat := 0x8002
def stBadParam : Nat := 0x8003
def stAbsent : Nat := 0x8004
def stNoResource : Nat := 0x8005
def stBusy : Nat := 0x8006
def stExpired : Nat := 0x8007
def stAborted : Nat := 0x8008
def stPriv : Nat := 0x8009
def stDenied : Nat := 0x800A
def stTimeout : Nat := 0x800B
def stState : Nat := 0x800C

/-- STATUS of EVENT_LOST (R56). -/
def stLost : Nat := 0x4001

/-- A refusal: status, ERR_OFS, ERR_AUX, ERR_DETAIL (R51). -/
structure Err where
  status : Nat
  ofs : Nat := 0xFFFF
  aux : Nat := 0
  detail : Nat := 0
deriving DecidableEq, Repr

/-- Its eight bytes of result data (R51). -/
def errData (e : Err) : List Byte := le 2 e.ofs ++ le 2 e.aux ++ le 4 e.detail

/-- BAD_PARAM at a byte offset with the offending value. -/
def badParam (ofs v : Nat) : Err := { status := stBadParam, ofs := ofs, detail := v % 2 ^ 32 }

/-- `e` if c holds. -/
def failIf (c : Bool) (e : Err) : Option Err := if c then some e else none

/-- The first refusal of a list of checks (R46: the first check that fails decides). -/
def firstErr : List (Option Err) → Option Err
  | [] => none
  | none :: r => firstErr r
  | some e :: _ => some e

/-! ### What is present (R1, R6, R33 to R35, R39) -/

/-- Base rates of 176.4 kHz and 192 kHz. -/
def State.highRate (s : State) : Bool := decide (96000 < s.tm.rate)

def State.isSmall (s : State) : Bool := decide (s.part.variant = .small)

/-- A capacity: half on LF9256-A. -/
def State.capV (s : State) (full : Nat) : Nat := if s.isSmall then full / 2 else full

/-- A capacity that halves at the high rates too, at base rate `rate`. -/
def State.capAt (s : State) (rate full : Nat) : Nat := if 96000 < rate then s.capV full / 2 else s.capV full

def State.capR (s : State) (full : Nat) : Nat := s.capAt s.tm.rate full

def State.nAin (s : State) : Nat := s.capV 32
def State.nLout (s : State) : Nat := s.capV 16
def State.nStream (s : State) : Nat := s.capV 128
def State.nBus (s : State) : Nat := s.capV 128
def State.nNch (s : State) : Nat := s.capR 512
def State.nMix (s : State) : Nat := s.capR 4096
def State.nDelay (s : State) : Nat := s.capR 128
/-- ASRC channels of one direction. -/
def State.nAsrc (s : State) : Nat := if s.highRate then 16 else 32
def State.nPort (s : State) : Nat := if s.isSmall then 1 else 2
def State.nHp (s : State) : Nat := if s.isSmall then 1 else 2

/-- SILENCE (R33). -/
def silence : Nat := 0x3FF

/-- A source ID that is present at base rate `rate` (R33, R35). -/
def State.srcAt (s : State) (rate id : Nat) : Bool :=
  if id < 0x200 then decide (id < s.capAt rate 512)
  else if id < 0x220 then decide (id - 0x200 < s.nAin)
  else if id < 0x260 then true
  else if id < 0x2E0 then decide (id - 0x260 < s.nBus)
  else if id < 0x2E6 then true
  else if id < 0x300 then false
  else if id < 0x380 then decide (id - 0x300 < s.capAt rate 128)
  else decide (id = silence)

def State.srcOk (s : State) (id : Nat) : Bool := s.srcAt s.tm.rate id

/-- A destination ID that is present at base rate `rate` (R34, R35). -/
def State.dstAt (s : State) (rate id : Nat) : Bool :=
  if id < 0x200 then decide (id < s.capAt rate 512)
  else if id < 0x210 then decide (id - 0x200 < s.nLout)
  else if id < 0x214 then decide (id - 0x210 < 2 * s.nHp)
  else if id < 0x216 then true
  else if id < 0x220 then false
  else if id < 0x260 then true
  else if id < 0x300 then false
  else if id < 0x380 then decide (id - 0x300 < s.capAt rate 128)
  else false

def State.dstOk (s : State) (id : Nat) : Bool := s.dstAt s.tm.rate id

/-- Every present destination, ascending. -/
def State.allDst (s : State) : List Nat := (List.range 0x380).filter s.dstOk

/-- Every present source, ascending. -/
def State.allSrc (s : State) : List Nat := (List.range 0x400).filter s.srcOk

/-! ### Device time (R45, R350 to R352) -/

/-- One second of device time in units of 2^-16 ns. -/
def secT : Nat := 65536000000000

/-- Where device time wraps: 2^48 seconds (R82). -/
def wrapT : Nat := 2 ^ 48 * secT

/-- Device time in the nanosecond form of R45. -/
def nsOf (t : Nat) : Nat := t / 65536 % 2 ^ 64

/-- Now, in that form. -/
def State.nowNs (s : State) : Nat := nsOf s.tm.devT

/-- Low 32 bits of the frame counter. -/
def State.frame32 (s : State) : Nat := s.tm.frame % 2 ^ 32

/-- a − b in device time ns, read as a signed 64-bit difference (R70). -/
def nsDiff (a b : Nat) : Int := sgn 64 (a + (2 ^ 64 - b % 2 ^ 64))

/-- Lateness in µs, rounded up, saturating (R20, R51, R70). -/
def lateUs (late : Int) : Nat := min 0xFFFFFFFF ((late.toNat + 999) / 1000)

/-- Nominal frame period in units of 2^-16 ns, rounded. -/
def State.periodT (s : State) : Nat := (secT + s.tm.rate / 2) / s.tm.rate

/-- The part is powered and held by no reset cause (R566). -/
def State.alive (s : State) : Bool := decide (s.pwr.boot ≠ .off)

/-- Frames run: Idle or Run (R351, R554). -/
def State.framing (s : State) : Bool :=
  s.alive && (decide (s.pwr.pstate = .idle) || decide (s.pwr.pstate = .run))

def State.inListen (s : State) : Bool := decide (s.pwr.pstate = .listen)
def State.inRun (s : State) : Bool := decide (s.pwr.pstate = .run)

/-- PRIV_N is asserted (R458); with PRIV_SCOPE it mutes the AIN channels too (R459). -/
def State.priv (s : State) : Bool := !s.pins.privN
def State.ainMuted (s : State) : Bool := s.priv && s.pwr.straps.privScope

/-- A fresh argument for an opaque value: the present count, and the state with the count moved on (log 11). -/
def State.bump (s : State) : State := { s with freeCtr := s.freeCtr + 1 }

/-! ### Records of the tables -/

/-- Tracker t. -/
def State.tt (s : State) (t : Nat) : Tracker := if t = 0 then s.tt0 else s.tt1

def State.setTt (s : State) (t : Nat) (v : Tracker) : State :=
  if t = 0 then { s with tt0 := v } else { s with tt1 := v }

/-- Port of a tracker: R378's reset is P0 for TT0, P1 for TT1, P0 on LF9256-A. -/
def State.ttPort (s : State) (t : Nat) : Nat := (s.tt t).port.getD (if t = 0 || s.isSmall then 0 else 1)

/-- Converter c of the Gauge: 0 GA, 1 GB. -/
def State.gg (s : State) (c : Nat) : Gauge := if c = 0 then s.ga else s.gb
def State.setGg (s : State) (c : Nat) (v : Gauge) : State :=
  if c = 0 then { s with ga := v } else { s with gb := v }

def State.route (s : State) (d : Nat) : Route := tget {} s.routes d
def State.setRoute (s : State) (d : Nat) (v : Route) : State := { s with routes := tset d v s.routes }
def State.meter (s : State) (k : Nat) : Meter := tget {} s.meters k
def State.setMeter (s : State) (k : Nat) (v : Meter) : State := { s with meters := tset k v s.meters }
def State.mixE (s : State) (k : Nat) : MixE := tget {} s.mix k
def State.setMixE (s : State) (k : Nat) (v : MixE) : State := { s with mix := tset k v s.mix }
def State.bus (s : State) (k : Nat) : Bus := tget {} s.buses k
def State.setBus (s : State) (k : Nat) (v : Bus) : State := { s with buses := tset k v s.buses }
def State.line (s : State) (k : Nat) : Line := tget {} s.lines k
def State.setLine (s : State) (k : Nat) (v : Line) : State := { s with lines := tset k v s.lines }
def State.out (s : State) (k : Nat) : Out := tget {} s.outs k
def State.setOut (s : State) (k : Nat) (v : Out) : State := { s with outs := tset k v s.outs }
def State.grp (s : State) (k : Nat) : Grp := tget {} s.grps k
def State.setGrp (s : State) (k : Nat) (v : Grp) : State := { s with grps := tset k v s.grps }
def State.jack (s : State) (k : Nat) : Jack := tget {} s.jacks k
def State.setJack (s : State) (k : Nat) (v : Jack) : State := { s with jacks := tset k v s.jacks }
def State.mb (s : State) (k : Nat) : MicB := tget {} s.micb k
def State.setMb (s : State) (k : Nat) (v : MicB) : State := { s with micb := tset k v s.micb }
def State.ain (s : State) (k : Nat) : Ain := tget {} s.ains k
def State.setAin (s : State) (k : Nat) (v : Ain) : State := { s with ains := tset k v s.ains }
def State.netP (s : State) (k : Nat) : Net := tget {} s.net k
def State.setNet (s : State) (k : Nat) (v : Net) : State := { s with net := tset k v s.net }
def State.txs (s : State) (k : Nat) : Tx := tget {} s.tx k
def State.setTx (s : State) (k : Nat) (v : Tx) : State := { s with tx := tset k v s.tx }
def State.rxs (s : State) (k : Nat) : Rx := tget {} s.rx k
def State.setRx (s : State) (k : Nat) (v : Rx) : State := { s with rx := tset k v s.rx }
def State.pll (s : State) (k : Nat) : Pll := tget {} s.plls k
def State.setPll (s : State) (k : Nat) (v : Pll) : State := { s with plls := tset k v s.plls }
def State.cko (s : State) (k : Nat) : Cko := tget {} s.ckos k
def State.setCko (s : State) (k : Nat) (v : Cko) : State := { s with ckos := tset k v s.ckos }
def State.tp (s : State) (k : Nat) : Tp := tget {} s.tps k
def State.setTp (s : State) (k : Nat) (v : Tp) : State := { s with tps := tset k v s.tps }
def State.asr (s : State) (k : Nat) : Asrc := tget {} s.asrc k
def State.setAsr (s : State) (k : Nat) (v : Asrc) : State := { s with asrc := tset k v s.asrc }
def State.win (s : State) (k : Nat) : GWin := tget {} s.gw k
def State.setWin (s : State) (k : Nat) (v : GWin) : State := { s with gw := tset k v s.gw }
def State.calS (s : State) (k : Nat) : GCal := tget {} s.cal k
def State.setCal (s : State) (k : Nat) (v : GCal) : State := { s with cal := tset k v s.cal }

/-- Fold of a step over 0 .. n - 1. -/
def forUpto (n : Nat) (f : Nat → State → State) (s : State) : State := (List.range n).foldl (fun a k => f k a) s

/-- Fold of a step over a list of numbers. -/
def forEach {α : Type} (l : List α) (f : α → State → State) (s : State) : State := l.foldl (fun a k => f k a) s

/-! ### Queues (R58 to R61) -/

/-- Binding and class of a queue after reset (R60). -/
def queueReset (q : Nat) : Queue :=
  if q = 0 then { port := 1, cls := .urgent }
  else if q = 1 then { port := 1, cls := .event }
  else if q ≤ 15 then { port := 1, cls := .normal }
  else if q ≤ 19 then { port := 1, cls := .bulk }
  else if q = 20 then { port := 2, cls := .urgent }
  else if q = 21 then { port := 2, cls := .event }
  else if q ≤ 27 then { port := 2, cls := .normal }
  else if q = 28 then { port := 3, cls := .urgent }
  else if q = 29 then { port := 3, cls := .event }
  else { port := 3, cls := .normal }

def State.queue (s : State) (q : Nat) : Queue := tget (queueReset q) s.queues q
def State.setQueue (s : State) (q : Nat) (v : Queue) : State := { s with queues := tset q v s.queues }

/-- Code of a class (R92). -/
def QClass.code : QClass → Nat
  | .urgent => 0
  | .normal => 1
  | .bulk => 2
  | .event => 3

/-- Class of a code. -/
def QClass.ofCode (n : Nat) : QClass :=
  if n = 0 then .urgent else if n = 1 then .normal else if n = 2 then .bulk else .event

/-- A flight that has completed. -/
def Flight.isEnded (f : Flight) : Bool :=
  match f.phase with
  | .ended _ _ _ => true
  | _ => false

/-- Record of a completed flight; none with QUIET and OK, and none for a configuration packet (R44, R570). -/
def flightRec (f : Flight) : Option Rec :=
  match f.phase with
  | .ended st done data =>
    if (st = stOk ∧ bit f.pkt.flags 3) ∨ f.pkt.config then none
    else some { tag := f.pkt.tag, status := st, queue := f.pkt.queue, doneNs := done, data := data,
                origin := f.pkt.origin }
  | _ => none

/-- Commands in flight, which have started and not completed (R62). -/
def State.places (s : State) : Nat := (s.flight.filter fun f => !f.isEnded).length

/-- Commands of queue q in flight that have not completed. -/
def State.inFlight (s : State) (q : Nat) : Nat := (s.flight.filter fun f => decide (f.pkt.queue = q) && !f.isEnded).length

/-- Commands of queue q that have completed and whose record is held back (R58, R66). -/
def State.unrecorded (s : State) (q : Nat) : Nat :=
  (s.flight.filter fun f => decide (f.pkt.queue = q) && f.isEnded && (flightRec f).isSome).length

/-- Commands a queue holds (R58): not started, in flight, or waiting for their record to be written. -/
def State.level (s : State) (q : Nat) : Nat :=
  let qu := s.queue q
  if qu.cls = .event then 0 else qu.unstarted.length + s.inFlight q + s.unrecorded q + qu.waitRecs.length

/-- Which TW0 window serves queue q: the number of lower queues bound to TW0 (R524). -/
def State.twWindow (s : State) (q : Nat) : Nat :=
  ((List.range q).filter fun k => decide ((s.queue k).port = 3)).length

/-- Bytes of a queue's completion window (R520); none for Fjarord, an unbound queue, or a fifth TW0 queue (R524). -/
def State.winSize (s : State) (q : Nat) : Nat :=
  let p := (s.queue q).port
  if p = 1 then 4096 else if p = 3 then (if s.twWindow q < 4 then 1024 else 0) else 0

/-- The event queue of a port. -/
def State.eventQueue (s : State) (port : Nat) : Option Nat :=
  firstFrom (fun q => decide ((s.queue q).port = port) && decide ((s.queue q).cls = .event)) 0 32

/-! ### Completion records and events (R50 to R57, R520) -/

/-- The bytes of a record (R50). -/
def recBytes (r : Rec) : List Byte :=
  le 2 r.tag ++ le 2 r.status ++ le 2 r.data.length ++ le 1 r.queue ++ le 1 0 ++ le 8 r.doneNs ++ pad4 r.data

/-- Bytes placed in a ring of `size` bytes at `base` from count c on (R519, R520). -/
def ringPut (m : Mem) (base size c : Nat) : List Byte → Mem
  | [] => m
  | b :: bs => ringPut (mwrite m (base + c % size) b) base size (c + 1) bs

/-- A record fits into its completion window now (R520). -/
def State.recFits (s : State) (q : Nat) (r : Rec) : Bool :=
  let qu := s.queue q
  decide ((recBytes r).length ≤ s.winSize q - (qu.cqTail + 65536 - qu.cqHead) % 65536)

/-- A record written at the tail of its completion window; CQ_TAIL moves past it (R520). -/
def State.putRec (s : State) (q : Nat) (r : Rec) : State :=
  let qu := s.queue q
  let bs := recBytes r
  let tail := (qu.cqTail + bs.length) % 65536
  let s1 := if qu.port = 1 then { s with mem := ringPut s.mem (0x30000 + q * 0x1000) 4096 qu.cqTail bs }
            else { s with tw0 := { s.tw0 with cmem := ringPut s.tw0.cmem (s.twWindow q * 0x400) 1024 qu.cqTail bs } }
  s1.setQueue q { qu with cqTail := tail, recEnds := qu.recEnds ++ [tail],
                          lostEnds := if r.status = stLost then qu.lostEnds ++ [tail] else qu.lostEnds }

/-- A record handed to its queue: written if none waits and it fits, else it waits (R520); a Fjarord record waits for
CQ_RECORD_WRITE, which sends it (R541). -/
def State.postRec (s : State) (q : Nat) (r : Rec) : State :=
  let qu := s.queue q
  if qu.waitRecs.isEmpty && s.recFits q r then s.putRec q r
  else s.setQueue q { qu with waitRecs := qu.waitRecs ++ [r] }

/-- An EVENT_LOST of queue q is unread or waits. -/
def State.lostHeld (s : State) (q : Nat) : Bool :=
  !(s.queue q).lostEnds.isEmpty || (s.queue q).waitRecs.any fun r => decide (r.status = stLost)

/-- Records of an event queue, unread or waiting, that stand in the 63 places not reserved for EVENT_LOST (R57): all of them
but one EVENT_LOST, which has the reserved place. -/
def State.evHeld (s : State) (q : Nat) : Nat :=
  (s.queue q).recEnds.length + (s.queue q).waitRecs.length - b2n (s.lostHeld q)

def State.evMask (s : State) (port : Nat) : List Nat :=
  if port = 1 then s.evMask1 else if port = 2 then s.evMask2 else s.evMask3

def State.evDrop (s : State) (port : Nat) : Nat :=
  if port = 1 then s.evDrop1 else if port = 2 then s.evDrop2 else s.evDrop3

def State.setDrop (s : State) (port n : Nat) : State :=
  if port = 1 then { s with evDrop1 := n } else if port = 2 then { s with evDrop2 := n } else { s with evDrop3 := n }

/-- EVENT_LOST is written with the count when a record is free again (R57). -/
def State.flushLost (s : State) (port : Nat) : State :=
  match s.eventQueue port with
  | none => s
  | some q =>
    if 0 < s.evDrop port ∧ s.evHeld q < 63 then
      (s.postRec q { tag := 0xFFFF, status := stLost, queue := q, doneNs := s.nowNs,
                     data := le 2 (s.evDrop port) ++ le 2 0 }).setDrop port 0
    else s

/-- An event on one port: masked off, dropped and counted, or placed (R54, R57, R61). -/
def State.raiseOn (s : State) (port code : Nat) (data : List Byte) (done : Nat) : State :=
  if (s.evMask port).contains code then s
  else
    let s1 := s.flushLost port
    match s1.eventQueue port with
    | none => s1.setDrop port (min 0xFFFF (s1.evDrop port + 1))
    | some q =>
      if s1.evHeld q < 63 then
        s1.postRec q { tag := 0xFFFF, status := 0x4000 + code, queue := q, doneNs := done, data := data }
      else s1.setDrop port (min 0xFFFF (s1.evDrop port + 1))

/-- An event on every port (R54); `code` is the low 12 bits of its STATUS. -/
def State.raiseAt (s : State) (code : Nat) (data : List Byte) (done : Nat) : State :=
  if s.alive then ((s.raiseOn 1 code data done).raiseOn 2 code data done).raiseOn 3 code data done else s

def State.raise (s : State) (code : Nat) (data : List Byte) : State := s.raiseAt code data s.nowNs

/-- An event with the DONE given, limited to one per t ns and scope (R596). -/
def State.raiseLimAt (s : State) (code scope t : Nat) (data : List Byte) (done : Nat) : State :=
  let key := code * 65536 + scope
  match tget? s.evLast key with
  | some last =>
    if done < last + t then s
    else ({ s with evLast := tset key done s.evLast }).raiseAt code data done
  | none => ({ s with evLast := tset key done s.evLast }).raiseAt code data done

def State.raiseLim (s : State) (code scope t : Nat) (data : List Byte) : State := s.raiseLimAt code scope t data s.nowNs

/-! ### Flights (R62 to R66) -/

/-- A flight by its number. -/
def State.flightOf (s : State) (id : Nat) : Option Flight := s.flight.find? fun f => decide (f.id = id)

/-- A command in flight applied after its frame (R51). -/
def State.flightLate (s : State) (id : Nat) : Bool :=
  match s.flightOf id with
  | some f => f.info.isSome
  | none => false

/-- Flights changed by f where the number is id. -/
def modFlight (id : Nat) (f : Flight → Flight) (l : List Flight) : List Flight :=
  l.map fun x => if x.id = id then f x else x

/-- A command in flight completes with a status other than OK or LATE by rule; its record is written when the step
ends, in start order (R66). -/
def State.finishErr (s : State) (id : Nat) (e : Err) (done : Nat) : State :=
  { s with flight := modFlight id (fun f => { f with phase := .ended e.status done (errData e) }) s.flight }

/-- A command in flight completes with OK, or with LATE and its INFO when it was late (R51). -/
def State.finishOk (s : State) (id : Nat) (data : List Byte) (done : Nat) : State :=
  { s with flight := modFlight id (fun f =>
      match f.info with
      | none => { f with phase := .ended stOk done data }
      | some i => { f with phase := .ended stLate done (le 4 i ++ data) }) s.flight }

/-- A command in flight ends with ABORTED (R74). -/
def State.finishAborted (s : State) (id detail done : Nat) : State :=
  s.finishErr id { status := stAborted, detail := detail } done

/-- What a completed flight leaves: its record, or for a configuration packet its status (R570). -/
def settleFlight (s : State) (f : Flight) : State :=
  let s1 := match flightRec f with
    | some r => s.postRec f.pkt.queue r
    | none => s
  match f.phase with
  | .ended st _ _ =>
    if f.pkt.config then { s1 with pwr := { s1.pwr with cfgJob := none, cfgStatus := st } } else s1
  | _ => s1

/-- A completed flight's record waits for the frame's work to begin: it completed at the boundary of that frame, where
earlier commands may still complete (R66, log 42). -/
def State.heldBack (s : State) (f : Flight) : Bool :=
  match f.phase with
  | .ended _ done _ => s.eng.pendSet.isSome && decide (done = s.eng.pendB)
  | _ => false

/-- An ABORT's record waits for its targets that have not ended (R74). -/
def State.awaits (s : State) (f : Flight) : Bool :=
  s.flight.any fun g => f.after.contains g.id && !g.isEnded

/-- The flight's record can be written: it has completed and waits for no other, and neither it nor one that started before it is
held back, for the records of one frame go in start order (R66). -/
def State.settled (s : State) (f : Flight) : Bool :=
  f.isEnded && !s.heldBack f && !s.awaits f && !(s.flight.any fun g => decide (g.id < f.id) && s.heldBack g)

/-- Records of the flights `which` names, in the order they started. -/
def State.flushOf (s : State) (which : Flight → Bool) : State :=
  (s.flight.filter which).foldl settleFlight { s with flight := s.flight.filter fun f => !which f }

/-- The records of the flights that have completed, in the order they started (R66). -/
def State.flush (s : State) : State := s.flushOf s.settled

/-- A new flight for a started packet, and its number. -/
def State.takeOff (s : State) (p : Packet) (port : Nat) (ph : Phase) : State :=
  { s with
    seq := s.seq + 1,
    flight := s.flight ++ [{ id := s.seq + 1, pkt := p, port := port, startNs := s.nowNs, startClk := s.clk,
                             phase := ph }] }

/-- The port of a command in flight (R84), QSPI for a configuration packet. -/
def State.flightPort (s : State) (id : Nat) : Nat :=
  match s.flightOf id with
  | some f => f.port
  | none => 1

def State.flightTag (s : State) (id : Nat) : Nat :=
  match s.flightOf id with
  | some f => f.pkt.tag
  | none => 0

/-! ### The Gauge, as other units meet it -/

/-- A trigger of TRIG code k (R494): each running converter in Event mode that names it gets a pass due (R480). -/
def gaugeTrig (k : Nat) (s : State) : State :=
  forEach [0, 1] (fun c a =>
    let g := a.gg c
    if a.framing ∧ g.running ∧ g.mode = 3 ∧ g.trig = k then a.setGg c { g with trigPend := g.trigPend + 1 } else a) s

/-- Converter c is in no conversion: nothing, or a settle that may be cut (R482). -/
def State.gaugeFree (s : State) (c : Nat) : Bool :=
  let g := s.gg c
  (match g.cur with
    | some v => decide (s.clk < v.at0 + ((g.seq[v.ent]?).map (·.settle)).getD 0 * 1000)
    | none => true) &&
  !(g.urg.any fun u => u.started.isSome && u.cal.isNone)

/-- When a calibration's first conversion begins, where one holds the converter (R482, R492). -/
def Gauge.calFrom (g : Gauge) : Option (Nat × GUrg) :=
  match g.urg.head? with
  | some u => match u.cal, u.started with
    | some _, some st => some (st + 100000 + u.extra, u)
    | _, _ => none
  | none => none

/-- A step of device time to `new` skips the grid points it passes over (R481). -/
def gaugeSkip (old new : Nat) (s : State) : State :=
  forEach [0, 1] (fun c a =>
    let g := a.gg c
    if g.mode = 2 ∧ old < g.grid ∧ g.grid < new then
      a.setGg c { g with grid := g.grid + ceilDiv (new - g.grid) (max 1 (g.period * 1000)) * (g.period * 1000) }
    else a) s

/-! ### Time passes -/

/-- t units of 2^-16 ns of real time at a frequency of ppb. -/
def scalePpb (t : Nat) (ppb : Int) : Int := (t : Int) * (1000000000 + ppb) / 1000000000

/-- Frequency a tracker's estimate runs at: the servo's, or the held average (R357, R362). -/
def Tracker.runPpb (k : Tracker) : Int :=
  if k.st = .holdover ∨ k.st = .faulty then k.avgPpb else k.ppb

/-- A tracker's estimate after t units. -/
def Tracker.advance (k : Tracker) (t : Nat) : Tracker :=
  match k.est with
  | none => k
  | some e => { k with est := some (e + scalePpb t k.runPpb) }

/-- Frequency device time runs at, apart from a slew (R352). -/
def State.devPpb (s : State) : Int :=
  match s.tm.active with
  | some t => (s.tt t).runPpb
  | none => s.tm.holdPpb

/-- Device time and slew residual after dt ns of real time (R352, R368): r shrinks toward 0 at SLEW_MAX. -/
def Tm.advance (m : Tm) (ppb : Int) (dt : Nat) : Tm :=
  let t := dt * 65536
  let most : Int := (t : Int) * m.slewMax / 1000000
  let d : Int := if m.r < 0 then -(min most (-m.r)) else min most m.r
  { m with devT := (m.devT + scalePpb t ppb + d).toNat, r := m.r - d }

/-- dt ns pass (log 2): the elapsed count always, device time and the trackers' estimates while the part runs. -/
def State.pass (s : State) (dt : Nat) : State :=
  if s.alive then
    { s with clk := s.clk + dt, tm := s.tm.advance s.devPpb dt, tt0 := s.tt0.advance (dt * 65536),
             tt1 := s.tt1.advance (dt * 65536) }
  else { s with clk := s.clk + dt }

/-- A tracker's estimate where device time wraps. -/
def Tracker.wrap (k : Tracker) : Tracker := { k with est := k.est.map (· - wrapT) }

/-- Device time that has passed its largest value wraps to 0 and raises TIME_WRAP (R82); the estimates wrap with it. -/
def State.wrapTime (s : State) : State :=
  if s.tm.devT < wrapT then s
  else ({ s with tm := { s.tm with devT := s.tm.devT % wrapT }, tt0 := s.tt0.wrap, tt1 := s.tt1.wrap }).raise 0x020 []

/-- Time before a command's own effect. -/
def State.advance (s : State) (dt : Nat) : State := (s.pass dt).wrapTime

/-- Every meaning: the operands are in range, dt passes, the effect comes about, and the records of the commands that
completed are written. -/
def run (i : Instr) (s : State) (f : State → State) : Host.Outcome State Fault Refusal :=
  if i.wf then .next ((f (s.advance i.dt)).flush) else .refused .illFormed

/-! ### Reset of the part (R562, R563) -/

/-- The part as a full reset leaves it: every setting lost; what is outside the part, the model's own counters and the
queue of waiting commands stay. -/
def State.cold (s : State) : State :=
  { pending := s.pending, clk := s.clk, freeCtr := s.freeCtr, part := s.part, pins := s.pins, env := s.env,
    jtag := s.jtag, ring := 0 }

/-- The reset a cause of R563 makes: a full one loses what VAON holds, a short one keeps TW0FL, the trim shadow and the straps. The cause
holds, so nothing runs (boot off) and every output group is off with its clamp closed. The part is Off while VAON is absent
(R554). -/
def State.resetPart (s : State) (cause : Nat) (full pwrEn : Bool) : State :=
  let c := s.cold
  { c with
    pc := { c.pc with tw0Fl := if full then 1 else s.pc.tw0Fl },
    pwr := { c.pwr with
      pstate := if s.pwr.vaonLow then .off else c.pwr.pstate, trims := s.pwr.trims && !full,
      pwrEn := pwrEn, pwrEnAt := if pwrEn = s.pwr.pwrEn then s.pwr.pwrEnAt else s.clk, cause := cause, fullBoot := full,
      straps := if full then {} else s.pwr.straps, vaonLow := s.pwr.vaonLow, crystalStopped := s.pwr.crystalStopped,
      brownOut := s.pwr.brownOut, tripped := s.pwr.tripped } }

end Sys2Proof.Machine
end

