-- ==== Sys2Proof/Machine/Operands.lean ====
section
/-!
DEFINITION. The fields of a packet by byte offset (R43), and the checks of R46 that every opcode shares.
-/
namespace Sys2Proof.Machine
open Sys2Proof

/-- Little-endian field of n bytes at packet offset o (16 or more). -/
def Packet.u (p : Packet) (o n : Nat) : Nat := fieldLe p.params (o - 16) n

def Packet.u8 (p : Packet) (o : Nat) : Nat := p.u o 1
def Packet.u16 (p : Packet) (o : Nat) : Nat := p.u o 2
def Packet.u32 (p : Packet) (o : Nat) : Nat := p.u o 4
def Packet.s8 (p : Packet) (o : Nat) : Int := sgn 8 (p.u8 o)
def Packet.s16 (p : Packet) (o : Nat) : Int := sgn 16 (p.u16 o)
def Packet.s32 (p : Packet) (o : Nat) : Int := sgn 32 (p.u32 o)

/-- Field of n bytes in network byte order. -/
def Packet.ube (p : Packet) (o n : Nat) : Nat := fieldBe p.params (o - 16) n

/-- Bytes of a packet. -/
def Packet.bytes (p : Packet) (o n : Nat) : List Byte := slice p.params (o - 16) n

/-- The flags of R44. -/
def Packet.sched (p : Packet) : Bool := bit p.flags 0
def Packet.notAfter (p : Packet) : Bool := bit p.flags 1
def Packet.fence (p : Packet) : Bool := bit p.flags 2
def Packet.quiet (p : Packet) : Bool := bit p.flags 3

/-- BAD_PARAM at a field unless a condition holds. -/
def need (ok : Bool) (o v : Nat) : Option Err := failIf (!ok) (badParam o v)

/-- BAD_PARAM at a field whose signed value is v; ERR_DETAIL holds it as a 32-bit number (log 43). -/
def badInt (o : Nat) (v : Int) : Err := badParam o (v % 2 ^ 32).toNat

/-- A field of n bytes within lo to hi. -/
def Packet.within (p : Packet) (o n lo hi : Nat) : Option Err :=
  need (decide (lo ≤ p.u o n) && decide (p.u o n ≤ hi)) o (p.u o n)

/-- A field of n bytes within lo to hi where the write mask selects it (R598). -/
def Packet.withinIf (p : Packet) (sel : Bool) (o n lo hi : Nat) : Option Err :=
  if sel then p.within o n lo hi else none

/-- A signed field of n bytes within lo to hi where selected. -/
def Packet.swithinIf (p : Packet) (sel : Bool) (o n : Nat) (lo hi : Int) : Option Err :=
  let v := sgn (8 * n) (p.u o n)
  if sel then failIf (!(decide (lo ≤ v) && decide (v ≤ hi))) (badInt o v) else none

/-- Bits of a field that must be 0 whatever the masks (R9). -/
def Packet.clr (p : Packet) (o n m : Nat) : Option Err := need (decide (p.u o n &&& m = 0)) o (p.u o n)

/-- n reserved bytes. -/
def Packet.zero (p : Packet) (o n : Nat) : Option Err := need (decide (p.u o n = 0)) o (p.u o n)

/-- Check 6 on the header: TAG, rsvd FLAGS bits, NOTAFTER without SCHED, byte 7 (R44, R46). -/
def Packet.headerErr (p : Packet) : Option Err :=
  firstErr [need (decide (p.tag ≠ 0xFFFF)) 2 p.tag, need (decide (p.flags < 16)) 6 p.flags,
            failIf (p.notAfter && !p.sched) (badParam 6 p.flags), need (decide (p.rsvd = 0)) 7 p.rsvd]

/-- The issuing port holds the supervisory right (R84): QSPI always, TW0 and Fjarord as PORT_CFG sets. -/
def State.hasRight (s : State) (port : Nat) : Bool :=
  if port = 1 then true else if port = 3 then bit s.pc.rightsTw0 0 else bit s.pc.rightsFj 0

/-- DENIED without the supervisory right (R46 check 4). -/
def State.needRight (s : State) (port : Nat) : Option Err := failIf (!s.hasRight port) { status := stDenied }

/-- STATE with a detail. -/
def stateIf (c : Bool) (d : Nat) : Option Err := failIf c { status := stState, detail := d }

/-- ABSENT at the field that names the absent unit (R4, R51). -/
def absentIf (c : Bool) (o d : Nat) : Option Err := failIf c { status := stAbsent, ofs := o, detail := d }

/-- A refusal with a status and a detail. -/
def errIf (c : Bool) (st d : Nat) : Option Err := failIf c { status := st, detail := d % 2 ^ 32 }

end Sys2Proof.Machine
end

