-- ==== Sys2Proof/Machine/Flags.lean ====
section
/-!
DEFINITION. The status words and registers the part computes from its state (R22, R376, R513 to R518, R590).
-/
namespace Sys2Proof.Machine
open Sys2Proof

/-- IDCODE by variant (R590). -/
def idcodeOf (v : Variant) : Nat :=
  match v with
  | .a => 0x19512A3D
  | .n => 0x19513A3D
  | .small => 0x19256A3D

/-- PRIV_LED sinks: an open-drain output that follows PRIV_N in every power state but Off (R458, R460, R462, R593). -/
def State.privLed (s : State) : Bool := !s.pins.privN && !s.pwr.vaonLow

/-- The last step of R559 made by an entry to Hibernate that has started; 0 otherwise. -/
def State.hibStep (s : State) : Nat :=
  match s.pwr.trans with
  | some t => if t.target = .hibernate then t.step else 0
  | none => 0

/-- PSTATE code (R514, R554). -/
def PState.code : PState → Nat
  | .off => 0
  | .hibernate => 1
  | .listen => 2
  | .idle => 3
  | .run => 4

/-- DEV_STAT (R514). -/
def State.devStat (s : State) : Nat :=
  flags [s.pwr.ready, s.pwr.bootErr, s.pwr.patched, false] + s.pwr.pstate.code * 16 +
  b2n (!s.pins.privN) * 128

/-- Code of a tracker's state (R358). -/
def TtSt.code : TtSt → Nat
  | .disabled => 0
  | .listening => 1
  | .acquiring => 2
  | .locked => 3
  | .holdover => 4
  | .leader => 5
  | .faulty => 6

/-- K of R369. -/
def State.stepK (s : State) : Nat := (2 * 25 * s.tm.rate + 10000) / 20000

/-- STEP_PEND: a step lies between B(d) and B(s) (R376). -/
def State.stepPend (s : State) : Bool :=
  match s.tm.step with
  | some x => decide (x.left ≤ s.stepK)
  | none => false

/-- TSTAT (R376). -/
def State.tstat (s : State) : Nat :=
  (match s.tm.active with
    | some t => (s.tt t).st.code
    | none => 0) +
  b2n (decide (s.tm.r ≠ 0)) * 8 + b2n (decide (s.tm.b ≠ 0)) * 16 + b2n s.stepPend * 32 +
  b2n s.tm.aligned * 64

/-- TT_ACTIVE (R93, R383). -/
def State.ttActive (s : State) : Nat := s.tm.active.getD 0xFF

/-- Register copies of a port: 1 QSPI, 3 TW0. -/
def State.pr (s : State) (port : Nat) : PortRegs := if port = 1 then s.pr1 else s.pr3
def State.setPr (s : State) (port : Nat) (v : PortRegs) : State :=
  if port = 1 then { s with pr1 := v } else { s with pr3 := v }

/-- The queues bound to a port. -/
def State.queuesOf (s : State) (port : Nat) : List Nat :=
  (List.range 32).filter fun q => decide ((s.queue q).port = port)

/-- A record is unread or waits in queue q. -/
def State.hasRec (s : State) (q : Nat) : Bool :=
  !(s.queue q).recEnds.isEmpty || !(s.queue q).waitRecs.isEmpty

/-- IRQ_STAT of a port (R515). -/
def State.irqStat (s : State) (port : Nat) : Nat :=
  let qs := s.queuesOf port
  flags [
    qs.any fun q => decide ((s.queue q).cls = .event) && s.hasRec q,
    qs.any fun q => !decide ((s.queue q).cls = .event) && s.hasRec q && (s.pr port).cqIrqEn.testBit q,
    qs.any fun q => (s.queue q).ovf,
    (s.pr port).stickyBoot,
    (s.pr port).stickyErr]

/-- The IRQ pin of a port is driven low (R521); it is released in Hibernate, and from step 3 of the entry to it on (R507, R559). -/
def State.irqLow (s : State) (port : Nat) : Bool :=
  decide (s.irqStat port &&& (s.pr port).irqEn ≠ 0) && decide (s.hibStep < 3) && !decide (s.pwr.pstate = .hibernate)

/-- Q_STAT[q] (R516). -/
def State.qStat (s : State) (q : Nat) : Nat :=
  let qu := s.queue q
  s.level q + b2n qu.ovf * 128 + qu.cls.code * 256 + qu.port * 1024 +
  b2n (!qu.waitRecs.isEmpty && !decide (qu.port = 2)) * 4096

/-- PORT_ERR (R517). -/
def PortRegs.errWord (r : PortRegs) : Nat := r.errCause + r.errQueue * 256 + b2n r.errSat * 32768 + r.errCnt * 65536

/-- An error in a port's use of the register file or a window is recorded (R517). -/
def State.portErr (s : State) (port cause q : Nat) : State :=
  let r := s.pr port
  s.setPr port { r with
    stickyErr := true, errCause := cause, errQueue := q, errCnt := min 0xFFFF (r.errCnt + 1),
    errSat := r.errSat || decide (0xFFFF ≤ r.errCnt) }

/-- ENG_PACE, ENG_STAT, ENG_LATE (R22). -/
def State.engPace (s : State) : Nat := s.eng.pace + s.eng.paceMin * 65536
def State.engStat (s : State) : Nat :=
  s.eng.load + b2n s.eng.lowv * 256 + b2n s.eng.muted * 512 + b2n s.eng.disc * 1024
def State.engLate (s : State) : Nat := satWord (s.eng.lateCnt, s.eng.lateSat)

/-- Value of the aligned register at offset a, as a port reads it (R513). -/
def State.regVal (s : State) (port a : Nat) : Nat :=
  if !s.alive then 0
  else if a = 0x000 then idcodeOf s.part.variant
  else if a = 0x004 then s.devStat
  else if !s.pwr.ready then 0
  else
    let r := s.pr port
    if a = 0x010 then s.irqStat port
    else if a = 0x014 then r.irqEn
    else if a = 0x018 then r.cqIrqEn
    else if a = 0x01C then r.errWord
    else if a = 0x040 then b2n r.snapDone * 2
    else if a = 0x044 then r.snapNs % 2 ^ 32
    else if a = 0x048 then r.snapNs / 2 ^ 32
    else if a = 0x04C then r.snapFrac
    else if a = 0x050 then r.snapFrame % 2 ^ 32
    else if a = 0x054 then r.snapFrame / 2 ^ 32
    else if a = 0x080 then s.engPace
    else if a = 0x084 then s.engStat
    else if a = 0x088 then s.engLate
    else if 0x100 ≤ a ∧ a < 0x180 then (s.queue ((a - 0x100) / 4)).sqTail
    else if 0x180 ≤ a ∧ a < 0x200 then (s.queue ((a - 0x180) / 4)).sqHead
    else if 0x200 ≤ a ∧ a < 0x280 then (s.queue ((a - 0x200) / 4)).cqTail
    else if 0x280 ≤ a ∧ a < 0x300 then (s.queue ((a - 0x280) / 4)).cqHead
    else if 0x300 ≤ a ∧ a < 0x380 then s.qStat ((a - 0x300) / 4)
    else 0

end Sys2Proof.Machine
end

