-- ==== Sys2Proof/Machine/Clock.lean ====
section
/-!
DEFINITION. The media clock's frequency: families and base rates, ramps, pulls and corrections of the PLLs, and the frame
period they give (11 R390, R393 to R396, R401 to R403).
-/
namespace Sys2Proof.Machine
open Sys2Proof

/-- Family of a base rate: the MPLL that serves it (R390). -/
def famOf (rate : Nat) : Nat := if rate = 44100 ∨ rate = 88200 ∨ rate = 176400 then 1 else 0
def fam1x (m : Nat) : Nat := if m = 1 then 44100 else 48000
def State.serving (s : State) : Nat := famOf s.tm.rate

/-- Base rates by code (R416). -/
def rateOf (c : Nat) : Nat := [0, 44100, 48000, 88200, 96000, 176400, 192000].getD c 0
def rateCode (r : Nat) : Nat := ([0, 44100, 48000, 88200, 96000, 176400, 192000].findIdx? (· == r)).getD 0

def State.pllEn (s : State) (k : Nat) : Bool := (s.pll k).en.getD (decide (k = 0))

/-! ### Averages over a time (R362, R396) -/

/-- Values with their durations in ns, newest first, cut to a total length. -/
def lkTrim : Nat → List (Nat × Int) → List (Nat × Int)
  | _, [] => []
  | left, (d, p) :: r => if left = 0 then [] else (min d left, p) :: lkTrim (left - min d left) r

/-- Their average over time, 0 of none. -/
def avgOver (h : List (Nat × Int)) : Int :=
  let n := h.foldl (fun a e => a + e.1) 0
  if n = 0 then 0 else roundAway (h.foldl (fun a e => a + e.1 * e.2) 0) n

/-! ### Frequency (R393, R401 to R403) -/

/-- A linear move from f to t over d µs, e ns after its start. -/
def lin (f t : Int) (d e : Nat) : Int := if d * 1000 ≤ e then t else f + (t - f) * e / ((d * 1000 : Nat) : Int)

def Ramp.now (r : Ramp) (now : Nat) : Int := lin r.from0 (r.segs.getD r.idx (0, 0)).1 r.durUs (now - r.at0)

/-- Ramp offset at a device time in ns. -/
def Pll.off (p : Pll) (now : Nat) : Int :=
  match p.ramp with
  | some r => r.now now
  | none => p.offset

/-- Where a PULL ends, as a departure in units of 1 / 1,001,000 ppb, which holds 1000/1001 and 1001/1000 exactly (R402). -/
def pullDep (code : Nat) : Int := if code = 1 then -1000000000000 else if code = 2 then 1001000000000 else 0

/-- From v toward t by at most n. -/
def chase (v t : Int) (n : Nat) : Int := if (t - v).natAbs ≤ n then t else if v < t then v + n else v - n

/-- The limiter lets the NCO move by 1,000 ppm/s, which is 1 ppb in 1,000 ns (R401): how many ns of it the ramp has used since
the limiter's last place. -/
def Pll.offUse (p : Pll) (now : Nat) : Nat := (p.off now - p.lim.off).natAbs * 1000

/-- The momentary pull, a ramp of its own within what the profile leaves of the slope (R401, R402). -/
def Pll.pullAt (p : Pll) (clk now : Nat) : Int :=
  chase p.lim.pull (pullDep p.pull) ((clk - p.lim.at0 - p.offUse now) * 1001)

/-- A pull or a ramp offset is not zero (R395). -/
def Pll.following (p : Pll) (now : Nat) : Bool :=
  p.ramp.isSome || decide (p.off now ≠ 0) || decide (p.pull ≠ 0) || p.pulling

def Pll.refValid (p : Pll) : Bool := decide (p.ref = 1) || p.refOk

/-- Departure in ppb of a port's frame sync from the base rate (R394). -/
def State.fsyncPpb (s : State) (k : Nat) : Int :=
  let t := s.tp k
  if t.mhz = 0 then 0 else roundAway (((t.mhz : Int) - (s.tm.rate * 1000 : Nat)) * 1000000) s.tm.rate

/-- The servo correction a reference asks for: that of device time, of a tracker or of a port's frame sync while they are
followed, of the edges at a ball as they were measured and as they have drifted since, which nothing tells (log 86), else the
one held (R393, R394, R396). -/
def State.pllCorr (s : State) (m : Nat) : Int :=
  let p := s.pll m
  if p.ref = 0 ∨ p.lstate = 0 then 0
  else if !p.refValid then p.corr
  else if p.ref = 1 then s.devPpb
  else if p.ref = 2 then s.tt0.runPpb
  else if p.ref = 3 then s.tt1.runPpb
  else if p.ref = 5 then s.fsyncPpb p.refIdx
  else if s.clk = p.refAt then p.corr
  else if p.ref = 4 then clampI (-60000000) 60000000 (p.corr + Config.refDrift m s.clk)
  else clampI (-999000) 1001001 (p.corr + Config.refDrift m s.clk)

/-- Frequency offset of a slew at a time in ppb: it rises and falls at 1,000 ppm/s and is held at PULL_PPM between; a tick
that comes too early is slowed (R398). -/
def Pll.slewPpb (p : Pll) (clk : Nat) : Int :=
  let e := clk - p.slewAt
  let f : Int := (min (min e (p.slewNs - e)) (p.slewPpm * 1000000) / 1000 : Nat)
  if p.rstate ≠ 5 then 0 else if 0 < p.phase then -f else f

/-- For how many ns a slew has moved the frequency up to a time (R398, R401). -/
def Pll.slewUse (p : Pll) (clk : Nat) : Nat :=
  let e := min (clk - p.slewAt) p.slewNs
  let r := min (p.slewNs / 2) (p.slewPpm * 1000000)
  if p.rstate ≠ 5 then 0 else min e r + (e - (p.slewNs - r))

/-- The servo correction in force: it moves to what the reference asks for within what ramp, pull and slew leave (R401). -/
def State.servo (s : State) (m : Nat) : Int :=
  let p := s.pll m
  let pull := (p.pullAt s.clk s.nowNs - p.lim.pull).natAbs
  let used := p.offUse s.nowNs + ceilDiv pull 1001 + (p.slewUse s.clk - p.slewUse p.lim.at0)
  chase p.lim.servo (s.pllCorr m) ((s.clk - p.lim.at0 - used) / 1000)

/-! ### The NCO (R390, R393) -/

/-- Frequency of an NCO at nominal in Hz, for its N (R390, R393). -/
def ncoHz (m ndiv : Nat) : Nat := fam1x m * [32, 64, 16].getD ndiv 32

/-- The unit of a frequency over its nominal: a ppb times the unit of a pull. -/
def ncoUnit : Nat := 1001 * 10 ^ 21

/-- The NCO's frequency over its nominal before the clamp, in that unit: servo, slew and ramp, times the pull (R393, R402). -/
def State.ncoSum (s : State) (m : Nat) : Int :=
  let p := s.pll m
  (1000000000 + s.servo m + p.slewPpb s.clk + p.off s.nowNs) * (1001 * 10 ^ 12 + p.pullAt s.clk s.nowNs)

/-- Clamped to ±6.4 %, and whether the clamp acts (R393). -/
def State.nco (s : State) (m : Nat) : Int := clampI (936 * 1001 * 10 ^ 18) (1064 * 1001 * 10 ^ 18) (s.ncoSum m)
def State.ncoClamps (s : State) (m : Nat) : Bool := decide (s.nco m ≠ s.ncoSum m)

/-- The frequency word FW (R393). -/
def State.fw (s : State) (m : Nat) : Nat :=
  (roundAway (s.nco m * (ncoHz m (s.pll m).ndiv * 2 ^ 48 : Nat)) (250000000 * ncoUnit)).toNat % 2 ^ 48

/-- Departure from nominal in ppb, of the frequency that FW gives (R393, R417). -/
def State.pllPpb (s : State) (m : Nat) : Int :=
  let f : Nat := ncoHz m (s.pll m).ndiv * 2 ^ 48
  roundAway ((((s.fw m * 250000000 : Nat) : Int) - (f : Nat)) * 1000000000) f

/-- The limiter's place at present (R401), and the correction in force into the average of R396 while phase-locked or
following: the part of the time in which it moved, at its mean, and the rest. -/
def State.pllPush (s : State) (m : Nat) : State :=
  let p := s.pll m
  let on := (decide (p.rstate = 2) || decide (p.rstate = 3)) && decide (p.histAt < s.clk)
  let v := s.servo m
  let d := s.clk - p.histAt
  let k := min d ((v - p.lim.servo).natAbs * 1000)
  s.setPll m { p with
    lim := { at0 := s.clk, servo := v, pull := p.pullAt s.clk s.nowNs, off := p.off s.nowNs },
    hist := if on then lkTrim 10000000000 ((d - k, v) :: (if k = 0 then [] else [(k, (v + p.lim.servo) / 2)]) ++ p.hist)
      else p.hist,
    histAt := s.clk }
def State.pllHist (s : State) : State := (s.pllPush 0).pllPush 1

/-- The frame period in device time as a fraction of a second: frames run at the serving PLL's departure, which its servo holds
on the average at the sum of its terms, finer than FW, and device time at its own (R143, R352, R393). -/
def State.perNum (s : State) : Nat := (1000000000 + s.devPpb).toNat * (1001 * 10 ^ 12)
def State.perDen (s : State) : Nat := s.tm.rate * (s.nco s.serving).toNat

end Sys2Proof.Machine
end

