-- ==== Sys2Proof/Machine/Route.lean ====
section
/-!
DEFINITION. Quickset: route entries, transitions, held requests, and the commands ROUTE_SET, ROUTE_GET and
ROUTE_FADE_CFG with the timed steps of the routes (05 R162 to R188).
-/
namespace Sys2Proof.Machine
open Sys2Proof

/-- The frame whose work comes next, and its boundary: where commands tied to a frame apply (R180). -/
def State.apFrame (s : State) : Nat := match s.eng.pendSet with
  | some (n, _) => n
  | none => s.tm.frame
def State.apT (s : State) : Nat := match s.eng.pendSet with
  | some _ => s.eng.pendB
  | none => s.tm.frameT

/-- The destination is free in frame fr: no transition runs, and none took effect at once in that frame
(R167 to R170). -/
def Route.freeAt (r : Route) (fr : Nat) : Bool :=
  (match r.trans with
    | none => true
    | some t => !decide (t.kind = TKind.zero) && decide (t.n ≤ t.k)) && !decide (r.cutFr = some fr)

def State.job (s : State) (id : Nat) : RouteJob := tget {} s.routeJobs id

/-- The result of ROUTE_SET (R182). -/
def RouteJob.data (j : RouteJob) : List Byte :=
  le 2 j.begun ++ le 2 j.same ++ le 2 j.replaced ++ le 2 j.zfall ++ le 4 j.first ++ le 4 j.last

/-- A ROUTE_SET whose entries are all settled completes: LATE if it applied after its frame, else OK, or ABORTED when every
entry was replaced or removed (R181). While the record is held back, for the frame has not begun, its account is kept:
a later request of that frame may still change it (R174). -/
def State.jobEnd (s : State) (id t : Nat) : State :=
  let j := s.job id
  if 0 < j.open0 then s
  else
    let s1 := if s.eng.pendSet.isSome ∧ t = s.eng.pendB then s else { s with routeJobs := tdel id s.routeJobs }
    if 0 < j.begun + j.same ∨ s.flightLate id then s1.finishOk id j.data t
    else s1.finishErr id { status := stAborted, aux := j.lowRep, detail := j.replaced } t

/-- One entry of command id has begun in frame fr (R181); zf when a ZERO search fell back. -/
def State.jobBegun (s : State) (id fr t : Nat) (zf : Bool) : State :=
  let j := s.job id
  let lo := fr % 2 ^ 32
  ({ s with routeJobs := tset id { j with
      open0 := j.open0 - 1, begun := j.begun + 1, zfall := j.zfall + b2n zf,
      first := if j.begun = 0 then lo else j.first, last := lo } s.routeJobs }).jobEnd id t

/-- One entry was unchanged (R173, R174). -/
def State.jobSame (s : State) (id t : Nat) : State :=
  let j := s.job id
  ({ s with routeJobs := tset id { j with open0 := j.open0 - 1, same := j.same + 1 } s.routeJobs }).jobEnd id t

/-- One entry was replaced or removed at destination d (R172, R184). -/
def State.jobReplaced (s : State) (id d t : Nat) : State :=
  let j := s.job id
  ({ s with routeJobs := tset id { j with
      open0 := j.open0 - 1, replaced := j.replaced + 1, lowRep := min j.lowRep d } s.routeJobs }).jobEnd id t

/-- An entry that has begun in the frame at hand gives way to a later request of that frame: it counts as unchanged (R174). -/
def State.jobUndo (s : State) (id t : Nat) : State :=
  let j := s.job id
  let last := decide (j.begun ≤ 1)
  ({ s with routeJobs := tset id { j with
      begun := j.begun - 1, same := j.same + 1, first := if last then 0 else j.first,
      last := if last then 0 else j.last } s.routeJobs }).jobEnd id t

/-- The accounts of commands that have completed are closed once their frame's work has been done. -/
def jobsClose (s : State) : State := { s with routeJobs := s.routeJobs.filter fun e => decide (0 < e.2.open0) }

/-- Entry i of a ROUTE_SET packet. -/
def rsDst (p : Packet) (i : Nat) : Nat := p.u16 (24 + 4 * i)
def rsSrc (p : Packet) (i : Nat) : Nat := p.u16 (26 + 4 * i)

/-- The requests of a ROUTE_SET, with the transition and times fixed at its start from the command or the
destination's defaults (R166, R179). -/
def rsEntries (id : Nat) (p : Packet) (s : State) : List (Nat × Req) :=
  (List.range (p.u16 16)).map fun i =>
    let d := rsDst p i
    let r := s.route d
    (d, { src := rsSrc p i,
          kind := if p.u8 18 = 0 then r.dtrans else p.u8 18,
          fade := if p.u16 20 = 0xFFFF then r.dfade else p.u16 20,
          win := if p.u16 22 = 0xFFFF then r.dzwin else p.u16 22,
          job := id, tag := p.tag })

/-- What a ROUTE_SET fixes when it starts. -/
def routeSetStart (id : Nat) (p : Packet) (s : State) : State :=
  { s with routeJobs := tset id { ents := rsEntries id p s, open0 := p.u16 16 } s.routeJobs }

/-- A request applies in frame fr on a free destination (R167 to R169, R173). -/
def State.beginReq (s : State) (d : Nat) (q : Req) (fr t : Nat) : State :=
  let r := s.route d
  if q.src = r.src then (s.setRoute d { r with trans := none }).jobSame q.job t
  else
    let n := msFrames q.fade s.tm.rate
    if q.kind = 3 then
      s.setRoute d { r with src := q.src, trans := some { kind := .zero, from0 := r.src, n := n,
                                                           w := msFrames q.win s.tm.rate, job := q.job } }
    else if q.kind = 2 ∧ 0 < n then
      (s.setRoute d { r with src := q.src, trans := some { kind := .fade, from0 := r.src, n := n,
                                                            job := q.job } }).jobBegun q.job fr t false
    else (s.setRoute d { r with src := q.src, trans := none, cutFr := some fr }).jobBegun q.job fr t false

/-- The held request of a free destination applies (R171). -/
def State.applyHeld (s : State) (d fr t : Nat) : State :=
  let r := s.route d
  match r.held with
  | none => s
  | some q => if r.freeAt fr then (s.setRoute d { r with held := none }).beginReq d q fr t else s

/-- A request of an earlier command that has begun at destination d in the frame at hand leaves no effect (R174). -/
def State.undoReq (s : State) (d fr t : Nat) : State :=
  let r := s.route d
  match r.fresh with
  | none => s
  | some f =>
    if f.fr = fr ∧ s.eng.pendSet.isSome then
      let s1 := s.setRoute d { r with src := f.src, trans := none, cutFr := none, fresh := none }
      if r.trans.any fun x => decide (x.kind = .zero) then s1.jobSame f.job t else s1.jobUndo f.job t
    else s

/-- A command's request begins on a free destination, and is marked as the one of its frame. -/
def State.beginFresh (s : State) (d : Nat) (q : Req) (fr t : Nat) : State :=
  let old := (s.route d).src
  let s1 := s.beginReq d q fr t
  if q.src = old then s1 else s1.setRoute d { s1.route d with fresh := some { fr := fr, src := old, job := q.job } }

/-- A request of a command that applies in frame fr: it takes the place of an earlier one of the same frame (R174), and is held
while the destination is in transition, replacing an older held request (R171, R172). -/
def State.applyReq (s0 : State) (d : Nat) (q : Req) (fr t : Nat) : State :=
  let s1 := (s0.applyHeld d fr t).undoReq d fr t
  let r := s1.route d
  if r.freeAt fr then s1.beginFresh d q fr t
  else
    let s2 := s1.setRoute d { r with held := some q }
    match r.held with
    | some old => s2.jobReplaced old.job d t
    | none => s2

/-- In Listen an entry is stored and takes effect as CUT at the first frame; one that names the source in force, or the one
stored, counts as unchanged, and the former takes the place of another stored one all the same (R183, log 124). -/
def storeEntry (e : Nat × Req) (a : State × Nat × Nat) : State × Nat × Nat :=
  let (s, b, k) := a
  let r := s.route e.1
  let s1 := if r.src = e.2.src ∧ r.stored = none then s else s.setRoute e.1 { r with stored := some e.2.src }
  if r.src = e.2.src ∨ r.stored = some e.2.src then (s1, b, k + 1) else (s1, b + 1, k)

/-- ROUTE_SET applies (R180), or is stored in Listen (R183). -/
def routeSetApply (id : Nat) (_p : Packet) (t : Nat) (s : State) : State :=
  let j := s.job id
  if s.inListen then
    let (s1, b, k) := j.ents.foldl (fun a e => storeEntry e a) (s, 0, 0)
    ({ s1 with routeJobs := tdel id s1.routeJobs }).finishOk id (le 2 b ++ le 2 k ++ le 2 0 ++ le 2 0 ++ le 4 0 ++ le 4 0) t
  else
    let fr := s.apFrame
    j.ents.foldl (fun a e => a.applyReq e.1 e.2 fr t) s

/-- LEN of ROUTE_SET (R179, R183). -/
def routeSetLen (p : Packet) : Option Err :=
  failIf (!(decide (p.len = 24 + 4 * p.u16 16) && decide (1 ≤ p.u16 16) && decide (p.u16 16 ≤ 250)))
    { status := stBadLen, ofs := 16, detail := p.u16 16 }

/-- Fields of entry i: reserved bits, IDs present, no destination twice (R183). -/
def rsEntryErr (p : Packet) (s : State) (i : Nat) : Option Err :=
  let d := rsDst p i
  let c := rsSrc p i
  firstErr [need (decide (d < 1024) && s.dstOk d) (24 + 4 * i) d,
            need (!((List.range i).any fun k => decide (rsDst p k = d))) (24 + 4 * i) d,
            need (decide (c < 1024) && s.srcOk c) (26 + 4 * i) c]

def routeSetChk (p : Packet) (s : State) : Option Err :=
  firstErr ([p.within 18 1 0 3, p.zero 19 1,
    need (decide (p.u16 20 ≤ 100) || decide (p.u16 20 = 0xFFFF)) 20 (p.u16 20),
    need (decide (p.u16 22 ≤ 50) || decide (p.u16 22 = 0xFFFF)) 22 (p.u16 22)] ++
    (List.range (p.u16 16)).map (rsEntryErr p s))

/-! ### ROUTE_GET and ROUTE_FADE_CFG -/

/-- Frames left in the fade, or in the search window including the fallback fade (R186). -/
def Trans.remain (t : Trans) : Nat :=
  match t.kind with
  | .zero => min 0xFFFF (t.w + 1 - t.k + t.n)
  | _ => min 0xFFFF (t.n - t.k)

def TKind.code : TKind → Nat
  | .fade => 1
  | .zero => 2
  | .fallback => 3

/-- The 12 bytes of a destination (R186). -/
def routeRec (s : State) (d : Nat) : List Byte :=
  if !s.dstOk d then
    le 2 silence ++ le 2 0xFFFF ++ le 1 8 ++ le 1 0 ++ le 2 0 ++ le 2 0xFFFF ++ le 2 0xFFFF
  else
    let r := s.route d
    let live := match r.trans with
      | some t => if t.kind ≠ TKind.zero ∧ t.n ≤ t.k then none else some t
      | none => none
    let (from0, st, rem) := match live with
      | some t => (t.from0, t.kind.code, t.remain)
      | none => (0xFFFF, 0, 0)
    let (hb, hk, hs, ht) := match r.held with
      | some q => (4, q.kind, q.src, q.tag)
      | none => (0, 0, 0xFFFF, 0xFFFF)
    le 2 r.src ++ le 2 from0 ++ le 1 (st + hb) ++ le 1 hk ++ le 2 rem ++ le 2 hs ++ le 2 ht

def routeGetLen (p : Packet) : Option Err := failIf (!decide (p.len = 20)) { status := stBadLen, ofs := 4, detail := p.len }

def routeGetChk (p : Packet) (s : State) : Option Err :=
  firstErr [need (decide (p.u16 16 < 1024) && s.dstOk (p.u16 16)) 16 (p.u16 16),
            need (decide (1 ≤ p.u16 18) && decide (p.u16 18 ≤ 64) && decide (p.u16 16 + p.u16 18 ≤ 0x400)) 18 (p.u16 18)]

/-- ROUTE_GET: the records as the frame's work uses them (R185). -/
def routeGetApply (id : Nat) (p : Packet) (t : Nat) (s : State) : State :=
  s.finishOk id (le 8 s.apFrame ++ (List.range (p.u16 18)).flatMap fun i => routeRec s (p.u16 16 + i)) t

def routeFadeCfgLen (p : Packet) : Option Err := failIf (!decide (p.len = 24)) { status := stBadLen, ofs := 4, detail := p.len }

def routeFadeCfgChk (p : Packet) (s : State) : Option Err :=
  firstErr [need (decide (p.u16 16 < 1024) && s.dstOk (p.u16 16)) 16 (p.u16 16),
            need (decide (1 ≤ p.u16 18) && decide (p.u16 18 ≤ 1024) && decide (p.u16 16 + p.u16 18 ≤ 0x400)) 18 (p.u16 18),
            p.within 20 1 1 3, p.zero 21 1, p.within 22 1 0 100, p.within 23 1 0 50]

/-- ROUTE_FADE_CFG: new defaults for the present IDs of the span (R187). -/
def routeFadeCfgApply (id : Nat) (p : Packet) (t : Nat) (s : State) : State :=
  let ds := ((List.range (p.u16 18)).map fun i => p.u16 16 + i).filter s.dstOk
  (forEach ds (fun d a => a.setRoute d { a.route d with dtrans := p.u8 20, dfade := p.u8 22, dzwin := p.u8 23 }) s).finishOk
    id (le 2 ds.length ++ le 2 0) t

/-! ### Frame work, timed steps, ABORT and RESET_UNIT -/

/-- A source crosses zero in a frame (R169); after a discarded frame its sample of the last performed one stands for that of
frame f - 1 (log 125). -/
def crosses (prev cur : Int) : Bool := decide (prev * cur < 0) || decide (cur.natAbs ≤ 0x8000)

/-- The sample destination d takes in frame fr from the sources rd reads, and its transition moved on by one performed
frame (R163, R166 to R169). `cz id` says whether source id crosses zero in this frame. -/
def routeWork (s : State) (d fr t : Nat) (rd : Nat → Int) (cz : Nat → Bool) : State × Int :=
  let r := s.route d
  match r.trans with
  | none => (s, rd r.src)
  | some x =>
    match x.kind with
    | .zero =>
      if x.k ≤ x.w then
        if cz x.from0 && cz r.src then
          ((s.setRoute d { r with trans := none, cutFr := some fr }).jobBegun x.job fr t false, rd r.src)
        else (s.setRoute d { r with trans := some { x with k := x.k + 1 } }, rd x.from0)
      else (s, rd x.from0)
    | _ =>
      if x.k < x.n then
        (s.setRoute d { r with trans := some { x with k := x.k + 1 } }, blend (rcos (x.k + 1) x.n) (rd x.from0) (rd r.src))
      else (s, rd r.src)

/-- ROUTE_FADE_END: the fade's last frame has passed and the destination is free (R168). -/
def routeFadeEndStep (d : Nat) (s : State) : State :=
  let r := s.route d
  match r.trans with
  | some x => if x.kind ≠ TKind.zero ∧ x.n ≤ x.k then s.setRoute d { r with trans := none } else s
  | none => s

/-- ZERO_FALLBACK: no frame of the window qualified, and the fade begins; one of no length acts as a CUT (R168, R169). -/
def zeroFallbackStep (d : Nat) (s : State) : State :=
  let r := s.route d
  match r.trans with
  | some x =>
    if x.kind = TKind.zero ∧ x.w < x.k then
      (s.setRoute d (if x.n = 0 then { r with trans := none, cutFr := some s.apFrame }
        else { r with trans := some { x with kind := .fallback, k := 0 } })).jobBegun x.job s.apFrame s.apT true
    else s
  | none => s

/-- What an ABORT or a reset removes from destination d for the commands p picks: a held request, or a ZERO entry still
in its search, whose destination keeps the old source (R184, R188). -/
def routeRemove (p : Nat → Bool) (t d : Nat) (s : State) : State :=
  let r := s.route d
  let s1 := match r.held with
    | some q => if p q.job then (s.setRoute d { r with held := none }).jobReplaced q.job d t else s
    | none => s
  let r1 := s1.route d
  match r1.trans with
  | some x =>
    if x.kind = TKind.zero ∧ p x.job then
      (s1.setRoute d { r1 with src := x.from0, trans := none, fresh := none }).jobReplaced x.job d t
    else s1
  | none => s1

/-- A stored entry takes effect as CUT at the first frame of Idle or Run: a transition that Listen froze ends there, and a
search or a held request of an older command counts as replaced (R172, R183, log 124). -/
def routeStoredApply (s : State) : State :=
  forEach ((s.routes.filter fun e => e.2.stored.isSome).map (·.1)) (fun d a =>
    let b := routeRemove (fun _ => true) s.tm.frameT d a
    let r := b.route d
    b.setRoute d { r with src := r.stored.getD r.src, stored := none, trans := none, cutFr := some s.tm.frame }) s

/-- RESET_UNIT of the route table (R188). -/
def routeReset (s : State) : State :=
  let s1 := forEach (s.routes.map (·.1)) (routeRemove (fun _ => true) s.nowNs) s
  { s1 with routes := [] }

/-- A route that counts as configured on an ID (R178). -/
def Route.configured (r : Route) (gone : Nat → Bool) (dstGone : Bool) : Bool :=
  let ids := [r.src] ++ (match r.trans with | some x => [x.from0] | none => []) ++
    (match r.held with | some q => [q.src] | none => []) ++ (match r.stored with | some i => [i] | none => [])
  (dstGone && (decide (r.src ≠ silence) || r.trans.isSome || r.held.isSome || r.stored.isSome)) || ids.any gone

def execRouteFadeEnd (dt : Nat) (dst : Nat) (s : State) : Host.Outcome State Fault Refusal :=
  run (.routeFadeEnd dt dst) s (routeFadeEndStep dst)

/-- A frame stands open: its boundary has come, the engine is free for it and has not begun it, so that what applies now
applies in that frame (R20, R180). -/
def State.frameAtHand (s : State) : Bool := s.eng.pendSet.isSome && s.eng.working.isNone

/-- ROUTE_HELD_APPLY and ZERO_FALLBACK act in a frame that stands open, the first one that the rule gives (R169, R171). -/
def execRouteHeldApply (dt : Nat) (dst : Nat) (s : State) : Host.Outcome State Fault Refusal :=
  run (.routeHeldApply dt dst) s fun x => if x.frameAtHand then x.applyHeld dst x.apFrame x.apT else x

def execZeroFallback (dt : Nat) (dst : Nat) (s : State) : Host.Outcome State Fault Refusal :=
  run (.zeroFallback dt dst) s fun x => if x.frameAtHand then zeroFallbackStep dst x else x

end Sys2Proof.Machine
end

