-- ==== Sys2Proof/Machine/Meter.lean ====
section
/-!
DEFINITION. Meters: the quantities of a point, and METER_CFG, METER_READ, METER_RESET (05 R189 to R201).
-/
namespace Sys2Proof.Machine
open Sys2Proof

/-- A meter point exists when its ID exists (R189). -/
def State.pointOk (s : State) (p : Nat) : Bool :=
  if p < 0x400 then s.srcOk p else decide (p < 0x800) && s.dstOk (p - 0x400)

/-- Every existing point. -/
def State.allPoints (s : State) : List Nat := s.allSrc ++ s.allDst.map (· + 0x400)

/-- One performed frame at a point: magnitude m of its sample v, flags, and whether its clip run goes on (R191, R194,
R195); `rate` is the base rate. The mean square y is kept in whole units of 2^-94, rounded down each frame (log 12). The twelve
samples of the true-peak filter are zeros when TP_EN is set (log 151). -/
def Meter.frame (k : Meter) (rate : Nat) (v : Int) (settle priv clip : Bool) : Meter :=
  let m := v.natAbs
  let hist := v :: k.hist.take 11
  let a := expCoef rate (k.tau * 100)
  let (h, tm) :=
    if k.hold ≤ m * 2 ^ 32 then (m * 2 ^ 32, 0)
    else if msFrames (10 * k.holdT) rate ≤ k.holdTmr + 1 then
      (if k.decay = 0 then k.hold else holdFall rate k.decay k.hold, k.holdTmr + 1)
    else (k.hold, k.holdTmr + 1)
  let c := if clip && !k.clipRun then satInc 15 (k.clip, k.clipSat) else (k.clip, k.clipSat)
  { k with
    peak := max k.peak m, hold := h, holdTmr := tm,
    tpeak := if k.tpEn then max k.tpeak (truePeak rate hist) else k.tpeak,
    y := ((k.y : Int) + (((m * m * 2 ^ 32 : Nat) : Int) - k.y) * a / 2 ^ 32).toNat,
    clip := c.1, clipSat := c.2, clipRun := clip, hist := if k.tpEn then hist else [], settle := settle, priv := priv }

/-- A reading of a Q31 magnitude in centi-dB, 16 bits (R192): below -150 dBFS reads 0x8000, both full-scale codes 0. -/
def readTp (m : Nat) : Nat :=
  if m < 68 then 0x8000 else if m = 2 ^ 31 ∨ m = 2 ^ 31 - 1 then 0 else uns 16 (readCdb m 31 (Config.centiDb (m * 2 ^ 32)))

/-- The same for a Q63 magnitude that does not read above 0 dB: HOLD. -/
def readHold (h : Nat) : Nat :=
  if h < 291668633436 then 0x8000 else if (2 ^ 31 - 1) * 2 ^ 32 ≤ h then 0 else uns 16 (min 0 (readCdb h 63 (Config.centiDb h)))

/-- The same for a Q31 magnitude: PEAK. -/
def readDb (m : Nat) : Nat := readHold (m * 2 ^ 32)

/-- The same for the RMS state y in Q94: half the centi-dB of y. -/
def readRms (y : Nat) : Nat :=
  if y < 19807040628567 then 0x8000
  else if (2 ^ 31 - 1) ^ 2 * 2 ^ 32 ≤ y then 0
  else uns 16 (min 0 (readCdb (isqrt y 48 0) 47 (Config.centiDbSq y)))

/-- The 12 bytes of a point (R199). -/
def meterRec (k : Meter) : List Byte :=
  le 2 (readDb k.peak) ++ le 2 (readRms k.y) ++ le 2 (readHold k.hold) ++
  le 2 (if k.tpEn then readTp k.tpeak else 0x8000) ++ le 1 (flags [k.settle, k.priv, k.tpEn, k.clipRun]) ++ le 1 0 ++
  le 2 (k.clip + b2n k.clipSat * 32768)

/-- Bytes rounded up to a multiple of 4. -/
def up4 (n : Nat) : Nat := (n + 3) / 4 * 4

/-- Check 3 of R46 for an opcode whose length is n. -/
def lenIs (p : Packet) (n : Nat) : Option Err := failIf (!decide (p.len = n)) { status := stBadLen, ofs := 4, detail := p.len }

/-- Points MP[i] from packet offset o on. -/
def mpAt (p : Packet) (o n : Nat) : List Nat := (List.range n).map fun i => p.u16 (o + 2 * i)

/-- Every listed point exists (R197, R200). -/
def mpErr (p : Packet) (o n : Nat) (s : State) : List (Option Err) :=
  (List.range n).map fun i => need (s.pointOk (p.u16 (o + 2 * i))) (o + 2 * i) (p.u16 (o + 2 * i))

/-! ### METER_CFG -/

def meterCfgLen (p : Packet) : Option Err := lenIs p (up4 (28 + 2 * p.u16 18))

/-- The points a METER_CFG or METER_RESET names. -/
def mpNamed (p : Packet) (o : Nat) (s : State) : List Nat := if p.u8 16 = 1 then s.allPoints else mpAt p o (p.u16 18)

/-- Settings of one point after METER_CFG (R196). -/
def meterSet (p : Packet) (k : Meter) : Meter :=
  let w := p.u8 17
  let k1 := if bit w 0 then { k with tau := p.u16 20 } else k
  let k2 := if bit w 1 then { k1 with holdT := p.u16 22, decay := p.u16 24 } else k1
  if bit w 2 then { k2 with tpEn := decide (p.u8 26 = 1), tpeak := if k2.tpEn then k2.tpeak else 0,
                            hist := if p.u8 26 = 1 then k2.hist else [] } else k2

def meterCfgSettings (p : Packet) (s : State) : State :=
  forEach (mpNamed p 28 s) (fun k a => a.setMeter k (meterSet p (a.meter k))) s

/-- Points with true-peak on. -/
def State.nTruePeak (s : State) : Nat := (s.meters.filter fun e => e.2.tpEn).length

def meterCfgChk (p : Packet) (s : State) : Option Err :=
  let w := p.u8 17
  let n := p.u16 18
  firstErr ([p.within 16 1 0 1, need (decide (w &&& 0xF8 = 0) && decide (w ≠ 0)) 17 w,
    failIf (bit w 2 && decide (p.u8 16 = 1)) (badParam 17 w),
    need (if p.u8 16 = 1 then decide (n = 0) else decide (1 ≤ n) && decide (n ≤ 64)) 18 n,
    p.withinIf (bit w 0) 20 2 10 3000, p.withinIf (bit w 1) 22 2 0 1000, p.withinIf (bit w 1) 24 2 0 600,
    p.withinIf (bit w 2) 26 1 0 1, p.zero 27 1] ++ mpErr p 28 n s ++
    [need (decide (n % 2 = 0) || decide (p.u16 (28 + 2 * n) = 0)) (28 + 2 * n) (p.u16 (28 + 2 * n)),
     errIf (decide (64 < (meterCfgSettings p s).nTruePeak)) stNoResource (meterCfgSettings p s).nTruePeak])

def meterCfgApply (id : Nat) (p : Packet) (t : Nat) (s : State) : State := (meterCfgSettings p s).finishOk id [] t

/-! ### METER_READ -/

def meterReadLen (p : Packet) : Option Err := lenIs p (up4 (20 + 2 * p.u16 16))

/-- The two bytes that pad an odd list are no field of the table, and any value in them is accepted (log 28). -/
def meterReadChk (p : Packet) (s : State) : Option Err :=
  let n := p.u16 16
  firstErr ([need (decide (1 ≤ n) && decide (n ≤ 64)) 16 n, p.clr 18 1 0xFC, p.zero 19 1] ++ mpErr p 20 n s ++
    [stateIf s.inListen 0])

/-- METER_READ: every point latched, then restarted and cleared as asked (R198). The latched frame is the last one metered before
the boundary, whose quantities and flags the points hold (log 32). -/
def meterReadApply (id : Nat) (p : Packet) (t : Nat) (s : State) : State :=
  let mp := mpAt p 20 (p.u16 16)
  let data := le 4 (s.eng.metFr % 2 ^ 32) ++ le 2 (p.u16 16) ++ le 2 0 ++ mp.flatMap fun k => meterRec (s.meter k)
  (forEach mp (fun k a =>
    let m := a.meter k
    let m1 := if bit (p.u8 18) 0 then m else { m with peak := 0, tpeak := 0 }
    a.setMeter k (if bit (p.u8 18) 1 then { m1 with clip := 0, clipSat := false } else m1)) s).finishOk id data t

/-! ### METER_RESET -/

def meterResetLen (p : Packet) : Option Err := lenIs p (up4 (20 + 2 * p.u16 18))

/-- The two bytes that pad an odd list are no field of the table, and any value in them is accepted (log 28). -/
def meterResetChk (p : Packet) (s : State) : Option Err :=
  let n := p.u16 18
  firstErr ([p.within 16 1 0 1, need (decide (p.u8 17 &&& 0xF0 = 0) && decide (p.u8 17 ≠ 0)) 17 (p.u8 17),
    need (if p.u8 16 = 1 then decide (n = 0) else decide (1 ≤ n) && decide (n ≤ 64)) 18 n] ++ mpErr p 20 n s)

/-- The chosen quantities cleared (R201). -/
def Meter.clear (k : Meter) (m : Nat) : Meter :=
  let k1 := if bit m 0 then { k with peak := 0, tpeak := 0 } else k
  let k2 := if bit m 1 then { k1 with hold := 0, holdTmr := 0 } else k1
  let k3 := if bit m 2 then { k2 with y := 0 } else k2
  if bit m 3 then { k3 with clip := 0, clipSat := false } else k3

def meterResetApply (id : Nat) (p : Packet) (t : Nat) (s : State) : State :=
  (forEach (mpNamed p 20 s) (fun k a => a.setMeter k ((a.meter k).clear (p.u8 17))) s).finishOk id [] t

/-- RESET_UNIT of the meters (R201): quantities cleared, ballistics and true-peak at reset. A clip run in progress is not
counted again (R194). -/
def metersReset (s : State) : State :=
  let clean := tmap (fun e => ({ clipRun := e.clipRun, settle := e.settle, priv := e.priv } : Meter)) s.meters
  { s with meters := clean.filter fun e => e.2 ≠ {} }

/-- One performed frame at point k. -/
def State.meterFrame (s : State) (k : Nat) (v : Int) (settle priv clip : Bool) : State :=
  s.setMeter k ((s.meter k).frame s.tm.rate v settle priv clip)

end Sys2Proof.Machine
end

