-- ==== Sys2Proof/Machine/Mix.lean ====
section
/-!
DEFINITION. Mix entries, buses, limiters and safe-load: MIX_STAGE, MIX_COMMIT, BUS_CFG, LIMITER_CFG and the frame's
mix work (06 R202 to R239).
-/
namespace Sys2Proof.Machine
open Sys2Proof

/-- Value of a fade in the frame last performed (R222). -/
def Fade.now (f : Fade) : Int := if f.k = 0 then f.m else if f.n ≤ f.k then f.t else f.m + (f.t - f.m) * f.k / f.n

/-- One performed frame of a fade. -/
def Fade.adv (f : Fade) : Fade := { f with k := f.k + 1 }

/-- A fade moved on, gone once its target is reached. -/
def advFade (f : Option Fade) : Option Fade :=
  match f with
  | none => none
  | some x => if x.n ≤ x.k + 1 then none else some x.adv

/-- Value of a parameter with target t and perhaps a fade. -/
def fadeVal (f : Option Fade) (t : Int) : Int :=
  match f with
  | none => t
  | some x => x.now

/-- A fade that runs: one of no length is no fade (R234, R237). -/
def fading (f : Option Fade) : Bool :=
  match f with
  | some x => decide (0 < x.n)
  | none => false

/-- Momentary gain of an entry (R222), in units of 2^-96. -/
def MixE.amp (e : MixE) : Int := fadeVal e.fade (factor e.gain)

/-- A momentary amplitude as a code (R231). -/
def ampCode (a : Int) (f : Option Fade) (target : Int) : Nat :=
  if f.isNone then uns 16 target else if a = 0 then 0x8000 else uns 16 (gainCode a.toNat)

/-- DLY1 of an entry (R206). -/
def dly1 (src bus : Nat) : Bool := decide (0x260 ≤ src) && decide (src < 0x2E0) && decide (bus ≤ src - 0x260)

/-- Centi-dB in units of 2^-16. -/
def cdb (x : Int) : Int := x * 65536

/-- Lookahead in frames of an LA code at a base rate (R215). -/
def laFrames (rate code : Nat) : Nat :=
  if code = 0 then 0 else if code = 1 then (2 * rate + 2000) / 4000 else if code = 2 then msFrames 1 rate else msFrames 2 rate

/-! ### Frame work (R207 to R217) -/

/-- Saturation to Q9.39, and whether it saturated. -/
def satQ9 (x : Int) : Int × Bool :=
  (clampI (-(2 ^ 47)) (2 ^ 47 - 1) x, decide (x < -(2 ^ 47)) || decide (2 ^ 47 - 1 < x))

/-- Fades of an entry and its shadow move on by one performed frame (R222, R224). -/
def MixE.adv (e : MixE) : MixE :=
  { e with
    fade := advFade e.fade,
    shadow := match e.shadow with
      | none => none
      | some h => if h.f.n ≤ h.f.k + 1 then none else some { h with f := h.f.adv } }

def mixAdvance (s : State) : State :=
  { s with
    mix := tmap (fun e => e.adv) s.mix,
    buses := tmap (fun b => { b with
      trimF := advFade b.trimF, thrF := advFade b.thrF, ceilF := advFade b.ceilF }) s.buses }

/-- A contribution: source times factor, rounded at 2^-39 (R207). -/
def contrib (x f : Int) : Int := rne (x * f) 88

/-- The sample an entry of bus n takes from a source: a bus at or above n gives its output of the previous performed
frame (R206). -/
def mixRead (s : State) (n src : Nat) : Int :=
  if dly1 src n then tget 0 s.eng.srcPrev src else (tget {} s.eng.src src).v

/-- The exact sum over the entries and shadows of bus n (R207). -/
def busSum (s : State) (n : Nat) : Int :=
  s.mix.foldl (fun a e =>
    let x := if e.2.bus = n then contrib (mixRead s n e.2.src) e.2.amp else 0
    let y := match e.2.shadow with
      | some h => if h.bus = n then contrib (mixRead s n h.src) h.f.now else 0
      | none => 0
    a + x + y) 0

/-- Static gain of the limiter's threshold term (R214), units of 2^-16 centi-dB; none for -inf. -/
def limStatic (lvl : Option Int) (thr knee : Int) : Int :=
  match lvl with
  | none => 0
  | some l =>
    let exc := l - thr
    if exc ≤ -(knee / 2) then 0
    else if knee / 2 ≤ exc then -exc
    else -((exc + knee / 2) * (exc + knee / 2) / (2 * knee))

/-- The ceiling term over the newest D + 1 samples, newest first (R214). -/
def limHard (d : Nat) (win : List (Int × Int)) : Int :=
  if d = 0 then 0
  else (List.range (d + 1)).foldl (fun a i => min a ((win.getD i (0, 0)).2 * (i + 1 : Nat) / (d + 1 : Nat))) 0

/-- The sample leaving the lookahead: the tap at D, or the running blend of taps (R217). -/
def laTap (win : List (Int × Int)) (d : Nat) (f : Option (List (Nat × Nat) × Nat × Nat)) : Int :=
  let x := (win.getD d (0, 0)).1
  match f with
  | none => x
  | some (old, k, n) =>
    let o := old.foldl (fun (a : Int) e => a + (win.getD e.1 (0, 0)).1 * e.2) 0
    let w := rcos (k + 1) n
    roundAway ((o / 2 ^ 62) * (2 ^ 62 - (w : Int)) + x * w) (2 ^ 62)

/-- log2db of R214 for a magnitude in Q9.39: within 0.01 dB of the exact level, units of 2^-16 centi-dB. -/
def levelOf (m : Nat) : Int := freeIn (cdbQ m 39 - 65536) (cdbQ m 39 + 65536) (Config.log2db m)

/-- pow2db of R214: at most 0.01 dB below the exact factor and never above it, which is what the bias of the ceiling term
leaves for the guarantee of R216 (log 126); units of 2^-96. -/
def gainOf (g : Int) : Int := freeIn (gainQ (g - 65536)) (gainQ g) (Config.pow2db g)

/-- Trim, limiter and final saturator of one bus for one frame from its sum (R209 to R214): the bus, its sample, and
the accumulator's and the trim's saturation. The products of the trim and of the limiter's gain are rounded to nearest with
ties to even at 2^-39, which the rule gives for the final saturator alone (log 12). -/
def Bus.frame (b : Bus) (rate : Nat) (sum : Int) : Bus × Int × Bool × Bool :=
  let (acc, sa) := satQ9 sum
  let tf := fadeVal b.trimF (factor b.trim)
  let (x, st) := satQ9 (rne (acc * tf) 96)
  let d := laFrames rate b.la
  let lvl : Option Int := if x = 0 then none else some (levelOf x.natAbs)
  let thr := fadeVal b.thrF (cdb b.thr)
  let ceil := fadeVal b.ceilF (cdb b.ceil)
  let gs := limStatic lvl thr (cdb (10 * b.knee))
  let gc := match lvl with
    | none => 0
    | some l => min 0 (ceil - cdb 1 - l)
  let env := b.env + (expCoef rate (if gs < b.env then b.att else b.rel * 100) : Int) * (gs - b.env) / 2 ^ 32
  let win := (x, gc) :: b.win.take (msFrames 2 rate)
  let goal := if b.byp then 0 else min env (limHard d win)
  let g := match b.bypF with
    | none => goal
    | some f => f.m + (goal - f.m) * (f.k + 1 : Nat) / (max 1 f.n : Nat)
  let tap := laTap win d b.laF
  let y := if g = 0 then tap else rne (tap * gainOf g) 96
  let z := rne y 8
  ({ b with
      env := env, win := win, g := g, grMax := min b.grMax g,
      bypF := advFade b.bypF,
      laF := match b.laF with
        | some (o, k, n) => if n ≤ k + 1 then none else some (o, k + 1, n)
        | none => none,
      fsat := b.fsat || decide (satQ31 z ≠ z), bsat := b.bsat || sa || st,
      satRun := sa || st, satCnt := if (sa || st) && !b.satRun then satInc 31 b.satCnt else b.satCnt },
    satQ31 z, sa, st)

/-- Bus n's work in frame fr: its output is source BUSn, and the first frame of a saturation run may raise BUS_SAT
(R208). A bus at rest that sums to zero stays at rest. -/
def busWork (fr n : Nat) (s : State) : State :=
  let b := s.bus n
  let sum := busSum s n
  if b = {} ∧ sum = 0 then s else
  let (b', y, sa, st) := b.frame s.tm.rate sum
  let s1 := { s with
    buses := tset n b' s.buses,
    eng := { s.eng with src := if y = 0 then s.eng.src else tset (0x260 + n) { v := y } s.eng.src } }
  if (sa || st) && !b.satRun then
    s1.raiseLim 0x201 n 100000000 (le 1 n ++ le 1 (if sa then 0 else 1) ++ le 2 0 ++ le 4 (fr % 2 ^ 32))
  else s1

/-- Frames left to the commits in fade; a commit whose last fade frame this is keeps that frame and its boundary
(R234). -/
def mixJobsFrame (fr t : Nat) (s : State) : State :=
  { s with mixJobs := s.mixJobs.map fun j =>
      if j.left = 0 then j else if j.left = 1 then { j with left := 0, endFr := fr, endT := t } else { j with left := j.left - 1 } }

/-! ### MIX_STAGE (R228 to R232) -/

def mixStageLen (p : Packet) : Option Err :=
  failIf (!decide (p.len = if p.u8 16 ≤ 1 then 24 + 8 * p.u16 18 else 24))
    { status := stBadLen, ofs := 4, detail := p.u16 18 }

/-- Field offsets of record i. -/
def recOfs (i : Nat) : Nat := 24 + 8 * i

def stageEntryErr (p : Packet) (s : State) (i : Nat) : Option Err :=
  let o := recOfs i
  let e := p.u16 o
  let b := p.u8 (o + 4)
  firstErr [need (decide (e < s.nMix)) o e,
    need (!((List.range i).any fun k => decide (p.u16 (recOfs k) = e))) o e,
    need (decide (p.u16 (o + 2) < 1024) && s.srcOk (p.u16 (o + 2))) (o + 2) (p.u16 (o + 2)),
    need (decide (b < s.nBus)) (o + 4) b, p.zero (o + 5) 1, need (gainOk (p.s16 (o + 6))) (o + 6) e]

/-- THR and CEIL that a bus record would leave in STAGE. -/
def stageThr (p : Packet) (s : State) (o : Nat) : Int := if bit (p.u8 (o + 1)) 1 then p.s16 (o + 4) else (s.bus (p.u8 o)).sthr
def stageCeil (p : Packet) (s : State) (o : Nat) : Int := if bit (p.u8 (o + 1)) 2 then p.s16 (o + 6) else (s.bus (p.u8 o)).sceil

def stageBusErr (p : Packet) (s : State) (i : Nat) : Option Err :=
  let o := recOfs i
  let b := p.u8 o
  let w := p.u8 (o + 1)
  let inDb (x : Int) : Bool := decide (-4000 ≤ x) && decide (x ≤ 0)
  firstErr [need (decide (b < s.nBus)) o b,
    need (!((List.range i).any fun k => decide (p.u8 (recOfs k) = b))) o b,
    need (decide (w &&& 0xE0 = 0) && decide (w &&& 0x0F ≠ 0)) (o + 1) w,
    failIf (bit w 0 && !gainOk (p.s16 (o + 2))) (badParam (o + 2) b),
    failIf (bit w 1 && !inDb (p.s16 (o + 4))) (badParam (o + 4) b),
    failIf (bit w 2 && !inDb (p.s16 (o + 6))) (badParam (o + 6) b),
    failIf (decide (stageCeil p s o < stageThr p s o)) (badParam (o + 4) b)]

def mixStageChk (p : Packet) (s : State) : Option Err :=
  let m := p.u8 16
  let n := p.u16 18
  let f := p.u16 20
  let lim := if m = 4 then s.nBus else s.nMix
  firstErr ([need (decide (m ≤ 5)) 16 m, p.zero 17 1,
    need (if m = 5 then decide (n = 0) else decide (1 ≤ n) && decide (n ≤ 125)) 18 n,
    failIf (decide (2 ≤ m) && decide (m ≤ 4) && decide (lim < f + n)) (badParam 20 (max f lim)),
    need (decide (2 ≤ m) && decide (m ≤ 4) || decide (f = 0)) 20 f, p.zero 22 2] ++
    (if m = 0 then (List.range n).map (stageEntryErr p s)
     else if m = 1 then (List.range n).map (stageBusErr p s) else []))

/-- A write to STAGE marks its parameter pending (R220). -/
def stageEntry (p : Packet) (i : Nat) (s : State) : State :=
  let o := recOfs i
  s.setMixE (p.u16 o) { s.mixE (p.u16 o) with
    ssrc := p.u16 (o + 2), sbus := p.u8 (o + 4), sgain := p.s16 (o + 6), pend := true }

def stageBus (p : Packet) (i : Nat) (s : State) : State :=
  let o := recOfs i
  let w := p.u8 (o + 1)
  let b := s.bus (p.u8 o)
  let b1 := if bit w 0 then { b with strim := p.s16 (o + 2), pTrim := true } else b
  let b2 := if bit w 1 then { b1 with sthr := p.s16 (o + 4), pThr := true } else b1
  let b3 := if bit w 2 then { b2 with sceil := p.s16 (o + 6), pCeil := true } else b2
  s.setBus (p.u8 o) (if bit w 3 then { b3 with sbyp := bit w 4, pByp := true } else b3)

/-- STAGE set to the LIVE targets, no mark left (R228). -/
def MixE.discard (e : MixE) : MixE := { e with ssrc := e.src, sbus := e.bus, sgain := e.gain, pend := false }
def Bus.discard (b : Bus) : Bus :=
  { b with strim := b.trim, sthr := b.thr, sceil := b.ceil, sbyp := b.byp,
           pTrim := false, pThr := false, pCeil := false, pByp := false }

/-- Read records of R231. -/
def stageRec (e : MixE) : List Byte :=
  le 2 e.ssrc ++ le 1 e.sbus ++ le 1 (b2n (dly1 e.ssrc e.sbus) + 2 * b2n e.pend) ++ le 2 (uns 16 e.sgain) ++ le 2 (uns 16 e.sgain)
def liveRec (e : MixE) : List Byte :=
  le 2 e.src ++ le 1 e.bus ++ le 1 (b2n (dly1 e.src e.bus) + 4 * b2n (fading e.fade) + 8 * b2n e.shadow.isSome) ++
  le 2 (uns 16 e.gain) ++ le 2 (ampCode e.amp e.fade e.gain)
def busRec (k : Nat) (b : Bus) : List Byte :=
  le 1 k ++ le 1 (flags [b.pTrim, b.pThr, b.pCeil, b.pByp, b.sbyp]) ++ le 2 (uns 16 b.strim) ++ le 2 (uns 16 b.sthr) ++
  le 2 (uns 16 b.sceil)

def mixStageApply (id : Nat) (p : Packet) (t : Nat) (s : State) : State :=
  let m := p.u8 16
  let n := p.u16 18
  let f := p.u16 20
  let head := le 4 s.frame32 ++ le 2 n ++ le 2 0
  if m = 0 then (forUpto n (stageEntry p) s).finishOk id [] t
  else if m = 1 then (forUpto n (stageBus p) s).finishOk id [] t
  else if m = 2 then s.finishOk id (head ++ (List.range n).flatMap fun i => stageRec (s.mixE (f + i))) t
  else if m = 3 then s.finishOk id (head ++ (List.range n).flatMap fun i => liveRec (s.mixE (f + i))) t
  else if m = 4 then s.finishOk id (head ++ (List.range n).flatMap fun i => busRec (f + i) (s.bus (f + i))) t
  else ({ s with mix := tmap (fun e => e.discard) s.mix,
                 buses := tmap (fun b => b.discard) s.buses }).finishOk id [] t

/-! ### MIX_COMMIT (R221 to R226, R233 to R235) -/

/-- An entry this commit changes. -/
def MixE.changed (e : MixE) : Bool :=
  e.pend && (decide (e.ssrc ≠ e.src) || decide (e.sbus ≠ e.bus) || decide (e.sgain ≠ e.gain))
def MixE.moves (e : MixE) : Bool := e.pend && (decide (e.ssrc ≠ e.src) || decide (e.sbus ≠ e.bus))

def Bus.changed (b : Bus) : Bool :=
  (b.pTrim && decide (b.strim ≠ b.trim)) || (b.pThr && decide (b.sthr ≠ b.thr)) ||
  (b.pCeil && decide (b.sceil ≠ b.ceil)) || (b.pByp && (b.sbyp ^^ b.byp))

/-- The lowest entry whose shadow a commit would conflict with (R224). -/
def State.shadowConflict (s : State) : Option Nat :=
  match s.mix.find? fun e => e.2.moves && e.2.shadow.isSome with
  | some e => some e.1
  | none => none

/-- A fade from m to t over n frames, where the parameter changed or a fade runs; with n = 0 the target is there in the next
performed frame, and until then m is the momentary value (R222). -/
def startFade (m t : Int) (n : Nat) (old : Option Fade) (changed : Bool) : Option Fade :=
  if changed || old.isSome then some { m := m, t := t, n := n } else none

/-- An entry at a commit with fades of n frames (R221 to R224). A change of source or bus alone, on an entry that is silent,
starts no fade, and one of n = 0 no shadow. -/
def MixE.commit (e : MixE) (n : Nat) : MixE :=
  let m := e.amp
  let e1 : MixE := if e.pend then { e with src := e.ssrc, bus := e.sbus, gain := e.sgain, pend := false } else e
  let sh : Option Shadow := match e.shadow with
    | none => none
    | some h => if n = 0 then none else some { h with f := { m := h.f.now, t := 0, n := n } }
  if e.moves then
    { e1 with fade := startFade 0 (factor e1.gain) n e.fade (decide (m ≠ 0) || decide (e.sgain ≠ e.gain)),
              shadow := if n = 0 ∨ m = 0 then sh else some { src := e.src, bus := e.bus, f := { m := m, t := 0, n := n } } }
  else { e1 with fade := startFade m (factor e1.gain) n e.fade e.changed, shadow := sh }

/-- BYP changes from its present value: the applied gain moves over 5 ms (R217). -/
def Bus.setByp (b : Bus) (v : Bool) (rate : Nat) : Bus :=
  if b.byp = v then b
  else { b with byp := v, env := if v then b.env else 0, bypF := some { m := b.g, t := 0, n := msFrames 5 rate } }

def Bus.commit (b : Bus) (n rate : Nat) : Bus :=
  let b1 : Bus := { b with
    trim := if b.pTrim then b.strim else b.trim, thr := if b.pThr then b.sthr else b.thr,
    ceil := if b.pCeil then b.sceil else b.ceil }
  let b2 : Bus := { b1 with
    trimF := startFade (fadeVal b.trimF (factor b.trim)) (factor b1.trim) n b.trimF (decide (b1.trim ≠ b.trim)),
    thrF := startFade (fadeVal b.thrF (cdb b.thr)) (cdb b1.thr) n b.thrF (decide (b1.thr ≠ b.thr)),
    ceilF := startFade (fadeVal b.ceilF (cdb b.ceil)) (cdb b1.ceil) n b.ceilF (decide (b1.ceil ≠ b.ceil)),
    pTrim := false, pThr := false, pCeil := false, pByp := false }
  if b.pByp then b2.setByp b.sbyp rate else b2

/-- The result of MIX_COMMIT (R234). -/
def MixJob.data (j : MixJob) (fl endFr : Nat) : List Byte :=
  le 2 j.nEntry ++ le 1 j.nBusp ++ le 1 fl ++ le 2 j.nShadow ++ le 2 0 ++ le 4 j.commitFr ++ le 4 endFr

/-- The commits in hand complete: at their own last frame where it has passed before frame fr, else with a flag at frame fr; one
of frame fr itself that starts no fade gets OVERTAKEN too (R223, R226). -/
def mixJobsEnd (fl fr t : Nat) (s : State) : State :=
  { (s.mixJobs.foldl (fun a j =>
      if j.left = 0 ∧ (fl = 2 ∨ j.commitFr ≠ fr % 2 ^ 32) then a.finishOk j.id (j.data 0 (j.endFr % 2 ^ 32)) j.endT
      else a.finishOk j.id (j.data fl (fr % 2 ^ 32)) t) s) with mixJobs := [] }

def mixCommitLen (p : Packet) : Option Err := lenIs p 20

def mixCommitChk (p : Packet) (s : State) : Option Err :=
  firstErr [p.within 16 2 0 200, p.zero 18 2, stateIf s.inListen 0,
    match s.shadowConflict with
    | some e => some { status := stBusy, detail := e }
    | none => none]

/-- A fade runs anywhere in the mix. -/
def State.mixFading (s : State) : Bool :=
  (s.mix.any fun e => fading e.2.fade || e.2.shadow.isSome) ||
  s.buses.any fun b => fading b.2.trimF || fading b.2.thrF || fading b.2.ceilF

/-- MIX_COMMIT at frame c (R221 to R224, R234, R235). Earlier commits whose fades run, and earlier ones of the same frame,
complete with OVERTAKEN (R223). One that starts no fade completes when the frame's work begins, at B(c). -/
def mixCommitApply (id : Nat) (p : Packet) (t : Nat) (s : State) : State :=
  match s.shadowConflict with
  | some e => s.finishErr id { status := stBusy, detail := e } t
  | none =>
    let n := msFrames (p.u16 16) s.tm.rate
    let fr := s.apFrame
    let s1 := mixJobsEnd 1 fr t s
    let nE := (s.mix.filter fun e => e.2.changed).length
    let nB := (s.buses.filter fun b => b.2.changed).length
    let nS := if n = 0 then 0 else (s.mix.filter fun e => e.2.moves && decide (e.2.amp ≠ 0)).length
    let s2 := { s1 with
      mix := tmap (fun e => e.commit n) s1.mix,
      buses := tmap (fun b => b.commit n s.tm.rate) s1.buses }
    { s2 with mixJobs := s2.mixJobs ++ [{ id := id, nEntry := nE, nBusp := nB, nShadow := nS, commitFr := fr % 2 ^ 32,
                                          left := if s2.mixFading then n else 0, endFr := fr, endT := t }] }

/-- Commits whose last fade frame has passed complete, and those that started no fade, unless another commit of their frame may
still come: that is settled when the frame's work begins (R223, R234). -/
def mixJobsDone (keep : Option Nat) (s : State) : State :=
  let out (j : MixJob) : Bool := decide (j.left = 0) && !decide (keep = some j.commitFr)
  { (s.mixJobs.foldl (fun a j => if out j then a.finishOk j.id (j.data 0 (j.endFr % 2 ^ 32)) j.endT else a) s) with
    mixJobs := s.mixJobs.filter fun j => !out j }

/-- The frame at hand while its work has not begun. -/
def State.openFrame (s : State) : Option Nat := s.eng.pendSet.map fun x => x.1 % 2 ^ 32

/-- MIX_FADE_END: commits whose last fade frame has passed complete (R234). -/
def mixFadeEndStep (s : State) : State := mixJobsDone s.openFrame s

/-! ### BUS_CFG and LIMITER_CFG (R225, R236 to R239) -/

def busCfgLen (p : Packet) : Option Err := lenIs p 24

/-- The span FIRST_BUS, COUNT lies within the existing buses. -/
def busSpanErr (p : Packet) (s : State) (maxN : Nat) : List (Option Err) :=
  [need (decide (p.u8 16 < s.nBus)) 16 (p.u8 16), p.within 17 1 1 maxN,
   failIf (decide (s.nBus < p.u8 16 + p.u8 17)) (badParam 17 s.nBus)]

def busCfgChk (p : Packet) (s : State) : Option Err :=
  firstErr (busSpanErr p s 32 ++ [p.clr 18 1 0xFC, p.zero 19 1,
    failIf (bit (p.u8 18) 0 && !gainOk (p.s16 20)) (badInt 20 (p.s16 20)), p.withinIf (bit (p.u8 18) 0) 22 2 0 1000])

/-- A direct trim from the momentary value over n frames, TRIM_FADE ms (R225, R236); STAGE follows unless it holds a pending
change. -/
def Bus.direct (b : Bus) (trim : Int) (ms n : Nat) : Bus :=
  { b with trim := trim, trimFade := ms, trimF := some { m := fadeVal b.trimF (factor b.trim), t := factor trim, n := n },
           strim := if b.pTrim then b.strim else trim }

/-- The 16 bytes of a bus (R237); the gain reductions are rounded to whole centi-dB, a half away from zero (log 166). -/
def busState (s : State) (k : Nat) : List Byte :=
  let b := s.bus k
  let entFade := s.mix.any fun e => (decide (e.2.bus = k) && fading e.2.fade) ||
    (match e.2.shadow with | some h => decide (h.bus = k) | none => false)
  let gr := if b.byp ∧ b.bypF = none then 0 else roundAway b.g 65536
  le 2 (ampCode (fadeVal b.trimF (factor b.trim)) b.trimF b.trim) ++ le 2 (uns 16 b.trim) ++ le 2 (uns 16 gr) ++
  le 2 (uns 16 (roundAway b.grMax 65536)) ++
  le 1 (flags [b.bsat, b.fsat, b.byp, fading b.trimF || fading b.thrF || fading b.ceilF || entFade,
               b.laF.isSome || b.bypF.isSome]) ++
  le 1 b.la ++ le 2 (laFrames s.tm.rate b.la) ++ le 4 (satWord b.satCnt)

/-- BUS_CFG: direct trim, then the latch, then the clears (R236, R237); in Listen the trim is a step at the first
frame. -/
def busCfgApply (id : Nat) (p : Packet) (t : Nat) (s : State) : State :=
  let ks := (List.range (p.u8 17)).map fun i => p.u8 16 + i
  let n := if s.inListen then 0 else msFrames (p.u16 22) s.tm.rate
  let s1 := if bit (p.u8 18) 0 then forEach ks (fun k a => a.setBus k ((a.bus k).direct (p.s16 20) (p.u16 22) n)) s else s
  let fr := if s.inListen then s.frame32 else s.apFrame % 2 ^ 32
  let data := le 4 fr ++ le 2 (p.u8 17) ++ le 2 0 ++ ks.flatMap (busState s1)
  let s2 := if bit (p.u8 18) 1 then
      forEach ks (fun k a => a.setBus k { a.bus k with bsat := false, fsat := false, satCnt := (0, false), grMax := 0 }) s1
    else s1
  s2.finishOk id data t

def limiterCfgLen (p : Packet) : Option Err := lenIs p 32

/-- THR and CEIL a LIMITER_CFG would leave in LIVE. -/
def limThr (p : Packet) (b : Bus) : Int := if bit (p.u16 18) 0 then p.s16 20 else b.thr
def limCeil (p : Packet) (b : Bus) : Int := if bit (p.u16 18) 1 then p.s16 22 else b.ceil

def limiterCfgChk (p : Packet) (s : State) : Option Err :=
  let w := p.u16 18
  firstErr (busSpanErr p s 128 ++ [need (decide (w &&& 0xFF80 = 0) && decide (w ≠ 0)) 18 w,
    p.swithinIf (bit w 0) 20 2 (-4000) 0, p.swithinIf (bit w 1) 22 2 (-4000) 0, p.withinIf (bit w 3) 24 2 5 5000,
    p.withinIf (bit w 4) 26 2 5 2000, p.withinIf (bit w 2) 28 1 0 60, p.withinIf (bit w 5) 29 1 0 3,
    p.withinIf (bit w 6) 30 1 0 1, p.zero 31 1] ++
    (List.range (p.u8 17)).map fun i =>
      failIf (decide (limCeil p (s.bus (p.u8 16 + i)) < limThr p (s.bus (p.u8 16 + i)))) (badParam 20 (p.u8 16 + i)))

/-- A new lookahead: the output crossfades from the present tap or blend over 10 ms (R217). -/
def Bus.setLa (b : Bus) (code rate : Nat) (now : Bool) : Bus :=
  if b.la = code then b
  else if now then { b with la := code, laF := none }
  else
    let old : List (Nat × Nat) := match b.laF with
      | none => [(laFrames rate b.la, 2 ^ 62)]
      | some (o, k, n) =>
        let w := rcos k n
        (o.map fun e => (e.1, e.2 * (2 ^ 62 - w) / 2 ^ 62)) ++ [(laFrames rate b.la, w)]
    { b with la := code, laF := some (old, 0, msFrames 10 rate) }

/-- Direct limiter parameters of one bus (R217, R225, R238); `now` in Listen, without transition (R239). -/
def Bus.limCfg (b : Bus) (p : Packet) (rate : Nat) (now : Bool) : Bus :=
  let w := p.u16 18
  let n := if now then 0 else msFrames 10 rate
  let f0 : Option Fade := some { m := fadeVal b.thrF (cdb b.thr), t := cdb (p.s16 20), n := n }
  let f1 : Option Fade := some { m := fadeVal b.ceilF (cdb b.ceil), t := cdb (p.s16 22), n := n }
  let b1 : Bus := if bit w 0 then
    { b with thr := p.s16 20, thrF := f0, sthr := if b.pThr then b.sthr else p.s16 20 } else b
  let b2 : Bus := if bit w 1 then
    { b1 with ceil := p.s16 22, ceilF := f1, sceil := if b.pCeil then b.sceil else p.s16 22 } else b1
  let b3 : Bus := if bit w 2 then { b2 with knee := p.u8 28 } else b2
  let b4 : Bus := if bit w 3 then { b3 with att := p.u16 24 } else b3
  let b5 : Bus := if bit w 4 then { b4 with rel := p.u16 26 } else b4
  let b6 : Bus := if bit w 5 then b5.setLa (p.u8 29) rate now else b5
  if bit w 6 then
    let v := decide (p.u8 30 = 1)
    let b7 := if now then { b6 with byp := v, env := if b6.byp && !v then 0 else b6.env, bypF := none } else b6.setByp v rate
    { b7 with sbyp := if b.pByp then b.sbyp else v }
  else b6

def limiterCfgApply (id : Nat) (p : Packet) (t : Nat) (s : State) : State :=
  (forEach ((List.range (p.u8 17)).map fun i => p.u8 16 + i)
    (fun k a => a.setBus k ((a.bus k).limCfg p s.tm.rate s.inListen)) s).finishOk id [] t

/-- RESET_UNIT of the mix (R226): commits in fade complete with STOPPED. -/
def mixReset (s : State) : State :=
  let s1 := mixJobsEnd 2 s.apFrame s.nowNs s
  { s1 with mix := [], buses := [] }

/-- An entry that counts as configured (R203). -/
def MixE.configured (e : MixE) : Bool :=
  decide (e.gain ≠ muteCode) || (decide (e.sgain ≠ muteCode)) || e.fade.isSome || e.shadow.isSome ||
  decide (e.src ≠ silence) || decide (e.ssrc ≠ silence)

def execMixFadeEnd (dt : Nat) (s : State) : Host.Outcome State Fault Refusal := run (.mixFadeEnd dt) s mixFadeEndStep

end Sys2Proof.Machine
end

