-- ==== Sys2Proof/Machine/Ain.lean ====
section
/-!
DEFINITION. Analogue inputs: front stage, range merge, calibration, overload, trim, pad, chain responses and phase delay; AIN_CFG,
AIN_PAD, MERGE_STATUS, CHAIN_CFG, CHAIN_SYNC and the inputs' timed steps (03 R94 to R129, 04 R130 to R161).
-/
namespace Sys2Proof.Machine
open Sys2Proof

/-- Settle count of a response, F0 to F7 (R133). -/
def settleCount (resp : Nat) : Nat := [72, 40, 72, 56, 12, 24, 20, 28].getD resp 72

/-- Group delay of a response, F0 to F7, in 1/1024 sample (R133). -/
def groupDelay (resp : Nat) : Nat := [36096, 19712, 7424, 6400, 4864, 11520, 9472, 12288].getD resp 36096

/-- Group delay and phase delay of a channel in 1/1024 sample. -/
def Ain.delay (a : Ain) : Nat := groupDelay a.resp + a.pd

/-- A time of ns over a frame period of num / den seconds, in units of 1/(1024 × 10^7) frame. -/
def framesQ (ns num den : Nat) : Nat := 10240 * ns * den / (1000 * num)

/-- Capture lag at a frame period of num / den seconds, in units of 1/(1024 × 10^7) frame: lag / T (R143). -/
def Ain.lagNum (a : Ain) (num den : Nat) : Nat := a.delay * 10000000 + framesQ 400 num den

/-- Capture lag in ns, rounded (R143, R158). -/
def Ain.lagNs (a : Ain) (num den : Nat) : Nat := (2 * a.delay * 1000000000 * num + 1024 * den) / (2048 * den) + 400

/-- First valid frame after a reset at frame r (R141). -/
def Ain.validAt (a : Ain) (r : Nat) : Nat := r + settleCount a.resp + ceilDiv a.pd 1024

/-- A synchronising reset at frame r: every filter, merge and phase-delay state is cleared, so that the first merged sample,
of index 8r, has sixteen cleared ones before the first to arrive (R140, R104, R131). -/
def Ain.sync (a : Ain) (r : Nat) : Ain :=
  { a with
    tap := none, free := 0, resetFr := r, firstValid := a.validAt r, settling := true, path := 0, fading := false, tgt := 0, f0 := 0,
    lastBadM := 8 * r, lastBadH := 8 * r, k := 8 * r, mods := [], look := List.replicate 16 {}, past := [], raw := {},
    cmp := {}, comp := [], ovls := [], quiet := 0, cal := [], lm := { a.lm with at0 := 8 * r }, mh := { a.mh with at0 := 8 * r } }

/-- The frame in which a reset between boundaries takes place. -/
def State.nextFrame (s : State) : Nat :=
  match s.eng.pendSet with
  | some (n, _) => n
  | none => if s.tm.begun then s.tm.frame + 1 else 0

/-! ### Front stage (R99, R130 to R132) -/

/-- Modulator samples of a path in a frame (R132). -/
def modCount (rate : Nat) : Nat := if rate ≤ 48000 then 128 else if rate ≤ 96000 then 64 else 32

/-- The taps of the fifth-order CIC that decimates by 4: (1 + z + z² + z³)^5 / 1,024 (R130). -/
def cicTaps : List Int := [1, 5, 15, 35, 65, 101, 135, 155, 155, 135, 101, 65, 35, 15, 5, 1]

/-- Outputs of the CIC over a path's modulator samples, newest first, in units of 2^-41. -/
def cicOut : Nat → List Int → List Int
  | 0, _ => []
  | n + 1, x => ((cicTaps.zip x).foldl (fun (a : Int) e => a + e.1 * e.2) 0) :: cicOut n (x.drop 4)

/-- An intermediate sample of a path: CIC by 4, then two, one or no half-band stages, padded where there is none (R130, R131). -/
def frontOut (rate : Nat) (x : List Int) : Int :=
  let c := cicOut 128 x
  clampI q31Min q31Max (if rate ≤ 48000 then Config.halfBand 2 c else if rate ≤ 96000 then Config.halfBand 1 c
    else roundAway (c.getD Config.frontPad 0) 1024)

/-- The modulator samples, newest first, that an intermediate one is formed from: those of one output of the CIC at 176.4 and
192 kHz, else as many as the half-band stages reach back over (R100, R130, R131). -/
def frontUsed (rate : Nat) (mods : List Tri) : List Tri :=
  if 96000 < rate then (mods.drop (4 * Config.frontPad)).take 16 else mods.take (max 16 (Config.frontSpan rate))

/-- The intermediate instant at the newest of the modulator samples; an end code counts while its sample contributes (R100). -/
def front (rate : Nat) (mods : List Tri) : Tri :=
  let used := frontUsed rate mods
  { l := frontOut rate (mods.map (·.l)), m := frontOut rate (mods.map (·.m)), h := frontOut rate (mods.map (·.h)),
    lTop := used.any (·.lTop), mTop := used.any (·.mTop), hTop := used.any (·.hTop) }

/-! ### Merge (R100 to R103) -/

/-- An intermediate sample of a path is bad (R100). -/
def badSmp (v : Int) (top : Bool) : Bool := top || decide (8414 * 2 ^ 31 ≤ v.natAbs * 10000)

def triBad (t : Tri) (rank : Nat) : Bool :=
  if rank = 0 then badSmp t.l t.lTop else if rank = 1 then badSmp t.m t.mTop else badSmp t.h t.hTop

/-- Path of a rank is clean over the window k to k + 16 (R102); L always is (R103). -/
def cleanIn (w : List Tri) (rank : Nat) : Bool := decide (rank = 0) || !(w.any fun t => triBad t rank)

/-- The highest clean path below a rank. -/
def bestBelow (w : List Tri) (rank : Nat) : Nat := if 1 < rank ∧ cleanIn w 1 then 1 else 0

/-- Estimates of a channel's pair: the seeds until the first update (R107). -/
def pairEst (p : Pair) (ch pair q : Nat) : Int :=
  let x := if q = 0 then p.g else if q = 1 then p.d else p.o
  match x with
  | some v => v
  | none => Config.seed ch pair q * 65536

/-- A sample brought into the scale of the path below through a gain ratio in 2^-16 microdB: times 2^-96. -/
def ratioQ (g : Int) : Nat := pow2Q (-(g * cdbLog) / 655360000)

/-- A path's history delayed by 2^-16 ps. -/
def delayed (rate : Nat) (d : Int) (x : List Int) : Int := if d = 0 then x.headD 0 else Config.fracDelay rate d x

/-- Calibrated sample of a path from its raw history, newest first: delayed, divided by its gain ratio and less its offset, H
by way of the M scale (R101). -/
def calSample (a : Ain) (ch rate rank : Nat) (hist : List Tri) : Int :=
  let g := pairEst a.lm ch 0 0
  let d := pairEst a.lm ch 0 1
  let o := pairEst a.lm ch 0 2
  let fit (x : Int) (g o : Int) : Int := roundAway (x * ratioQ g * 65536 - o * 2 ^ 96) (2 ^ 112)
  if rank = 0 then (hist.headD {}).l
  else if rank = 1 then fit (delayed rate d (hist.map (·.m))) g o
  else fit (delayed rate (d + pairEst a.mh ch 1 1) (hist.map (·.h))) (g + pairEst a.mh ch 1 0) (o + pairEst a.mh ch 1 2)

/-- Intermediate samples of 1 ms: fade_n (R103). -/
def msInter (rate : Nat) : Nat := (2 * 8 * rate + 1000) / 2000

/-- A history at another level: every sample changed by centi-dB. -/
def Hist.scale (h : Hist) (d : Int) : Hist :=
  let f (x : Int) : Int := roundAway (x * gainQ (d * 65536)) (2 ^ 96)
  { merged := h.merged.map f, fir := h.fir.map f }

/-- The sum of the compensated steps that lie after merged sample k (R120). -/
def Ain.compAt (a : Ain) (k : Nat) : Int := a.comp.foldl (fun s e => if k < e.1 then s + e.2 else s) 0

/-- Below -40 dBFS (R119). -/
def quietSmp (x : Int) : Bool := decide (x.natAbs ≤ 21474836)

/-- One merged sample from the window of 17 samples at instant k: the procedure of R103; `dead` while the channel delivers
zero (R106). A fade whose last instant lay in a discarded frame (R30) ends with the next merged sample. -/
def Ain.mergeOne (a : Ain) (ch rate : Nat) (dead : Bool) (w : List Tri) : Ain :=
  let holdN := (2 * a.hold * 8 * rate + 10000) / 20000
  let fadeN := msInter rate
  let t0 := w.headD {}
  let hist := t0 :: a.past
  let lbM := if cleanIn w 1 then a.lastBadM else a.k
  let lbH := if cleanIn w 2 then a.lastBadH else a.k
  let abandon := a.fading && !cleanIn w a.tgt
  let cur1 := if abandon then bestBelow w a.tgt else a.path
  let fad1 := a.fading && !abandon
  let drop1 := !fad1 && !cleanIn w cur1
  let cur2 := if drop1 then bestBelow w cur1 else cur1
  let moved := if abandon || drop1 then satInc 31 a.switchCnt else a.switchCnt
  let up : Option Nat :=
    if fad1 then none
    else if cur2 < 2 ∧ lbH + holdN ≤ a.k then some 2
    else if cur2 < 1 ∧ lbM + holdN ≤ a.k then some 1 else none
  let fad2 := fad1 || up.isSome
  let tgt := up.getD a.tgt
  let f0 := if up.isSome then a.k else a.f0
  let last := fad2 && decide (fadeN ≤ a.k - f0)
  let y := if fad2 then blend (rcos (min (a.k - f0) fadeN) fadeN) (calSample a ch rate cur2 hist) (calSample a ch rate tgt hist)
           else calSample a ch rate cur2 hist
  let ovl := triBad t0 0 && decide (q31Max ≤ (y.natAbs : Int))
  let c := a.compAt a.k
  let yc := if c = 0 then y else roundAway (y * gainQ (-c * 65536)) (2 ^ 96)
  let smp : CalSmp := { k := a.k, t := t0, cleanM := cleanIn w 1, cleanH := cleanIn w 2, dead := dead }
  { a with
      lastBadM := lbM, lastBadH := lbH, path := if last then tgt else cur2, fading := fad2 && !last, tgt := tgt, f0 := f0,
      switchCnt := if last then satInc 31 moved else moved,
      k := a.k + 1, past := hist.take 32, raw := { a.raw with merged := y :: a.raw.merged.take 1023 },
      cmp := { a.cmp with merged := yc :: a.cmp.merged.take 1023 }, comp := a.comp.filter fun e => decide (a.k < e.1 + 1024),
      ovls := (if ovl then [a.k] else []) ++ a.ovls.filter (fun e => decide (a.k < e + 1200)),
      quiet := if quietSmp y then a.quiet + 1 else 0, cal := smp :: a.cal.take (2 * fadeN) }

/-- Trim by `d` centi-dB: value, target and the whole of a fade in progress, a fade to mute too, so that the momentary trim moves
by exactly d; a muted trim stays muted (R120, R121). -/
def Ain.trimShift (a : Ain) (d : Int) : Ain :=
  { a with
    trim := if a.trim = muteCode then a.trim else a.trim + d,
    tf := a.tf.map fun f => { f with m := f.m + cdb d, t := f.t + cdb d } }

/-- A step of the pad by `d` centi-dB, matched in the trim from the sample captured with it on: capture index `at0` (R120). -/
def Ain.compStep (a : Ain) (at0 : Nat) (d : Int) : Ain :=
  if a.trim = muteCode ∧ a.tf = none then a
  else { a.trimShift d with cmp := a.cmp.scale (-d), comp := a.comp ++ [(at0, d)] }

/-- The pad's setting is its target. -/
def Ain.padGo (a : Ain) (target : Bool) : Ain := { a with pad := target, padJob := none }

/-- The first merged index captured at e ns after B(fr) or later, at a frame period of num / den seconds (R131). -/
def captureIdx (fr num den : Nat) (e : Int) : Nat :=
  let x := (e + 400) * 8 * (den : Int)
  let d : Int := 1000000000 * (num : Int)
  ((8 * fr + 33 : Nat) + (x + d - 1) / d).toNat

/-- One intermediate sample arrives, the idx-th counted from frame 0: it completes a window of 17, and a quiet pad change
follows at the first instant of the search where the merged signal has stayed quiet over 1 ms and the L path is quiet over
the look-ahead (R102, R119). -/
def Ain.arrive (a : Ain) (ch rate idx cidx : Nat) (dead : Bool) (t : Tri) : Ain :=
  let look := a.look ++ [t]
  let a1 := if look.length < 17 then { a with look := look }
            else { a.mergeOne ch rate dead look with look := look.drop 1 }
  match a1.padJob with
  | some j =>
    if j.stepping = none ∧ idx < j.until0 ∧ msInter rate + 1 ≤ a1.quiet ∧ (a1.look.all fun x => quietSmp x.l) then
      (if j.comp then a1.compStep cidx (if j.target then 1000 else -1000) else a1).padGo j.target
    else a1
  | none => a1

/-- Momentary trim in 2^-16 centi-dB; none when muted (R117). -/
def Ain.trimNow (a : Ain) : Option Int :=
  match a.tf with
  | some f => some f.now
  | none => if a.trim = muteCode then none else some (cdb a.trim)

/-- What a tap pd / 1,024 samples back reads: whole samples are selected, a fraction is interpolated (R136). -/
def tapRead (x : List Int) (pd : Nat) : Int := if pd % 1024 = 0 then x.getD (pd / 1024) 0 else interpRead pd 1024 x

/-- A tap crossfade with k of n frames made: `old` is what the old taps read, weighted in units of 2^-62 (R137, R150). -/
def tapBlend (k n : Nat) (old x : Int) : Int :=
  let w := rcos (k + 1) n
  roundAway (old * ((2 ^ 62 : Int) - w) + x * 2 ^ 62 * w) (2 ^ 124)

/-- A chain's output before trim (R130, R136, R137). -/
def Ain.chain (a : Ain) (h : Hist) : Int :=
  match a.tap with
  | none => tapRead h.fir a.pd
  | some f => tapBlend f.k f.n (f.old.foldl (fun (s : Int) e => s + tapRead h.fir e.1 * e.2) 0) (tapRead h.fir a.pd)

/-- The capture instant of the sample of frame fr behind a phase delay, in 1/1,024 of a merged sample (R131, R143). -/
def Ain.capAt (a : Ain) (fr pd : Nat) : Int := (8 * fr + 33 : Nat) * 1024 - 8 * (groupDelay a.resp + pd : Nat)

/-- The sample of frame fr behind a phase delay is an overload sample: it saturates, an overloaded merged sample was used in
computing it, or it is captured between an overload's end and recovery (R112, R115). From 12 output samples after the last
overloaded merged sample on, every sample is valid (R115). In a tap crossfade the new tap decides (log 12). -/
def Ain.ovlAt (a : Ain) (fr pd : Nat) (y : Int) : Bool :=
  let c := a.capAt fr pd
  let near := a.ovls.filter fun (e : Nat) => decide (c < ((e + 96 : Nat) : Int) * 1024)
  decide (q31Max ≤ y) || decide (y ≤ q31Min) || (!near.isEmpty && Config.ovlUsed a.resp pd fr near) ||
  a.ovls.any fun (e : Nat) => decide ((e : Int) * 1024 ≤ c) && decide (c < ((e + min 96 (Config.ovlTail e) : Nat) : Int) * 1024)

/-- A sample times a trim in 2^-16 centi-dB, none for mute, rounded to nearest (R117, R118). -/
def trimmed (x : Int) : Option Int → Int
  | none => 0
  | some g => roundAway (x * gainQ g) (2 ^ 96)

/-- The trim of the frame at hand. -/
def Ain.trimHere (a : Ain) : Option Int :=
  match a.tf with
  | some f => some (f.adv).now
  | none => a.trimNow

/-- Full scale by the sign of y (R113), at the level that the compensated pad steps after a capture instant leave it (R120). -/
def Ain.clipAt (a : Ain) (c y : Int) : Int :=
  let fs := if y < 0 then q31Min else q31Max
  let d := a.compAt (c / 1024).toNat
  if d = 0 then fs else roundAway (fs * gainQ (-d * 65536)) (2 ^ 96)

/-- The sample y of the raw chain, yc of the compensated one, captured at c, clipped where it is an overload sample, and trimmed. -/
def Ain.deliver (a : Ain) (c : Int) (ovl : Bool) (y yc : Int) : Int := trimmed (if ovl then a.clipAt c y else yc) a.trimHere

/-- One frame of the final FIR (R130). -/
def Ain.firStep (a : Ain) : Ain :=
  let f (h : Hist) : Hist := { h with fir := Config.firOut a.resp h.merged :: h.fir.take 63 }
  { a with raw := f a.raw, cmp := f a.cmp }

/-- The trim fade and the tap crossfade move on by one performed frame. -/
def Ain.fadesStep (a : Ain) : Ain :=
  { a with tf := advFade a.tf, tap := match a.tap with
      | none => none
      | some f => if f.n ≤ f.k + 1 then none else some { f with k := f.k + 1 } }

/-- One frame of a powered channel's chain output through overload and trim (R112, R113, R117, R118): the channel, the
sample and whether an overload run began. -/
def Ain.finish (a : Ain) (fr : Nat) : Ain × Int × Bool :=
  let y := a.chain a.raw
  let ovl := a.ovlAt fr a.pd y
  let z := a.deliver (a.capAt fr a.pd) ovl y (a.chain a.cmp)
  let first := ovl && !a.ovrRun
  ({ a.fadesStep with
      ovr := a.ovr || ovl, ovrRun := ovl, ovrCnt := if first then satInc 31 a.ovrCnt else a.ovrCnt,
      lastOvr := if first then fr % 2 ^ 32 else a.lastOvr, tsat := a.tsat || decide (satQ31 z ≠ z) },
    satQ31 z, first)

/-- The sample of frame fr with its phase delay undone, as the alignment of a stream uses it: zero until the channel's first
valid instant (R147, R149). -/
def Ain.undelayed (a : Ain) (fr : Nat) (priv : Bool) : Int :=
  if priv ∨ fr * 1024 + a.pd < a.firstValid * 1024 then 0
  else
    let y := a.raw.fir.headD 0
    satQ31 (a.deliver (a.capAt fr 0) (a.ovlAt fr 0 y) y (a.cmp.fir.headD 0))

/-- The result of an AIN_PAD (R126). -/
def PadCmd.result (c : PadCmd) : List Byte := le 4 c.quiet ++ le 4 c.step ++ le 4 c.stored ++ le 4 c.same

/-- A pad change of command id on channel ch has ended in the frame that begins at t: kind 0 at a quiet moment, 1 stepped, 2
stored; the command completes with its last channel (R127). -/
def State.padEnd (s : State) (id ch t kind : Nat) : State :=
  let c : PadCmd := tget { left := [] } s.padCmds id
  let c1 : PadCmd := { c with
    left := c.left.filter (· ≠ ch), last := t, quiet := if kind = 0 then c.quiet ||| 2 ^ ch else c.quiet,
    step := if kind = 1 then c.step ||| 2 ^ ch else c.step,
    stored := if kind = 2 then c.stored ||| 2 ^ ch else c.stored }
  if id = 0 then s else
  if c1.left.isEmpty then ({ s with padCmds := tdel id s.padCmds }).finishOk id c1.result t
  else { s with padCmds := tset id c1 s.padCmds }

/-- Steps of a stepped pad change made by now, e ns after B(fr): 20 steps of 0.50 dB, 50 µs apart (R119); each is matched in
the trim with COMP (R120). -/
def Ain.padSteps (a : Ain) (clk fr num den : Nat) (e : Int) : Ain :=
  match a.padJob with
  | some j => match j.stepping with
    | some (t0, k) =>
      let n := min 20 ((clk - t0) / 50000)
      let one (b : Ain) (i : Nat) : Ain :=
        b.compStep (captureIdx fr num den (e - (clk : Int) + (t0 + 50000 * (k + i + 1) : Nat))) (if j.target then 50 else -50)
      let b := if j.comp then (List.range (n - k)).foldl one a else a
      { b with padJob := some { j with stepping := some (t0, n) } }
    | none => a
  | none => a

/-- The steps of channel ch made by now. -/
def State.padNow (s : State) (ch : Nat) : Ain :=
  (s.ain ch).padSteps s.clk s.tm.frame s.perNum s.perDen ((s.clk : Int) - s.eng.lastLatch)

/-- AIN_OVR at the first sample of a run, its DONE the sample's capture instant, at most once per 100 ms (R114). -/
def State.ainOvr (s : State) (ch fr t : Nat) : State :=
  let done := (t + 2 ^ 64 - (s.ain ch).lagNs s.perNum s.perDen) % 2 ^ 64
  let key := 0x401 * 65536 + ch
  let due := match tget? s.evLast key with
    | some last => !decide (done < last + 100000000)
    | none => true
  if due then
    ({ s with evLast := tset key done s.evLast }).raiseAt 0x401 (le 1 ch ++ le 3 0 ++ le 4 (fr % 2 ^ 32)) done
  else s

/-- A frame's modulator samples through front stage and merge: eight intermediate samples arrive (R131, R132). -/
def Ain.frameIn (a : Ain) (ch rate fr cidx : Nat) (dead : Bool) (smp : List Tri) : Ain :=
  let n := modCount rate
  let x := (smp ++ List.replicate n ({ } : Tri)).take n
  (List.range 8).foldl (fun b j =>
    let mods := ((x.drop (j * (n / 8))).take (n / 8)).reverse ++ b.mods.take 496
    ({ b with mods := mods } : Ain).arrive ch rate (8 * fr + j) cidx dead (front rate mods)) { a with k := 8 * fr }

/-- Work of channel ch in frame fr from its modulator samples (R19 step 1); a channel without power delivers zero flagged
SETTLE (R123). -/
def ainWork (fr t : Nat) (inp : InputSet) (ch : Nat) (s : State) : State :=
  let a := s.ain ch
  let priv := s.ainMuted
  if !a.powered then
    { s with eng := { s.eng with src := tset (0x200 + ch) { settle := true, priv := priv } s.eng.src } }
  else
    let smp := match inp.ain.find? fun x => decide (x.ch = ch) with
      | some x => x.smp
      | none => []
    let settle := decide (fr < a.firstValid)
    let a0 := s.padNow ch
    let cidx := captureIdx s.tm.frame s.perNum s.perDen ((s.clk : Int) - s.eng.lastLatch)
    let a1 := (a0.frameIn ch s.tm.rate fr cidx (settle || priv) smp).firStep
    let (a2, z, first) := if settle || priv then ({ a1.fadesStep with ovrRun := false }, 0, false) else a1.finish fr
    let out : Smp := { v := z, settle := settle, priv := priv }
    let s1 := s.setAin ch { a2 with settling := settle, out := out, free := a1.undelayed fr priv }
    let s2 := { s1 with eng := { s1.eng with src := tset (0x200 + ch) out s1.eng.src } }
    let s3 := match a0.padJob with
      | some j => if a1.padJob = none then s2.padEnd j.job ch t 0 else s2
      | none => s2
    if first then s3.ainOvr ch fr t else s3

/-- A discarded frame: the chain's rings move on by one, over what they held there (R30). -/
def ainSkip (ch : Nat) (s : State) : State :=
  let a := s.ain ch
  if !a.powered then s
  else
    let x := satQ31 (Config.staleSample s.freeCtr (0x200 + ch))
    let f (h : Hist) : Hist := { h with fir := x :: h.fir.take 63 }
    s.setAin ch { a with raw := f a.raw, cmp := f a.cmp }

/-! ### Background calibration (R106 to R111) -/

def CalSt.code : CalSt → Nat
  | .tracking => 0
  | .converged => 1
  | .frozen => 2

def Ain.pair (a : Ain) (k : Nat) : Pair := if k = 0 then a.lm else a.mh
def Ain.setPair (a : Ain) (k : Nat) (p : Pair) : Ain := if k = 0 then { a with lm := p } else { a with mh := p }

/-- A pair takes a state; a change raises MERGE_STATE (R108, R111). -/
def State.pairTo (s : State) (ch k : Nat) (st : CalSt) : State :=
  let a := s.ain ch
  let p := a.pair k
  if p.st = st then s
  else
    (s.setAin ch (a.setPair k { p with st := st, sinceTrack := if st = .tracking then 0 else p.sinceTrack })).raise 0x402
      (le 1 ch ++ le 1 k ++ le 1 st.code ++ le 1 p.st.code)

/-- x moves toward v by a = 0.0004999 (R106), both in 2^-16 of their unit. -/
def calMove (x v : Int) : Int := x + roundAway ((v - x) * 4999) 10000000

/-- Largest minus smallest of a list. -/
def spread (l : List Int) : Int := l.foldl max (l.headD 0) - l.foldl min (l.headD 0)

/-- What a block of merged instants gives a pair: the lower path and the higher one in the merged scale (R106). -/
def calPaths (a : Ain) (ch k : Nat) (b : List CalSmp) : List Int × List Int :=
  let g := ratioQ (pairEst a.lm ch 0 0)
  let gh := ratioQ (pairEst a.lm ch 0 0 + pairEst a.mh ch 1 0)
  let sc (x : Int) (q : Nat) : Int := roundAway (x * q) (2 ^ 96)
  if k = 0 then (b.map (·.t.l), b.map fun x => sc x.t.m g) else (b.map fun x => sc x.t.m g, b.map fun x => sc x.t.h gh)

/-- The least of f over -n to n, the smallest in magnitude of equals, with `best` so far. -/
def argMin (f : Int → Int) : Nat → Int
  | 0 => 0
  | n + 1 =>
    let b := argMin f n
    let c : Int := ((n + 1 : Nat) : Int)
    let b1 := if f c < f b then c else b
    if f (-c) < f b1 then -c else b1

/-- The path of rank r delayed by d at every instant of a block, from the raw samples kept (R101, R106). -/
def blockDelayed (a : Ain) (rate r : Nat) (d : Int) (b : List CalSmp) : List Int :=
  b.map fun x => delayed rate d ((a.cal.filter fun y => decide (y.k ≤ x.k)).map fun y =>
    if r = 0 then y.t.l else if r = 1 then y.t.m else y.t.h)

/-- Sum of products. -/
def dot (x y : List Int) : Int := (x.zip y).foldl (fun a e => a + e.1 * e.2) 0

/-- The least-squares fit of the higher path, delayed by d, to the lower one with gain g (R106): the delay, within a block's
length, that leaves the least residual with the best gain for it, and that gain in 2^-16 µdB, open where it is not above 0
(log 150). -/
def lsqFit (a : Ain) (rate k : Nat) (b : List CalSmp) : Int × Int :=
  let lo := b.map fun x => if k = 0 then x.t.l else x.t.m
  let hi (d : Int) := blockDelayed a rate (k + 1) d b
  let d := argMin (fun d => dot (hi d) (hi d) * dot lo lo - dot (hi d) lo * dot (hi d) lo) (1000000000 * 65536)
  let c := dot (hi d) lo
  (if c ≤ 0 then Config.lsqGain lo (hi d) else microDbQ (c.toNat * 2 ^ 64 / (dot lo lo).toNat) 64, d)

/-- The pair after one 1 ms block of instants, silent or not clean ones counted out (R106): the offset is the mean of the
higher less the lower path, and where the lower one's rms reaches its floor, of -80 or -100 dBFS, the least-squares gain and
delay follow. The gains are averaged in dB, the unit MERGE_STATUS gives them in (log 150). -/
def Pair.block (p : Pair) (a : Ain) (ch rate k : Nat) (b : List CalSmp) (temp : Int) : Pair :=
  if b.isEmpty || (b.any fun x => x.dead || !(if k = 0 then x.cleanM else x.cleanH)) then p
  else
    let (lo, hi) := calPaths a ch k b
    let n := b.length
    let p1 := { p with o := some (calMove (pairEst p ch k 2) (roundAway ((hi.foldl (· + ·) 0 - lo.foldl (· + ·) 0) * 65536) n)) }
    let floor : Nat := if k = 0 then 10 ^ 8 else 10 ^ 10
    if lo.foldl (fun (q : Int) x => q + x * x) 0 * floor < (2 ^ 62 * n : Nat) then p1
    else
      let fit := lsqFit a rate k b
      let g := calMove (pairEst p ch k 0) fit.1
      let d := calMove (pairEst p ch k 1) fit.2
      { p1 with g := some g, d := some d, qual := min 0xFFFFFFFF (p.qual + 1), sinceTrack := p.sinceTrack + 1,
                lastTemp := some temp, hist := (g, d) :: p.hist.take 1999 }

/-- The C-die is more than 5 °C away from where it was at the pair's last qualifying block (R108, R110). -/
def hotSince (temp : Int) : Option Int → Bool
  | some t => decide (640 < (temp - t).natAbs)
  | none => false

/-- The state the rules of R108 give a pair after a block. How far G and D have moved over 2 s of qualifying signal is the
spread, largest less smallest, of their values after the last 2,000 qualifying blocks (log 128). -/
def Pair.next (p : Pair) (temp : Int) (before : Option Int) : CalSt :=
  let dg := spread (p.hist.map (·.1))
  let dd := spread (p.hist.map (·.2))
  let hot := hotSince temp before
  match p.st with
  | .frozen => .frozen
  | .converged => if 300 * 65536 < dg ∨ 2000 * 65536 < dd ∨ hot then .tracking else .converged
  | .tracking =>
    if 10000 ≤ p.qual ∧ 2000 ≤ p.sinceTrack ∧ dg < 100 * 65536 ∧ dd < 700 * 65536 ∧ !hot then .converged else .tracking

/-- A pair in CONVERGED whose die has moved by more than 5 °C goes to TRACKING (R108, R110). -/
def State.pairHot (s : State) (ch k : Nat) : State :=
  let p := (s.ain ch).pair k
  if p.st = .converged ∧ hotSince s.env.tjC p.lastTemp then s.pairTo ch k .tracking else s

/-- The pairs of the powered channels at a new die temperature. -/
def pairsHot (s : State) : State :=
  forUpto 32 (fun ch a => if (a.ain ch).powered then (a.pairHot ch 0).pairHot ch 1 else a) s

/-- MERGE_CAL_BLOCK: the pair's next block of 1 ms, once it is gathered, at the die temperature the block meets; none while
frozen (R106, R108). -/
def mergeCalBlockStep (ch k : Nat) (tjC : Int) (s : State) : State :=
  let a := s.ain ch
  let p := a.pair k
  let e := p.at0 + msInter s.tm.rate
  if !s.inRun || !a.powered || decide (a.k < e) then s
  else if p.st = .frozen then s.setAin ch (a.setPair k { p with at0 := e })
  else
    let b := a.cal.filter fun x => decide (p.at0 ≤ x.k) && decide (x.k < e)
    let p1 := { p.block a ch s.tm.rate k b tjC with at0 := e }
    (s.setAin ch (a.setPair k p1)).pairTo ch k (p1.next tjC p.lastTemp)

/-! ### AIN_CFG (R124, R125) -/

/-- Channels a mask names. -/
def chans (p : Packet) : List Nat := maskBits (p.u32 16) 32

/-- CH_MASK: not empty, and no absent channel (R125). -/
def chMaskErr (p : Packet) (s : State) : List (Option Err) :=
  [need (decide (p.u32 16 ≠ 0)) 16 0,
   match (chans p).find? fun c => !decide (c < s.nAin) with
   | some c => some (badParam 16 c)
   | none => none]

def trimOk (t : Int) : Bool := decide (t = muteCode) || (decide (-6000 ≤ t) && decide (t ≤ 2000))

def ainCfgLen (p : Packet) : Option Err := lenIs p 28

def ainCfgChk (p : Packet) (s : State) : Option Err :=
  let w := p.u8 21
  firstErr (chMaskErr p s ++ [p.clr 20 1 0xFC, need (decide (w &&& 0xF0 = 0) && decide (w ≠ 0)) 21 w,
    p.withinIf (bit w 2) 22 2 5 200, failIf (bit w 3 && !trimOk (p.s16 24)) (badInt 24 (p.s16 24)),
    p.withinIf (bit w 3) 26 2 0 1000,
    match (chans p).find? fun c => bit w 3 && (s.ain c).padJob.isSome with
    | some c => some { status := stBusy, ofs := 16, detail := c }
    | none => none])

/-- A new trim target over n frames (R117). -/
def Ain.setTrim (a : Ain) (v : Int) (n : Nat) : Ain :=
  if v = muteCode ∧ a.trim = muteCode ∧ a.tf = none then a
  else
    let m := (a.trimNow).getD (cdb (-6000))
    let t := if v = muteCode then cdb (-6000) else cdb v
    { a with trim := v, tf := if n = 0 then none else some { m := m, t := t, n := n } }

/-- A channel that loses its front-end takes a pending pad setting at once (R121). -/
def padUnpowered (ch : Nat) (s : State) : State :=
  let a := s.ain ch
  match a.padJob with
  | some j =>
    let k := match j.stepping with
      | some (_, n) => n
      | none => 0
    let b := if j.comp then a.trimShift ((if j.target then 50 else -50) * ((20 - k : Nat) : Int)) else a
    (s.setAin ch (b.padGo j.target)).padEnd j.job ch s.tm.frameT 2
  | none => s

/-- AIN_CFG on one channel. A TRIM set while the front-end has no power, or in Listen, is in force at once; a trim fade that
runs at EN = 0 stands still until power returns (log 129). -/
def ainSet (p : Packet) (ch : Nat) (s0 : State) : State :=
  let w := p.u8 21
  let s := if bit w 0 && !bit (p.u8 20) 0 then padUnpowered ch s0 else s0
  let a := s.ain ch
  let en := if bit w 0 then bit (p.u8 20) 0 else a.en
  let a1 : Ain := { a with en := en, powered := a.powered && en, settling := a.settling || !en,
                           ovrRun := a.ovrRun && en, tap := if en then a.tap else none,
                           out := if en then a.out else { settle := true }, hold := if bit w 2 then p.u16 22 else a.hold,
                           freeze := if bit w 1 then bit (p.u8 20) 1 else a.freeze }
  let n := if a1.powered && s.framing then msFrames (p.u16 26) s.tm.rate else 0
  let a2 := if bit w 3 then { a1.setTrim (p.s16 24) n with trimFade := p.u16 26 } else a1
  let s1 := s.setAin ch a2
  if bit w 1 then
    if bit (p.u8 20) 1 then (s1.pairTo ch 0 .frozen).pairTo ch 1 .frozen
    else
      let s2 := if a.lm.st = .frozen then s1.pairTo ch 0 .tracking else s1
      if a.mh.st = .frozen then s2.pairTo ch 1 .tracking else s2
  else s1

def ainCfgApply (id : Nat) (p : Packet) (t : Nat) (s : State) : State :=
  (forEach (chans p) (ainSet p) s).finishOk id [] t

/-! ### AIN_PAD (R119 to R121, R126 to R128) -/

def ainPadLen (p : Packet) : Option Err := lenIs p 24

/-- COMP would take the trim target of a channel out of range (R127). -/
def padCompBad (p : Packet) (s : State) (c : Nat) : Bool :=
  let a := s.ain c
  let on := decide (p.u8 20 = 1)
  bit (p.u8 21) 0 && (a.pad ^^ on) && !decide (a.trim = muteCode) &&
    !trimOk (a.trim + (if on then 1000 else -1000))

/-- The last check: a named channel has a pad change pending. -/
def padBusy (p : Packet) (s : State) : Option Err :=
  match (chans p).find? fun c => (s.ain c).padJob.isSome with
  | some c => some { status := stBusy, ofs := 16, detail := c }
  | none => none

def ainPadChk (p : Packet) (s : State) : Option Err :=
  firstErr (chMaskErr p s ++ [p.within 20 1 0 1, p.clr 21 1 0xFE, p.within 22 2 0 50,
    match (chans p).find? (padCompBad p s) with
    | some c => some (badParam 21 c)
    | none => none,
    padBusy p s])

/-- One channel of AIN_PAD at its frame: same, stored, or a job (R119, R121, R126). -/
def padStart (id : Nat) (p : Packet) (fr : Nat) (ch : Nat) (s : State) : State :=
  let a := s.ain ch
  let on := decide (p.u8 20 = 1)
  let comp := bit (p.u8 21) 0
  let c : PadCmd := tget { left := [] } s.padCmds id
  if a.pad = on then { s with padCmds := tset id { c with same := c.same ||| 2 ^ ch } s.padCmds }
  else if !a.powered || s.ainMuted then
    let b := if comp then a.trimShift (if on then 1000 else -1000) else a
    ({ s with padCmds := tset id { c with stored := c.stored ||| 2 ^ ch } s.padCmds }).setAin ch (b.padGo on)
  else
    let w := p.u16 22
    ({ s with padCmds := tset id { c with left := c.left ++ [ch] } s.padCmds }).setAin ch { a with
      padJob := some { job := id, target := on, comp := comp, until0 := 8 * fr + (2 * w * 8 * s.tm.rate + 1000) / 2000,
                       stepping := if w = 0 then some (s.clk, 0) else none } }

/-- AIN_PAD in its frame, where only its last check is made again (R127). -/
def ainPadApply (id : Nat) (p : Packet) (t : Nat) (s : State) : State :=
  match padBusy p s with
  | some e => s.finishErr id e t
  | none =>
    let s0 : State := { s with padCmds := tset id { left := [], last := t } s.padCmds }
    let s1 := forEach (chans p) (padStart id p s.apFrame) s0
    let c : PadCmd := tget { left := [] } s1.padCmds id
    if c.left.isEmpty then ({ s1 with padCmds := tdel id s1.padCmds }).finishOk id c.result t else s1

/-- PAD_STEPPED_START: the window has ended with no quiet instant (R119). -/
def padSteppedStartStep (ch : Nat) (s : State) : State :=
  let a := s.ain ch
  match a.padJob with
  | some j =>
    if j.stepping = none ∧ j.until0 ≤ 8 * s.tm.frame then
      s.setAin ch { a with padJob := some { j with stepping := some (s.clk, 0) } }
    else s
  | none => s

/-- PAD_CHANGE_DONE: the twenty steps are made, 1 ms after they began (R119, R127). -/
def padChangeDoneStep (ch : Nat) (s : State) : State :=
  let a := s.padNow ch
  match a.padJob with
  | some j => match j.stepping with
    | some (t0, _) =>
      if t0 + 1000000 ≤ s.clk then (s.setAin ch (a.padGo j.target)).padEnd j.job ch s.tm.frameT 1 else s
    | none => s
  | none => s

/-- ABORT of a running AIN_PAD (R128): searches end, changes stay, a stepped change runs on without its command. -/
def padAbort (id : Nat) (s : State) : State :=
  let c : PadCmd := tget { left := [] } s.padCmds id
  let stepping := c.left.filter fun ch => match (s.ain ch).padJob with
    | some j => j.stepping.isSome
    | none => false
  let s1 := forEach c.left (fun ch a =>
    let x := a.ain ch
    match x.padJob with
    | some j => a.setAin ch { x with padJob := if j.stepping.isSome then some { j with job := 0 } else none }
    | none => a) s
  ({ s1 with padCmds := tdel id s1.padCmds }).finishAborted id (c.quiet ||| c.step ||| c.stored ||| maskOf stepping) s.nowNs

/-- A reset channel is withdrawn from a pending AIN_PAD, which ends if no other channel of it waits (R128). -/
def padWithdraw (ch id : Nat) (s : State) : State :=
  let c : PadCmd := tget { left := [] } s.padCmds id
  let keep (m : Nat) : Nat := if m.testBit ch then m - 2 ^ ch else m
  let c1 : PadCmd := { c with left := c.left.filter (· ≠ ch), quiet := keep c.quiet, step := keep c.step, stored := keep c.stored,
                              same := keep c.same }
  if !c1.left.isEmpty then { s with padCmds := tset id c1 s.padCmds }
  else
    let s0 : State := { s with padCmds := tdel id s.padCmds }
    if c1.quiet + c1.step + c1.stored + c1.same = 0 then s0.finishAborted id 0 s.nowNs else s0.finishOk id c1.result c1.last

/-- RESET_UNIT of an AIN channel: withdrawn from every pending AIN_PAD, reset settings, calibration from the seeds in
TRACKING, and a synchronising reset when powered (R87, R107, R128, R139). -/
def ainUnitReset (ch : Nat) (s : State) : State :=
  let a := s.ain ch
  let s1 := forEach (s.padCmds.map (·.1)) (padWithdraw ch) s
  let s2 := (s1.pairTo ch 0 .tracking).pairTo ch 1 .tracking
  let b : Ain := { powered := a.powered }
  s2.setAin ch (if a.powered then b.sync s.nextFrame else b)

/-! ### MERGE_STATUS (R129) -/

def mergeStatusLen (p : Packet) : Option Err := lenIs p 20

def mergeStatusChk (p : Packet) (s : State) : Option Err :=
  firstErr [absentIf (decide (s.nAin ≤ p.u8 16) && decide (p.u8 16 < 32)) 16 (p.u8 16), need (decide (p.u8 16 < 32)) 16 (p.u8 16),
    p.clr 17 1 0xFC, p.zero 18 2]

/-- An estimate rounded to its unit, 32 bits. -/
def est32 (x : Int) : List Byte := le 4 (uns 32 (roundAway x 65536))

def mergeRec (s : State) (ch : Nat) : List Byte :=
  let a := s.ain ch
  le 1 (if a.powered then a.path + (if a.fading then a.tgt * 4 + 16 else 0) else 0xFF) ++
  le 1 (flags [a.ovr, a.tsat, a.settling, s.ainMuted, a.pad, a.padJob.isSome, a.en]) ++
  le 1 a.lm.st.code ++ le 1 a.mh.st.code ++
  est32 (pairEst a.lm ch 0 0) ++ est32 (pairEst a.lm ch 0 1) ++ est32 (pairEst a.lm ch 0 2) ++
  est32 (pairEst a.mh ch 1 0) ++ est32 (pairEst a.mh ch 1 1) ++ est32 (pairEst a.mh ch 1 2) ++
  le 4 (min a.lm.qual a.mh.qual) ++ le 4 (satWord a.switchCnt) ++ le 4 (satWord a.ovrCnt) ++ le 4 a.lastOvr

def mergeStatusApply (id : Nat) (p : Packet) (t : Nat) (s : State) : State :=
  let ch := p.u8 16
  let a := s.ain ch
  let a1 : Ain := if bit (p.u8 17) 0 then { a with ovr := false, tsat := false } else a
  let a2 : Ain := if bit (p.u8 17) 1 then { a1 with switchCnt := (0, false), ovrCnt := (0, false), lastOvr := 0 } else a1
  (s.setAin ch a2).finishOk id (mergeRec s ch) t

/-! ### CHAIN_CFG and CHAIN_SYNC (R134 to R142, R157 to R161) -/

def chainCfgLen (p : Packet) : Option Err := lenIs p 28

def chainCfgChk (p : Packet) (s : State) : Option Err :=
  let w := p.u8 20
  firstErr ([failIf (decide (w ≠ 0) && decide (p.u32 16 = 0)) (badParam 16 0)] ++ (chMaskErr p s).drop 1 ++
    [p.clr 20 1 0xFC, p.withinIf (bit w 0) 21 1 0 6, p.withinIf (bit w 1) 22 2 0 32768, p.withinIf (bit w 1) 24 2 0 100,
     p.zero 26 2])

/-- A new phase delay in frame c: at once in the settle period or unpowered, by a crossfade otherwise (R137, R138). -/
def Ain.setPd (a : Ain) (v fade c rate : Nat) : Ain :=
  let n := msFrames fade rate
  if !a.powered then { a with pd := v, pdFade := fade, tap := none }
  else if c < a.firstValid then
    { a with pd := v, pdFade := fade, tap := none,
             firstValid := max (c + 1) (a.resetFr + settleCount a.resp + ceilDiv v 1024) }
  else if n = 0 ∨ v = a.pd then { a with pd := v, pdFade := fade, tap := if v = a.pd then a.tap else none }
  else
    let old : List (Nat × Nat) := match a.tap with
      | none => [(a.pd, 2 ^ 62)]
      | some f =>
        let w := rcos f.k f.n
        (f.old.map fun e => (e.1, e.2 * (2 ^ 62 - w) / 2 ^ 62)) ++ [(a.pd, w)]
    { a with pd := v, pdFade := fade, tap := some { old := old, n := n } }

/-- CHAIN_CFG on one channel: a changed response resets a powered channel (R139). -/
def chainSet (p : Packet) (fr : Nat) (ch : Nat) (s : State) : State :=
  let w := p.u8 20
  let a := s.ain ch
  let a1 := if bit w 1 then a.setPd (p.u16 22) (p.u16 24) fr s.tm.rate else a
  let a2 := if bit w 0 ∧ p.u8 21 ≠ a.resp then
      let b : Ain := { a1 with resp := p.u8 21 }
      if a.powered then b.sync fr else b
    else a1
  s.setAin ch a2

/-- CH_STATE of a channel; of an absent one CFLAGS and PD are 0, which no rule states (R158, log 130). -/
def chState (s : State) (ch : Nat) : List Byte :=
  if s.nAin ≤ ch then le 1 0xFF ++ le 7 0
  else
    let a := s.ain ch
    let settling := !a.powered || a.settling
    le 1 a.resp ++ le 1 (flags [settling, a.tap.isSome, a.powered]) ++ le 2 a.pd ++ le 4 (a.lagNs s.perNum s.perDen)

def chainCfgApply (id : Nat) (p : Packet) (t : Nat) (s : State) : State :=
  let fr := s.apFrame
  let cs := chans p
  let reset := cs.filter fun c => bit (p.u8 20) 0 && (s.ain c).powered && !decide ((s.ain c).resp = p.u8 21)
  let s1 := if p.u8 20 = 0 then s else forEach cs (chainSet p fr) s
  let fv := reset.foldl (fun m c => max m (s1.ain c).firstValid) 0
  s1.finishOk id (le 4 (maskOf reset) ++ le 4 (fv % 2 ^ 32) ++ (List.range 32).flatMap (chState s1)) t

def chainSyncLen (p : Packet) : Option Err := lenIs p 20
def chainSyncChk (p : Packet) (s : State) : Option Err := firstErr (chMaskErr p s)

def chainSyncApply (id : Nat) (p : Packet) (t : Nat) (s : State) : State :=
  let fr := s.apFrame
  let cs := (chans p).filter fun c => (s.ain c).powered
  let s1 := forEach cs (fun c a => a.setAin c ((a.ain c).sync fr)) s
  let fv := cs.foldl (fun m c => max m (s1.ain c).firstValid) 0
  s1.finishOk id (le 4 (maskOf cs) ++ le 4 (if cs.isEmpty then 0 else fr % 2 ^ 32) ++ le 4 (fv % 2 ^ 32)) t

/-! ### Power of the front-ends -/

/-- FRONT_END_POWERED: in Run an enabled channel's front-end is up, and a synchronising reset follows; a pair whose die
has moved by more than 5 °C goes to TRACKING (R110, R123, R139). -/
def frontEndPoweredStep (ch : Nat) (s : State) : State :=
  let a := s.ain ch
  if !(s.inRun && decide (ch < s.nAin) && a.en && !a.powered) then s
  else
    ((s.setAin ch (({ a with powered := true } : Ain).sync s.nextFrame)).pairHot ch 0).pairHot ch 1

/-- SETTLE_END: from the first valid frame on the channel delivers its signal (R141). -/
def settleEndStep (ch : Nat) (s : State) : State :=
  let a := s.ain ch
  if a.powered && a.settling && decide (a.firstValid ≤ s.nextFrame) then s.setAin ch { a with settling := false } else s

/-- Every front-end loses power: leaving Run (R121, R123); a trim fade that runs ends at its target (log 129). -/
def ainsOff (s : State) : State :=
  let s1 := forUpto 32 padUnpowered s
  { s1 with ains := tmap (fun a => { a with
      powered := false, settling := true, ovrRun := false, out := { settle := true }, tf := none, tap := none }) s1.ains }

def execPadSteppedStart (dt : Nat) (ch : Nat) (s : State) : Host.Outcome State Fault Refusal :=
  run (.padSteppedStart dt ch) s (padSteppedStartStep ch)

def execPadChangeDone (dt : Nat) (ch : Nat) (s : State) : Host.Outcome State Fault Refusal :=
  run (.padChangeDone dt ch) s (padChangeDoneStep ch)

def execMergeCalBlock (dt : Nat) (ch : Nat) (pair : Nat) (tjC : Int) (s : State) : Host.Outcome State Fault Refusal :=
  run (.mergeCalBlock dt ch pair tjC) s (mergeCalBlockStep ch pair tjC)

def execFrontEndPowered (dt : Nat) (ch : Nat) (s : State) : Host.Outcome State Fault Refusal :=
  run (.frontEndPowered dt ch) s (frontEndPoweredStep ch)

def execSettleEnd (dt : Nat) (ch : Nat) (s : State) : Host.Outcome State Fault Refusal :=
  run (.settleEnd dt ch) s (settleEndStep ch)

end Sys2Proof.Machine
end

