-- ==== Sys2Proof/Machine/Firkin.lean ====
section
/-!
DEFINITION. The Firkin: regions, storage formats, delay lines, and FIRKIN_ALLOC, FIRKIN_FREE, DELAY_CFG, FIRKIN_READ,
FIRKIN_WRITE with their timed steps (07 R240 to R266).
-/
namespace Sys2Proof.Machine
open Sys2Proof

/-! ### Regions (R240 to R246) -/

/-- Bushels open to allocation (R241). -/
def nBushel : Nat := 3013

/-- The allocated spans (first bushel, bushels), ascending. -/
def State.spans (s : State) : List (Nat × Nat) :=
  sortBy (·.1) (s.regions.map fun r => (r.2.first, r.2.n))

/-- The free runs between allocated spans from bushel `at0` on. -/
def freeRuns : Nat → List (Nat × Nat) → List (Nat × Nat)
  | at0, [] => if at0 < nBushel then [(at0, nBushel - at0)] else []
  | at0, (a, n) :: r => if at0 < a then (at0, a - at0) :: freeRuns (a + n) r else freeRuns (a + n) r

def State.runs (s : State) : List (Nat × Nat) := freeRuns 0 s.spans

def State.freeBushels (s : State) : Nat := s.runs.foldl (fun a r => a + r.2) 0
def State.largestFree (s : State) : Nat := s.runs.foldl (fun a r => max a r.2) 0
def State.freeIds (s : State) : Nat := 255 - s.regions.length

def State.region (s : State) (i : Nat) : Option Region := tget? s.regions i

/-- Where n bushels fit first, and the lowest free ID (R243); else the NO_RESOURCE of R244. -/
def State.fitRegion (s : State) (n : Nat) : Except Err (Nat × Nat) :=
  let d := s.largestFree + s.freeBushels * 65536
  match firstFrom (fun i => (s.region i).isNone) 0 255 with
  | none => .error { status := stNoResource, aux := 1, detail := d }
  | some i =>
    match s.runs.find? fun r => decide (n ≤ r.2) with
    | none => .error { status := stNoResource, aux := 0, detail := d }
    | some r => .ok (i, r.1)

/-- Frames per channel of a region (R246). -/
def framesOf (fmt bushels chans : Nat) : Nat :=
  if fmt = 0 then 4096 * bushels / (4 * chans)
  else if fmt = 1 then 4096 * bushels / (3 * chans)
  else 4 * (4096 * bushels / (8 * chans))

def Region.frames (r : Region) : Nat := framesOf r.fmt r.n r.chans

/-- The fragmentation figures (R260). -/
def State.fragData (s : State) : List Byte :=
  le 2 s.freeBushels ++ le 2 s.largestFree ++ le 1 s.freeIds ++ le 1 0 ++ le 2 s.runs.length

/-! ### Formats (R247 to R249) -/

/-- Bits [31:8] of a sample rounded to nearest, ties to even, saturating (R41). -/
def round24 (x : Int) : Int := min 8388607 (rne x 8)

/-- The stored bytes of a sample in W32 (code 0) or W24 (R246). -/
def smpBytes (fmt : Nat) (x : Int) : List Byte := if fmt = 0 then le 4 (uns 32 x) else le 3 (uns 24 (round24 x))

/-- A P64 word of four samples (R249). -/
def p64Fits (x : List Int) (s : Nat) : Bool :=
  x.all fun v => decide (-16384 ≤ rne v s) && decide (rne v s ≤ 16383)

def p64Enc (x : List Int) : Nat :=
  let s := (firstFrom (p64Fits x) 2 16).getD 17
  let q (i : Nat) : Nat := uns 15 (min 16383 (rne (x.getD i 0) s))
  (s - 2) * 2 ^ 60 + q 0 * 2 ^ 45 + q 1 * 2 ^ 30 + q 2 * 2 ^ 15 + q 3

/-- Sample i of a P64 word (R248, R249). -/
def p64Dec (w i : Nat) : Int := sgn 15 (bits w (45 - 15 * i) 15) * 2 ^ (bits w 60 4 + 2)

/-! ### Delay lines (R250 to R254) -/

/-- Largest delay a region carries (R250). -/
def Region.maxDelay (r : Region) : Nat := if r.fmt = 2 then r.frames - 4 else r.frames - 1

/-- A line that unbinds (R254); one whose unbind is stored in Listen counts as such (log 155). -/
def Line.unbinding (l : Line) : Bool :=
  (match l.fade with | some f => f.toZero | none => false) || l.stored.isSome

/-- The stored sample of the frame d frames ago (R250): zero until d frames are written (R251). -/
def lineTap (s : State) (l : Line) (d : Nat) : Int :=
  match l.region with
  | none => 0
  | some i => match s.region i with
    | none => 0
    | some r =>
      if l.cnt < d ∨ d = 0 then 0
      else
        let f := r.frames
        let pos := (l.pos + f - d % f) % f
        let base := 4096 * r.first
        if r.fmt = 0 then sgn 32 (unle (mreads s.fk (base + 4 * pos) 4))
        else if r.fmt = 1 then sgn 24 (unle (mreads s.fk (base + 3 * pos) 3)) * 256
        else if d ≤ l.grp.length then l.grp.getD (l.grp.length - d) 0
        else p64Dec (unle (mreads s.fk (base + 8 * (pos / 4)) 8)) (pos % 4)

/-- The old side of a running fade (R252, R254). -/
def lineOld (s : State) (l : Line) (f : LFade) : Int :=
  if f.w2 = 0 then lineTap s l f.old else blend f.w2 (lineTap s l f.old) (lineTap s l f.old2)

/-- The sample DLYk delivers in this frame. -/
def lineOut (s : State) (l : Line) : Int :=
  match l.fade with
  | none => lineTap s l l.delay
  | some f =>
    let new := if f.toZero then 0 else lineTap s l l.delay
    if f.k < f.n then blend (rcos (f.k + 1) f.n) (lineOld s l f) new else new

/-- DLYk of frame fr is read, and its fade moves on (R19 step 1, R252). -/
def lineRead (t k : Nat) (s : State) : State :=
  let l := s.line k
  if l.region.isNone then s
  else
    let y := lineOut s l
    let s1 : State := if y = 0 then s else { s with eng := { s.eng with src := tset (0x300 + k) { v := y } s.eng.src } }
    match l.fade with
    | none => s1
    | some f =>
      if f.k < f.n then
        s1.setLine k { l with fade := some { f with k := f.k + 1 }, endT := if f.k + 1 = f.n then t else l.endT }
      else s1

/-- One sample stored in a line, and its positions moved on (R246, R250). -/
def lineStore (k : Nat) (x : Int) (s : State) : State :=
  let l := s.line k
  match l.region with
  | none => s
  | some i => match s.region i with
    | none => s
    | some r =>
      let base := 4096 * r.first
      let nx := (l.pos + 1) % r.frames
      let c := min (l.cnt + 1) r.frames
      if r.fmt = 0 then
        ({ s with fk := mwrites s.fk (base + 4 * l.pos) (smpBytes 0 x) }).setLine k { l with pos := nx, cnt := c }
      else if r.fmt = 1 then
        ({ s with fk := mwrites s.fk (base + 3 * l.pos) (smpBytes 1 x) }).setLine k { l with pos := nx, cnt := c }
      else
        let g := l.grp ++ [x]
        if g.length < 4 then s.setLine k { l with pos := nx, cnt := c, grp := g }
        else ({ s with fk := mwrites s.fk (base + 8 * (l.pos / 4)) (le 8 (p64Enc g)) }).setLine k
          { l with pos := nx, cnt := c, grp := [] }

/-- The region of a line is released (R254). -/
def lineRelease (k : Nat) (s : State) : State :=
  let l := s.line k
  s.setLine k { xfade := l.xfade, applyFr := l.applyFr }

/-- The result of DELAY_CFG (R262). -/
def lineData (s : State) (k : Nat) : List Byte :=
  let l := s.line k
  let fading := match l.fade with
    | some f => decide (f.k < f.n)
    | none => false
  let mx := match l.region with
    | some i => match s.region i with | some r => r.maxDelay | none => 0
    | none => 0
  le 1 k ++ le 1 (flags [l.region.isSome, fading, l.held.isSome]) ++ le 1 (l.region.getD 0xFF) ++ le 1 0 ++ le 4 l.delay ++
  le 4 mx ++ le 4 l.applyFr

/-- A held change is dropped: its command completes with ABORTED (R253, R254, R262). -/
def lineDrop (k detail t : Nat) (s : State) : State :=
  match (s.line k).held with
  | none => s
  | some h =>
    (s.setLine k { s.line k with held := none }).finishErr h.job { status := stAborted, aux := k, detail := detail } t

/-- The stored crossfade time an XFADE_MS field leaves (R261). -/
def Line.newXfade (l : Line) (x : Nat) : Nat := if x = 0xFFFF then l.xfade else x

/-- A delay change with XFADE_MS field x applies in frame fr on a free line: nothing begins where the delay is the one in
force (R252, R253). -/
def lineBegin (k d x fr : Nat) (s : State) : State :=
  let l := s.line k
  let n := msFrames (l.newXfade x) s.tm.rate
  if d = l.delay then s.setLine k { l with xfade := l.newXfade x }
  else s.setLine k { l with xfade := l.newXfade x, delay := d, applyFr := fr % 2 ^ 32,
                            fade := if n = 0 then none else some { old := l.delay, n := n } }

/-- The line is free of a running crossfade. -/
def Line.free (l : Line) : Bool :=
  match l.fade with
  | none => true
  | some f => !f.toZero && decide (f.n ≤ f.k)

/-- DELAY_HELD_APPLY: a held change applies when the line is free (R253). -/
def delayHeldApplyStep (k : Nat) (s : State) : State :=
  let l := s.line k
  match l.held with
  | some h =>
    if l.free then
      let s1 := lineBegin k h.delay h.n s.apFrame (s.setLine k { l with held := none, fade := none })
      s1.finishOk h.job (lineData s1 k) s.apT
    else s
  | none => s

/-- DELAY_XFADE_END: the crossfade has ended and the line is free (R252). -/
def delayXfadeEndStep (k : Nat) (s : State) : State :=
  let l := s.line k
  if l.fade.isSome && l.free then s.setLine k { l with fade := none } else s

/-- UNBIND_FADE_END: the fade to zero has ended, the region is released and the unbind completes (R254, R262). -/
def unbindFadeEndStep (k : Nat) (s : State) : State :=
  let l := s.line k
  match l.fade with
  | some f =>
    if f.toZero ∧ f.n ≤ f.k then
      let s1 := lineRelease k s
      match l.unbindJob with
      | some j => s1.finishOk j (lineData s1 k) (if f.n = 0 then s.tm.frameT else l.endT)
      | none => s1
    else s
  | none => s

/-- A stored unbind takes effect at the first frame (R262). -/
def linesStored (s : State) : State :=
  forEach ((s.lines.filter fun l => l.2.stored.isSome).map (·.1)) lineRelease s

/-! ### DELAY_CFG (R261 to R263) -/

def delayCfgLen (p : Packet) : Option Err := lenIs p 28

/-- The line a region is bound to. -/
def State.boundTo (s : State) (i : Nat) : Option Nat :=
  match s.lines.find? fun l => decide (l.2.region = some i) with
  | some l => some l.1
  | none => none

def delayCfgChk (p : Packet) (s : State) : Option Err :=
  let k := p.u8 16
  let op := p.u8 17
  let l := s.line k
  let reg := if op = 1 then s.region (p.u8 18) else match l.region with
    | some i => s.region i
    | none => none
  let d := p.u32 20
  firstErr [absentIf (decide (s.nDelay ≤ k % 128)) 16 (k % 128), p.within 16 1 0 127, p.within 17 1 0 3,
    need (if op = 1 then (match reg with | some r => decide (r.chans = 1) | none => false) else decide (p.u8 18 = 0)) 18 (p.u8 18),
    p.zero 19 1,
    need (if op = 1 then (match reg with | some r => decide (1 ≤ d) && decide (d ≤ r.maxDelay) | none => false)
          else if op = 0 then
            (match reg with | some r => decide (1 ≤ d) && decide (d ≤ r.maxDelay) | none => decide (1 ≤ d) && decide (d < 2 ^ 24))
          else true) 20 d,
    p.clr 20 4 0xFF000000,
    need (decide (p.u16 24 ≤ 100) || decide (p.u16 24 = 0xFFFF)) 24 (p.u16 24), p.zero 26 2,
    stateIf (l.unbinding && decide (op ≤ 2)) k, stateIf (decide (op = 1) && l.region.isSome) k,
    stateIf ((decide (op = 0) || decide (op = 2)) && l.region.isNone) k,
    if op = 1 then
      match reg with
      | some r => match r.owner with
        | .rx i => some { status := stBusy, ofs := 18, aux := i, detail := p.u8 18 }
        | .host => match s.boundTo (p.u8 18) with
          | some j => some { status := stBusy, ofs := 18, aux := 0x8000 ||| j, detail := p.u8 18 }
          | none => none
      | none => none
    else none]

/-- Unbinding in frame fr: from the momentary output to exact zero (R254). -/
def lineUnbind (id k fr t ms : Nat) (s : State) : State :=
  let s0 := lineDrop k 1 t s
  let l := s0.line k
  let n := msFrames ms s.tm.rate
  let f : LFade := match l.fade with
    | some x => if x.k < x.n ∧ 0 < x.k then { old := x.old, old2 := l.delay, w2 := rcos x.k x.n, toZero := true, n := n }
                else if x.k < x.n then { old := x.old, toZero := true, n := n }
                else { old := l.delay, toZero := true, n := n }
    | none => { old := l.delay, toZero := true, n := n }
  let s1 := s0.setLine k { l with fade := some f, unbindJob := some id, applyFr := fr % 2 ^ 32, xfade := ms }
  if n = 0 then
    let s2 := lineRelease k s1
    s2.finishOk id (lineData s2 k) t
  else s1

/-- A region that an earlier command of the frame bound to another line leaves it: the later command stands (R69, log 140). -/
def lineYield (k i : Nat) (s : State) : State :=
  match s.boundTo i with
  | some j => if j = k then s else lineRelease j s
  | none => s

/-- A bind in frame fr. -/
def lineBind (id k fr t ms : Nat) (p : Packet) (s0 : State) : State :=
  let s := lineYield k (p.u8 18) s0
  let s1 := s.setLine k { region := some (p.u8 18), delay := p.u32 20, xfade := ms, applyFr := fr % 2 ^ 32 }
  s1.finishOk id (lineData s1 k) t

/-- An unbind in frame fr, or stored in Listen (R254, R262). -/
def lineUnbindAt (id k fr t ms : Nat) (s : State) : State :=
  if s.inListen then
    let s0 := lineDrop k 1 t s
    let s1 := s0.setLine k { s0.line k with stored := some { delay := 0 }, fade := none, xfade := ms, applyFr := fr % 2 ^ 32 }
    s1.finishOk id (lineData s1 k) t
  else lineUnbind id k fr t ms s

/-- A set delay in frame fr, or stored in Listen (R252, R253, R262). -/
def lineDelay (id k fr t ms : Nat) (p : Packet) (s : State) : State :=
  if s.inListen then
    let l := s.line k
    let s0 := lineDrop k 1 t s
    let same := decide (p.u32 20 = l.delay) && l.free
    let s1 := s0.setLine k { s0.line k with
      delay := p.u32 20, fade := none, xfade := ms, applyFr := if same then l.applyFr else fr % 2 ^ 32 }
    s1.finishOk id (lineData s1 k) t
  else
    let s' := delayHeldApplyStep k s
    let l := s'.line k
    if l.free && l.held.isNone then
      let s1 := lineBegin k (p.u32 20) (p.u16 24) fr s'
      s1.finishOk id (lineData s1 k) t
    else
      let s1 := lineDrop k 1 t s'
      s1.setLine k { s1.line k with held := some { delay := p.u32 20, n := p.u16 24, job := id } }

/-- DELAY_CFG applies; in Listen it is stored, and begins in the first frame of Idle or Run (R262). On a line that an earlier
command of the frame has unbound there is nothing to set and nothing to unbind (log 140). -/
def delayCfgApply (id : Nat) (p : Packet) (t : Nat) (s : State) : State :=
  let k := p.u8 16
  let op := p.u8 17
  let l := s.line k
  let fr := if s.inListen then s.nextFrame else s.apFrame
  let ms := l.newXfade (p.u16 24)
  if op = 3 then s.finishOk id (lineData s k) t
  else if op = 1 then lineBind id k fr t ms p s
  else if l.region.isNone || l.unbinding then s.finishOk id (lineData s k) t
  else if op = 2 then lineUnbindAt id k fr t ms s
  else lineDelay id k fr t ms p s

/-! ### FIRKIN_ALLOC and FIRKIN_FREE (R258 to R260) -/

def firkinAllocLen (p : Packet) : Option Err := lenIs p 24

def firkinAllocChk (p : Packet) (s : State) : Option Err :=
  let nb := p.u16 16
  firstErr [need (decide (nb ≤ 3013)) 16 nb, need (decide (p.u8 18 ≤ if nb = 0 then 0 else 2)) 18 (p.u8 18),
    need (decide (p.u8 19 ≤ if nb = 0 then 0 else 1)) 19 (p.u8 19),
    need (if nb = 0 then decide (p.u8 20 = 0) else decide (1 ≤ p.u8 20) && decide (p.u8 20 ≤ 64)) 20 (p.u8 20),
    p.zero 21 3,
    if nb = 0 then none else match s.fitRegion nb with
      | .error e => some e
      | .ok _ => none]

/-- The result of FIRKIN_ALLOC (R258). -/
def allocData (s : State) (reg first frames : Nat) : List Byte :=
  le 1 reg ++ le 1 0 ++ le 2 first ++ le 4 frames ++ le 2 s.freeBushels ++ le 2 s.largestFree ++ le 1 s.freeIds ++ le 1 0 ++
  le 2 s.runs.length

def firkinAllocApply (id : Nat) (p : Packet) (t : Nat) (s : State) : State :=
  let nb := p.u16 16
  if nb = 0 then s.finishOk id (allocData s 0xFF 0xFFFF 0) t
  else match s.fitRegion nb with
    | .error e => s.finishErr id e t
    | .ok (i, first) =>
      let r : Region := { first := first, n := nb, fmt := p.u8 18, chans := p.u8 20, owner := .host }
      let s1 : State := { s with regions := tset i r s.regions }
      if bit (p.u8 19) 0 then
        { s1 with xfers := s1.xfers ++ [{ id := id, clear := true, region := i, total := nb, at0 := s.clk }] }
      else s1.finishOk id (allocData s1 i first r.frames) t

/-- REGION_CLEAR_DONE: the clear begun first ends; its bushels read zero (R259). -/
def regionClearDoneStep (s : State) : State :=
  match s.xfers.find? (·.clear) with
  | none => s
  | some x =>
    let s0 : State := { s with xfers := s.xfers.filter fun y => !decide (y.id = x.id) }
    match s0.region x.region with
    | none => s0
    | some r =>
      let s1 : State := { s0 with fk := mclear s0.fk (4096 * r.first) (4096 * (r.first + r.n)) }
      s1.finishOk x.id (allocData s1 x.region r.first r.frames) s1.nowNs

def firkinFreeLen (p : Packet) : Option Err := lenIs p 20

/-- The transfer or clear that runs on a region. -/
def State.xferOn (s : State) (i : Nat) : Option Xfer := s.xfers.find? fun x => decide (x.region = i)

/-- DENIED: the history is never freed by command (R260). -/
def firkinFreeRight (p : Packet) : Option Err :=
  failIf (decide (p.u8 16 = 255)) { status := stDenied, ofs := 16, detail := 255 }

def firkinFreeChk (p : Packet) (s : State) : Option Err :=
  let i := p.u8 16
  firstErr [need (s.region i).isSome 16 i, p.zero 17 3,
    match s.region i with
    | some r => match r.owner with
      | .rx k => some { status := stBusy, ofs := 16, aux := k, detail := i }
      | .host => none
    | none => none,
    match s.boundTo i with
    | some k => some { status := stBusy, ofs := 16, aux := 0x8000 ||| k, detail := i }
    | none => none,
    match s.xferOn i with
    | some x => some { status := stBusy, ofs := 16, aux := s.flightTag x.id, detail := i }
    | none => none]

def firkinFreeApply (id : Nat) (p : Packet) (t : Nat) (s : State) : State :=
  let s1 : State := { s with regions := tdel (p.u8 16) s.regions }
  s1.finishOk id s1.fragData t

/-! ### FIRKIN_READ and FIRKIN_WRITE (R255 to R257, R264 to R266) -/

def firkinMoveLen (wr : Bool) (p : Packet) : Option Err :=
  lenIs p (if wr && decide (p.u8 17 = 0) then up4 (32 + p.u32 24) else 32)

/-- DENIED: the history, or bulk from another port (R266). -/
def firkinMoveRight (p : Packet) (port : Nat) : Option Err :=
  firstErr [failIf (decide (p.u8 16 = 255)) { status := stDenied, ofs := 16, detail := 255 },
    failIf (decide (p.u8 17 = 1) && !decide (port = 1)) { status := stDenied, ofs := 17, detail := 1 }]

def firkinMoveChk (wr : Bool) (p : Packet) (s : State) : Option Err :=
  let i := p.u8 16
  let n := p.u32 24
  let size := match s.region i with
    | some r => 4096 * r.n
    | none => 0
  let inl := decide (p.u8 17 = 0)
  firstErr ([need (s.region i).isSome 16 i, p.within 17 1 0 1, p.zero 18 2, need (decide (p.u32 20 < size)) 20 (p.u32 20),
    need (decide (1 ≤ n) && decide (n ≤ if inl then 992 else 65536) && decide (p.u32 20 + n ≤ size)) 24 n,
    need (if inl then decide (p.u32 28 = 0) else decide (p.u32 28 + n ≤ 0x80000)) 28 (p.u32 28)] ++
    (if wr && inl then (List.range (up4 n - n)).map (fun k => p.zero (32 + n + k) 1) else []) ++ [
    match s.region i with
    | some r => match r.owner with
      | .rx k => if wr then some { status := stBusy, ofs := 16, aux := k, detail := i } else none
      | .host => none
    | none => none,
    match s.xferOn i with
    | some x => if x.clear then some { status := stBusy, ofs := 16, aux := s.flightTag x.id, detail := i } else none
    | none => none])

/-- Stored bytes of a region (R246, R255). -/
def regionBytes (s : State) (i ofs n : Nat) : List Byte :=
  match s.region i with
  | none => []
  | some r => mreads s.fk (4096 * r.first + ofs) n

/-- Bytes lo to hi - 1 of a transfer moved: into the window, or into the region that has the ID then (R255, R265, log 156). -/
def moveBytes (x : Xfer) (lo hi : Nat) (s : State) : State :=
  match s.region x.region with
  | none => s
  | some r =>
    if x.write then { s with fk := mwrites s.fk (4096 * r.first + x.ofs + lo) ((x.data.take hi).drop lo) }
    else { s with mem := mwrites s.mem (0x100000 + x.wofs + lo) (regionBytes s x.region (x.ofs + lo) (hi - lo)) }

/-- How far a bulk transfer that runs has come by a boundary: the spec leaves it open, but moves aligned 8-byte units whole
(R256, log 99). -/
def Xfer.come (x : Xfer) (k : Nat) : Nat :=
  max x.moved (min x.total ((x.ofs + x.moved + k % (x.total - x.moved + 1)) / 8 * 8 - x.ofs))

/-- Bulk transfers that run go on between two frames: what the frames that follow write overwrites it (R256). -/
def xfersFrame (s : State) : State :=
  let go (x : Xfer) : Nat := x.come (Config.freeNat (s.freeCtr + x.id))
  let run := s.xfers.filter fun x => !x.clear
  if run.isEmpty then s
  else
    let s1 := run.foldl (fun a x => moveBytes x x.moved (go x) a) s
    ({ s1 with xfers := s1.xfers.map fun (x : Xfer) => if x.clear then x else { x with moved := go x } }).bump

/-- FIRKIN_READ or FIRKIN_WRITE applies; a bulk write has the window's content from when it started (R265). -/
def firkinMoveApply (wr : Bool) (id : Nat) (p : Packet) (t : Nat) (s : State) : State :=
  let n := p.u32 24
  let f := le 4 s.frame32
  if p.u8 17 = 0 then
    if wr then
      (moveBytes { id := id, write := true, region := p.u8 16, ofs := p.u32 20, total := n, data := p.bytes 32 n } 0 n s).finishOk
        id (f ++ f) t
    else s.finishOk id (f ++ f ++ regionBytes s (p.u8 16) (p.u32 20) n) t
  else
    let x : Xfer := { id := id, write := wr, region := p.u8 16, ofs := p.u32 20, wofs := p.u32 28, total := n,
                      data := if wr then (match s.flightOf id with | some f => f.win | none => []) else [],
                      firstFr := s.frame32, at0 := s.clk }
    if n ≤ 4096 then (moveBytes x 0 n s).finishOk id (f ++ f) t
    else { s with xfers := s.xfers ++ [x] }

/-- The window a bulk FIRKIN_WRITE takes when it starts (R265). -/
def takeWindow (id : Nat) (p : Packet) (s : State) : State :=
  if p.opc = 0x0605 ∧ p.u8 17 = 1 then
    { s with flight := modFlight id (fun f => { f with win := mreads s.mem (0x100000 + p.u32 28) (p.u32 24) }) s.flight }
  else s

/-- BULK_TRANSFER_DONE: the bulk transfer begun first ends (R256, R265). -/
def bulkTransferDoneStep (s : State) : State :=
  match s.xfers.find? fun x => !x.clear with
  | none => s
  | some x =>
    let s0 : State := { s with xfers := s.xfers.filter fun y => !decide (y.id = x.id) }
    (moveBytes x x.moved x.total s0).finishOk x.id (le 4 x.firstFr ++ le 4 s.frame32) s.nowNs

/-- ABORT of a running clear or bulk transfer at its safe point; how far it had come is open (R257, R259). A line bound to a region
whose clear is aborted keeps the ID (log 157). -/
def xferAbort (id : Nat) (s : State) : State :=
  match s.xfers.find? fun x => decide (x.id = id) with
  | none => s
  | some x =>
    let s0 : State := { s with xfers := s.xfers.filter fun y => !decide (y.id = id) }
    if x.clear then
      let n := Config.freeNat s.freeCtr % (x.total + 1)
      match s0.region x.region with
      | none => s0
      | some r =>
        ({ s0 with fk := mclear s0.fk (4096 * r.first) (4096 * (r.first + n)), regions := tdel x.region s0.regions }).bump.finishAborted
          id n s.nowNs
    else
      let k := ceilDiv x.moved 4096
      let n := min x.total (4096 * (k + Config.freeNat s.freeCtr % (x.total / 4096 + 1 - k)))
      ((moveBytes x x.moved n s0).bump).finishAborted id n s.nowNs

/-- A bound line whose region a reset frees is unbound at once (R254). -/
def lineCut (k t : Nat) (s : State) : State :=
  let s1 := lineDrop k 2 t s
  let l := s1.line k
  let s2 := lineRelease k s1
  match l.unbindJob with
  | some j => s2.finishOk j (lineData s2 k) t
  | none => s2

/-- RESET_UNIT of the Firkin host regions (R87, R242, R254). -/
def firkinReset (s : State) : State :=
  let own (x : Xfer) : Bool := match s.region x.region with
    | some r => decide (r.owner = .host)
    | none => true
  let s0 := forEach ((s.xfers.filter own).map (·.id)) xferAbort s
  let s1 := forEach (s0.lines.map (·.1)) (fun k a => if (a.line k).region.isSome then lineCut k a.apT a else a) s0
  { s1 with regions := s1.regions.filter fun r => !decide (r.2.owner = .host) }

def execDelayXfadeEnd (dt : Nat) (k : Nat) (s : State) : Host.Outcome State Fault Refusal :=
  run (.delayXfadeEnd dt k) s (delayXfadeEndStep k)

def execDelayHeldApply (dt : Nat) (k : Nat) (s : State) : Host.Outcome State Fault Refusal :=
  run (.delayHeldApply dt k) s (delayHeldApplyStep k)

def execUnbindFadeEnd (dt : Nat) (k : Nat) (s : State) : Host.Outcome State Fault Refusal :=
  run (.unbindFadeEnd dt k) s (unbindFadeEndStep k)

def execRegionClearDone (dt : Nat) (s : State) : Host.Outcome State Fault Refusal :=
  run (.regionClearDone dt) s regionClearDoneStep

def execBulkTransferDone (dt : Nat) (s : State) : Host.Outcome State Fault Refusal :=
  run (.bulkTransferDone dt) s bulkTransferDoneStep

end Sys2Proof.Machine
end

