-- ==== Sys2Proof/Machine/Out.lean ====
section
/-!
DEFINITION. Analogue outputs: trim and gain of each destination, power sequences of the groups, protection, the response
change and OUT_CFG (08 R267 to R285, R296 to R299). Groups are numbered 0 to 15 LOUT, 16 and 17 HP, 18 and 19 SPK;
destination i of 0 to 21 is ID 0x200 + i. Times of a sequence count thousandths of a frame (R279).
-/
namespace Sys2Proof.Machine
open Sys2Proof

/-- The destinations of a group (R267). -/
def grpDsts (g : Nat) : List Nat := if g < 16 then [g] else if g < 18 then [2 * g - 16, 2 * g - 15] else [g + 2]

/-- The group of a destination. -/
def grpOf (i : Nat) : Nat := if i < 16 then i else if i < 20 then 8 + i / 2 else i - 2

/-- A group that is present. -/
def State.grpOk (s : State) (g : Nat) : Bool := (grpDsts g).all fun i => s.dstOk (0x200 + i)

/-- The groups that are present. -/
def State.allGrp (s : State) : List Nat := (List.range 20).filter s.grpOk

def isHp (g : Nat) : Bool := decide (g = 16) || decide (g = 17)
def isSpk (g : Nat) : Bool := decide (18 ≤ g)

/-- Full gain position (R269). -/
def gFull : Nat := 2 ^ 32

/-- Media time in thousandths of a frame: the frame counter and the part of the present frame that has passed; in
Listen, where no boundary occurs, it runs on by device time (log 14). -/
def State.mtime (s : State) : Nat :=
  let part := (s.nowNs - s.tm.frameT) * s.tm.rate / 1000000
  s.tm.frame * 1000 + (if s.framing then min 999 part else part)

/-- Where a sequence that a jack, a supply or a power state starts begins: at the boundary of the frame in which it applies
(R279, R280; log 152). -/
def State.seqT (s : State) : Nat := if s.framing then s.tm.frame * 1000 else s.mtime

/-- ms in that unit. -/
def State.msT (s : State) (ms : Nat) : Nat := ms * s.tm.rate

/-- The largest MUTE_MS of a group (R267). -/
def State.grpMute (s : State) (g : Nat) : Nat := (grpDsts g).foldl (fun a i => max a (s.out i).muteMs) 0

/-- The time g needs for the part `f` of a full ramp that each destination has left. -/
def State.gTime (s : State) (g : Nat) (f : Nat → Nat) : Nat :=
  let one (i : Nat) : Nat := ceilDiv (f (s.out i).g * s.msT (if (s.grp g).fast then 1 else (s.out i).muteMs)) gFull
  (grpDsts g).foldl (fun a i => max a (one i)) 0

/-- Some destination of the group has g above 0. -/
def State.gUp (s : State) (g : Nat) : Bool := (grpDsts g).any fun i => decide (0 < (s.out i).g)

/-- Every g of a group made 0. -/
def State.gZero (s : State) (g : Nat) : State := forEach (grpDsts g) (fun i a => a.setOut i { a.out i with g := 0 }) s

/-! ### Mute causes and OSTATE (R269, R275, R288) -/

/-- The hardware mute of a group is closed: jack, relock, or the headphone current limit (R275, R284, R288). -/
def Grp.muted (v : Grp) : Bool := v.hwMute || v.relock || decide (v.fault = some 6)

/-- OSTATE: off while a protective action holds (R275). -/
def Grp.ostate (v : Grp) : Nat := if v.fault.isSome then 0 else v.st

/-- A jack's link mute names destination i (R290). -/
def State.linkMuted (s : State) (i : Nat) : Bool :=
  s.jacks.any fun e => e.2.linkOn && bit e.2.linkMask i

/-- A mute cause holds on destination i (R269, R282). -/
def State.muteCause (s : State) (i : Nat) : Bool :=
  let v := s.grp (grpOf i)
  (s.out i).smute || s.linkMuted i || v.muted || v.rateMute.isSome || v.respGo && decide (v.st = 5) ||
    !(decide (v.st = 4) || decide (v.st = 5)) || v.offSoon

/-- Frames of a response's output delay, whole (R151). -/
def dacDelay (resp : Nat) : Nat := [33, 6, 5, 11].getD resp 33

/-! ### Sequences (R279 to R281) -/

/-- OUT_SEQ (R285); in Listen the frame counter holds (R351). -/
def State.outSeq (s : State) (g on : Nat) : State :=
  let v := s.grp g
  s.raise 0x504 (le 2 (0x200 + (grpDsts g).headD 0) ++ le 1 on ++ le 1 v.cause ++
    le 4 ((if s.framing then v.due / 1000 else s.tm.frame) % 2 ^ 32))

/-- R279 starts at t, or a running sequence turns toward on (R281); an enable of a speaker group waits for PVDD (R552). -/
def outEnableAt (g cause t : Nat) (s : State) : State :=
  let v := s.grp g
  if v.latched then s
  else if v.st = 0 then
    if isSpk g ∧ (s.env.pvddMv < 7500 ∨ 17000 < s.env.pvddMv ∨ v.fault.isSome) then s.setGrp g { v with wait := true, cause := cause }
    else s.setGrp g { v with st := 1, due := t + s.msT 2, cause := cause, fast := false, wait := false, again := none }
  else if v.st = 6 ∧ !v.offSoon then
    let s1 := s.setGrp g { v with fast := false }
    s1.setGrp g { v with st := 4, due := t + s1.gTime g (gFull - ·), cause := cause, fast := false }
  else if v.st = 7 then s.setGrp g { v with st := 2, due := t + (v.rr - (v.due - t)), cause := cause, fast := false }
  else if v.st = 8 then s.setGrp g { v with again := some cause }
  else s

/-- An enable begins now. -/
def outEnable (g cause : Nat) (s : State) : State := outEnableAt g cause s.seqT s

/-- The bias begins to fall from its operating point. -/
def biasDown (g t : Nat) (s : State) : State :=
  let v := s.grp g
  s.setGrp g { v with st := 7, rr := s.msT v.ramp, due := t + s.msT v.ramp, fast := false }

/-- R280 starts at t, or a running sequence turns toward off (R281); fast moves g over 1 ms (R283). -/
def outDisableAt (g cause : Nat) (fast : Bool) (t : Nat) (s : State) : State :=
  let v := { s.grp g with again := none, wait := false, respGo := false }
  if v.st = 0 then s.setGrp g v
  else if v.st = 1 then s.setGrp g { v with st := 8, due := t + s.msT 1, cause := cause }
  else if v.st = 2 then s.setGrp g { v with st := 7, due := t + (v.rr - (v.due - t)), cause := cause }
  else if v.st = 3 then biasDown g t (s.setGrp g { v with cause := cause })
  else if v.st = 4 ∨ v.st = 5 ∨ (v.st = 6 ∧ fast) then
    let w := { v with fast := fast || v.fast, cause := cause, respNew := v.respNew, fillTo := none }
    let s1 := s.setGrp g w
    if !s1.gUp g then biasDown g t s1
    else
      let full := decide (v.st = 5) && !w.fast
      s1.setGrp g { w with st := 6, due := t + (if full then s.msT (s.grpMute g) else s1.gTime g id) }
  else s.setGrp g v

/-- A disable begins now. -/
def outDisable (g cause : Nat) (fast : Bool) (s : State) : State := outDisableAt g cause fast s.seqT s

/-- OUT_SEQ_STEP: a step of a group's sequence whose time has come (R279, R280, R282). -/
def outSeqStep (g : Nat) (s : State) : State :=
  let v := s.grp g
  let due := decide (v.due ≤ s.mtime) || decide (v.due / 1000 ≤ s.tm.frame)
  if v.st = 5 then
    match (if v.respGo then v.respNew else none), v.fillTo with
    | some r, none =>
      if s.gUp g then s
      else (forEach (grpDsts g) (fun i a => a.setOut i { a.out i with hist := [] }) s).setGrp g
        { v with resp := r, fillTo := some (s.tm.frame + dacDelay r) }
    | some _, some f => if f ≤ s.tm.frame then s.setGrp g { v with respNew := none, respGo := false, fillTo := none } else s
    | none, _ => s
  else if v.st = 0 ∨ !due then s
  else if v.st = 1 then s.setGrp g { v with st := 2, rr := s.msT v.ramp, due := v.due + s.msT v.ramp }
  else if v.st = 2 then s.setGrp g { v with st := 3, due := v.due + s.msT 20 }
  else if v.st = 3 then
    s.setGrp g { v with st := 4, due := v.due + s.msT (s.grpMute g), resp := v.respNew.getD v.resp, respNew := none,
                        respGo := false, fillTo := none }
  else if v.st = 4 then (s.setGrp g { v with st := 5 }).outSeq g 1
  else if v.st = 6 then
    if v.offSoon then (s.gZero g).setGrp g { v with st := 0, offSoon := false, fast := false, rateMute := none }
    else biasDown g v.due (s.gZero g)
  else if v.st = 7 then s.setGrp g { v with st := 8, due := v.due + s.msT 1 }
  else
    let s1 := (s.setGrp g { v with st := 0, again := none, rateMute := none }).outSeq g 0
    match v.again with
    | some c => outEnableAt g c (if s.framing then v.due / 1000 * 1000 else v.due) s1
    | none => s1

/-- The first frame of Run (R283). -/
def outsRunStart (s : State) : State :=
  forEach s.allGrp (fun g a => if (a.grp g).en then outEnable g 2 a else a) s

/-- A request to leave Run (R283). -/
def outsLeave (s : State) : State := forEach s.allGrp (fun g a => outDisable g 2 true a) s

/-- Every group is off. -/
def State.outsOff (s : State) : Bool := s.grps.all fun e => decide (e.2.st = 0)

/-- Frames begin again after Listen: running sequences keep the time they have left (log 14). -/
def outsRebase (before after : Nat) (s : State) : State :=
  { s with grps := tmap (fun v => { v with due := after + (v.due - before) }) s.grps }

/-- The serving MPLL relocks: the hardware mute of every group that is not off closes, and opens at lock as g rises from
0 (R284). -/
def outsRelock (on : Bool) (s : State) : State :=
  forEach s.allGrp (fun g a =>
    let v := a.grp g
    if on then (if v.st = 0 then a else a.setGrp g { v with relock := true })
    else if v.relock then (a.gZero g).setGrp g { v with relock := false } else a) s

/-- The hardware mute of a headphone pair closes or opens; it opens as g rises from 0 (R288). -/
def hpMute (pair : Nat) (closed : Bool) (s : State) : State :=
  let v := s.grp (16 + pair)
  if v.hwMute && !closed then (s.gZero (16 + pair)).setGrp (16 + pair) { v with hwMute := false }
  else s.setGrp (16 + pair) { v with hwMute := closed }

/-! ### Frames (R268, R269, R272) -/

/-- One frame period of the gains and the samples at the DAC inputs, in Run whether or not the frame was performed. -/
def outFrame (i : Nat) (s : State) : State :=
  let o := s.out i
  let v := s.grp (grpOf i)
  if v.st = 0 then s
  else
    let n := max 1 (msFrames (if v.fast || v.offSoon || decide (v.rateMute = some 0) then 1 else o.muteMs) s.tm.rate)
    let d := ceilDiv gFull n
    let g := if s.muteCause i then o.g - d else min gFull (o.g + d)
    let x := scale62 (rcos g gFull) (tget 0 s.eng.presented (0x200 + i))
    s.setOut i { o with g := g, hist := x :: o.hist.take 63 }

/-- The link mutes in force in the frame after a jack's change (R290). -/
def linkNow (j : Jack) (en : Bool) : Bool := en && decide (j.acc = some j.linkSt)

/-- Steps 1 and 2 of a base-rate change on the outputs: g of every group that is not off moves to 0 over 1 ms; from the
first frame at the new rate, Δ of its response passes before g rises, and sequences keep the time they have left (R410). -/
def outsRateStart (s : State) : State :=
  if s.inRun then forEach s.allGrp (fun g a =>
    if (a.grp g).st = 0 then a else a.setGrp g { a.grp g with rateMute := some 0 }) s
  else s

def outsRateApply (old new : Nat) (s : State) : State :=
  let t := s.mtime
  let s1 := forUpto 22 (fun i a => a.setOut i { a.out i with hist := [] }) s
  forEach s.allGrp (fun g a =>
    let v := a.grp g
    if v.st = 0 then a
    else a.setGrp g { v with due := t + (v.due - t) * new / old, rr := v.rr * new / old,
                             rateMute := some (s.tm.frame + 1 + dacDelay v.resp) }) s1

/-- The output gains of a frame boundary. -/
def outsFrame (s : State) : State :=
  if s.outsOff then s
  else
    let open0 (v : Grp) : Grp :=
      match v.rateMute with
      | some f => if f ≠ 0 ∧ f ≤ s.tm.frame then { v with rateMute := none } else v
      | none => v
    let s1 : State := { s with grps := tmap open0 s.grps }
    forUpto 22 outFrame s1

/-- Trim of destination i on its routed sample in a performed frame (R268); a headphone sample above -8 dBFS raises the
rails (R272). -/
def outWork (i : Nat) (x : Int) (s : State) : State × Int :=
  let o := s.out i
  let a : Int := match o.tf with
    | some f => f.adv.now
    | none => factor o.otrim
  let y := if o.tf.isNone ∧ o.otrim = 0 then x else satQ31 (roundAway (x * a) (2 ^ 96))
  let s1 := if o.tf.isSome then s.setOut i { o with tf := advFade o.tf } else s
  let loud := decide (854928639 ≤ y.natAbs)
  let g := grpOf i
  (if isHp g && loud && !decide ((s1.grp g).st = 0) then
     s1.setGrp g { s1.grp g with railHigh := true, loudAt := s1.clk }
   else s1, y)

/-- CP_RAIL_LOWER: 50 ms with no sample above -8 dBFS (R272). -/
def cpRailLowerStep (k : Nat) (s : State) : State :=
  let v := s.grp (16 + k)
  if v.railHigh ∧ v.loudAt + 50000000 ≤ s.clk then s.setGrp (16 + k) { v with railHigh := false } else s

/-! ### Protection (R275, R276) -/

def State.outFault (s : State) (g cause how : Nat) : State :=
  s.raise 0x503 (le 2 (0x200 + (grpDsts g).headD 0) ++ le 1 cause ++ le 1 how ++ le 4 s.frame32)

/-- A group off at once. -/
def grpOff (g : Nat) (s : State) : State :=
  let v := s.grp g
  (s.gZero g).setGrp g { v with st := 0, fast := false, offSoon := false, again := none, respGo := false, fillTo := none, rateMute := none }

/-- A protective action on a group: 1, 5 latched and off, 3, 4 off with automatic recovery, 6 the pair's hardware mute,
2 off after g has moved to 0 over 1 ms. Cause 2 stays the latched one whatever comes after it (log 153). -/
def protect (g cause : Nat) (s : State) : State :=
  let v := s.grp g
  let latched := !(decide (cause = 3) || decide (cause = 4))
  let s1 := s.setGrp g { v with fault := some (if v.fault = some 2 then 2 else cause),
                                latched := latched || v.latched, wait := false }
  let s2 :=
    if cause = 6 then s1
    else if cause = 2 ∧ 4 ≤ v.st ∧ v.st ≤ 6 then
      s1.setGrp g { s1.grp g with st := 6, due := s.mtime + s.msT 1, offSoon := true, fast := true, again := none,
                                  respGo := false, fillTo := none }
    else grpOff g s1
  s2.outFault g cause (if latched then 0 else 1)

/-- Speaker over-current and DC: a bridge that is not off (R275). -/
def spkTrip (k cause : Nat) (s : State) : State := if (s.grp (18 + k)).st = 0 then s else protect (18 + k) cause s

/-- The current limit of a pair held 100 ms (R275). -/
def hpTrip (k : Nat) (s : State) : State :=
  if s.grpOk (16 + k) ∧ (s.grp (16 + k)).st ≠ 0 ∧ (s.grp (16 + k)).fault ≠ some 6 then protect (16 + k) 6 s else s

/-- Cause 2: every speaker and headphone group, whatever its state (R275). -/
def thermalTripOutputs (s : State) : State :=
  forEach (s.allGrp.filter fun g => isHp g || isSpk g) (fun g a => protect g 2 a) s

/-- PVDD out of range: the bridges that are not off (R275, R552). -/
def pvddTrip (cause mv : Nat) (bad : Bool) (s : State) : State :=
  let s1 := { s with env := { s.env with pvddMv := mv } }
  if bad then forEach [18, 19] (fun g a => if (a.grp g).st = 0 then a else protect g cause a) s1 else s1

/-- PVDD has stayed in range for 50 ms: automatic recovery, and waiting enables start (R275, R552). An enable that waited
without a fault waits under the recovery of cause 3, so its OUT_SEQ gives cause 3 (R285; log 158). -/
def pvddRecover (mv : Nat) (s : State) : State :=
  let s1 := { s with env := { s.env with pvddMv := mv } }
  forEach [18, 19] (fun g a =>
    let v := a.grp g
    let ok := (decide (v.fault = some 3) && decide (7500 ≤ mv)) || (decide (v.fault = some 4) && decide (mv ≤ 16500))
    if ok && !v.latched then
      let b := (a.setGrp g { v with fault := none, wait := false }).outFault g (v.fault.getD 0) 2
      if v.en && b.inRun then outEnable g 3 b else b
    else if v.wait && v.en && a.inRun && decide (7500 ≤ mv) && decide (mv ≤ 16500) && v.fault.isNone then
      outEnable g 3 (a.setGrp g { v with wait := false })
    else a) s1

/-! ### OUT_CFG (R296 to R299) -/

/-- Destination numbers a mask names. -/
def outsNamed (p : Packet) : List Nat := maskBits (p.u32 16) 22

def outCfgLen (p : Packet) : Option Err := lenIs p 32

/-- The lowest destination of a headphone pair that is named without the other. -/
def halfPair (m : Nat) : Option Nat :=
  (([16, 17, 18, 19].find? fun i => bit m i && !bit m (i ^^^ 1)).map (0x200 + ·))

def otrimOk (t : Int) : Bool := decide (t = muteCode) || (decide (-14400 ≤ t) && decide (t ≤ 0))

/-- The groups a mask names. -/
def grpsNamed (p : Packet) : List Nat := (List.range 20).filter fun g => (grpDsts g).any fun i => (outsNamed p).contains i

/-- Tj at which a group shut down by heat may be enabled again, and the hotter die (R275). -/
def State.tj (s : State) : Int := max s.env.tjC s.env.tjE

def outCfgChk (p : Packet) (s : State) : Option Err :=
  let w := p.u16 20
  firstErr [p.clr 16 4 0xFFC00000,
    match (outsNamed p).find? fun i => !s.dstOk (0x200 + i) with
    | some i => some (badParam 16 (0x200 + i))
    | none => none,
    failIf (decide (w ≠ 0) && decide (p.u32 16 = 0)) (badParam 16 0),
    failIf ((bit w 0 || bit w 1 || bit w 3) && (halfPair (p.u32 16)).isSome) (badParam 16 ((halfPair (p.u32 16)).getD 0)),
    p.clr 20 2 0xFFC0, p.withinIf (bit w 0) 22 1 0 1, p.withinIf (bit w 1) 23 1 0 3,
    failIf (bit w 2 && !otrimOk (p.s16 24)) (badInt 24 (p.s16 24)), p.withinIf (bit w 2) 26 2 0 1000,
    p.withinIf (bit w 3) 28 2 100 400, p.withinIf (bit w 4) 30 1 1 50, p.clr 31 1 0xFE,
    match (grpsNamed p).find? fun g => decide ((s.grp g).fault = some 2) with
    | some g => stateIf (bit w 0 && decide (p.u8 22 = 1) && decide (14080 ≤ s.tj)) (0x200 + (grpDsts g).headD 0)
    | none => none]

/-- A new OTRIM from the momentary amplitude over n performed frames (R268). -/
def Out.setTrim (o : Out) (v : Int) (n : Nat) : Out :=
  let m := fadeVal o.tf (factor o.otrim)
  { o with otrim := v, tf := if n = 0 ∨ m = factor v then none else some { m := m, t := factor v, n := n } }

/-- The settings of one destination. -/
def outSet (p : Packet) (i : Nat) (s : State) : State :=
  let w := p.u16 20
  let o := s.out i
  let n := if s.inRun then msFrames (p.u16 26) s.tm.rate else 0
  let o1 : Out := if bit w 2 then { o.setTrim (p.s16 24) n with ofade := p.u16 26 } else o
  s.setOut i { o1 with muteMs := if bit w 4 then p.u8 30 else o.muteMs, smute := if bit w 5 then bit (p.u8 31) 0 else o.smute }

/-- A response for a group: a change on a group that is on moves g, else it is kept for the next unmute (R282). While the
interpolator fills, only another response begins anew. -/
def setResp (g r : Nat) (s : State) : State :=
  let v := s.grp g
  if v.st = 5 ∧ v.fillTo.isSome then
    (if v.resp = r then s else s.setGrp g { v with respNew := some r, fillTo := none })
  else if v.resp = r then s.setGrp g { v with respNew := none, respGo := false }
  else s.setGrp g { v with respNew := some r, respGo := decide (v.st = 5) }

/-- Where a sequence that OUT_CFG starts begins: at the boundary of the frame in which it applies (R279, R280, R297). -/
def State.applyT (s : State) : Nat := s.apFrame * 1000

/-- EN of a group (R275, R297). -/
def setEn (g : Nat) (en : Bool) (s : State) : State :=
  let v := s.grp g
  let fresh := decide (v.en ≠ en)
  let s1 := s.setGrp g { v with en := en }
  if en then
    if v.latched then
      let st' := if v.fault = some 6 then 0 else v.st
      let b := s1.setGrp g { s1.grp g with latched := false, fault := none, st := st', respGo := false, fillTo := none }
      if b.inRun then outEnableAt g 0 s.applyT (if v.fault = some 6 then b.gZero g else b) else b
    else if fresh ∧ s1.inRun then outEnableAt g 0 s.applyT s1 else s1
  else if fresh then (if s1.inRun then outDisableAt g 0 false s.applyT s1 else s1) else s1

/-- The settings of one group. -/
def grpSet (p : Packet) (g : Nat) (s : State) : State :=
  let w := p.u16 20
  let s1 := if bit w 1 then setResp g (p.u8 23) s else s
  let s2 := if bit w 3 then s1.setGrp g { s1.grp g with ramp := p.u16 28 } else s1
  if bit w 0 then setEn g (decide (p.u8 22 = 1)) s2 else s2

/-- When a started group reaches on if nothing intervenes (R298). -/
def State.onAt (s : State) (g : Nat) : Option Nat :=
  let v := s.grp g
  let m := s.msT (s.grpMute g)
  if v.st = 1 then some (v.due + s.msT v.ramp + s.msT 20 + m)
  else if v.st = 2 then some (v.due + s.msT 20 + m)
  else if v.st = 4 then some v.due
  else if v.st = 8 ∧ v.again.isSome then some (v.due + s.msT 22 + s.msT v.ramp + m)
  else none

/-- The response in force: a stored one counts while no sample is driven, since the next unmute uses it (R282, log 44). -/
def Grp.respInForce (v : Grp) : Nat := if 4 ≤ v.st ∧ v.st ≤ 6 then v.resp else v.respNew.getD v.resp

/-- The 4 bytes of a destination (R298); FAULT is set while a protective action holds, too (R275). -/
def outRec (s : State) (i : Nat) : List Byte :=
  if !s.dstOk (0x200 + i) then le 1 0 ++ le 1 8 ++ le 2 0
  else
    let v := s.grp (grpOf i)
    let o := s.out i
    le 1 v.ostate ++ le 1 (flags [s.muteCause i && decide (o.g = 0), v.muted, v.latched || v.fault.isSome, false, o.tf.isSome]) ++
    le 1 v.respInForce ++ le 1 0

def outCfgApply (id : Nat) (p : Packet) (t : Nat) (s : State) : State :=
  let s1 := forEach (grpsNamed p) (grpSet p) (forEach (outsNamed p) (outSet p) s)
  let started := (grpsNamed p).filter fun g =>
    bit (p.u16 20) 0 && decide (p.u8 22 = 1) && s1.inRun && (!(s.grp g).en || (s.grp g).latched)
  let ready := started.foldl (fun a g => max a ((s1.onAt g).getD 0)) 0
  s1.finishOk id (le 4 (s.apFrame % 2 ^ 32) ++ le 4 (ready / 1000 % 2 ^ 32) ++ (List.range 22).flatMap (outRec s1)) t

def execSpkOvercurrent (dt : Nat) (k : Nat) (s : State) : Host.Outcome State Fault Refusal :=
  run (.spkOvercurrent dt k) s (spkTrip k 1)

def execSpkDcFault (dt : Nat) (k : Nat) (s : State) : Host.Outcome State Fault Refusal :=
  run (.spkDcFault dt k) s (spkTrip k 5)

def execHpCurrentLimit (dt : Nat) (k : Nat) (s : State) : Host.Outcome State Fault Refusal :=
  run (.hpCurrentLimit dt k) s (hpTrip k)

def execPvddUnder (dt : Nat) (mv : Nat) (s : State) : Host.Outcome State Fault Refusal :=
  run (.pvddUnder dt mv) s (pvddTrip 3 mv (decide (mv < 7000)))

def execPvddOver (dt : Nat) (mv : Nat) (s : State) : Host.Outcome State Fault Refusal :=
  run (.pvddOver dt mv) s (pvddTrip 4 mv (decide (17000 < mv)))

def execPvddRecovery (dt : Nat) (mv : Nat) (s : State) : Host.Outcome State Fault Refusal :=
  run (.pvddRecovery dt mv) s (pvddRecover mv)

def execOutSeqStep (dt : Nat) (g : Nat) (s : State) : Host.Outcome State Fault Refusal :=
  run (.outSeqStep dt g) s (outSeqStep g)

def execCpRailLower (dt : Nat) (k : Nat) (s : State) : Host.Outcome State Fault Refusal :=
  run (.cpRailLower dt k) s (cpRailLowerStep k)

end Sys2Proof.Machine
end

