-- ==== Sys2Proof/Machine/Jack.lean ====
section
/-!
DEFINITION. Jacks and mic biases: debounce, hardware and link mutes, headset measurement, button detection and JACK_CFG
(08 R277, R286 to R295, R300 to R303).
-/
namespace Sys2Proof.Machine
open Sys2Proof

/-- JEN of jack j: set on HPJ0 and HPJ1 after reset (R300); HPJ1 is absent on LF9256-A. -/
def State.jackEn (s : State) (j : Nat) : Bool := !(decide (j = 1) && s.isSmall) && (s.jack j).jen.getD (decide (j < 2))

/-- The bias a jack's measurement uses (R300). -/
def Jack.bias (k : Jack) (j : Nat) : Nat := k.micb.getD (if j < 2 then j else 0)

/-- The jack unit runs: comparators in Run, Idle and Listen (R286). -/
def State.jackUnit (s : State) : Bool := s.alive && s.pwr.ready && !decide (s.pwr.pstate = .hibernate)

/-- Privet cuts the biases (R459). -/
def State.biasCut (s : State) : Bool := s.priv

/-- A bias that would deliver: by MB_EN, for a measurement, or for a headset (R291, R302). -/
def State.biasWant (s : State) (b : Nat) : Bool :=
  (s.mb b).en || [0, 1].any fun j =>
    let k := s.jack j
    decide (k.bias j = b) && s.jackEn j && k.hsdet && decide (k.acc = some true) &&
      ((match k.meas with
        | some m => decide (m.step ≠ 2)
        | none => false) || decide (k.cls = 2) || decide (k.cls = 4))

/-- The JACK event (R294). -/
def State.jackEvent (s : State) (j jflags ns : Nat) : State :=
  let k := s.jack j
  s.raiseAt 0x501 (le 1 j ++ le 1 (b2n (decide (k.acc = some true))) ++ le 1 (if j < 2 then k.cls else 0xFF) ++
    le 1 jflags ++ le 4 k.edgeFr) ns

/-- The HS_BUTTON event (R295). -/
def State.buttonEvent (s : State) (j b press mean ns : Nat) : State :=
  s.raiseAt 0x502 (le 1 j ++ le 1 b ++ le 1 press ++ le 1 0 ++ le 2 (min 0xFFFF mean) ++ le 2 0) ns

/-- The JACK event that waits for a measurement's class: an insertion's own, or a re-measurement's (R291, R293). -/
def Jack.waits (k : Jack) : Option HsMeas := k.meas.filter fun m => decide (m.step ≠ 2)

/-- A measurement is dropped before its class is known: the event that waits for it reports class 0 (R291; log 154). -/
def State.measureDrop (s : State) (j : Nat) : State :=
  match (s.jack j).waits with
  | some m => (s.setJack j { s.jack j with meas := none, cls := 0 }).jackEvent j m.jflags m.ns
  | none => s

/-- A headset measurement begins, reads 4 at once while the bias is cut, or waits in Listen (R291, R293); its event has the
accepted edge's time (R294), and one that waited for the measurement this one replaces keeps its JFLAGS (log 154). Where both
rows of R291's table hold, an insertion in Listen behind the cut reads 4 and Listen's own entry reads 0 (log 159). -/
def startMeasure (j flags : Nat) (s : State) : State :=
  let k := s.jack j
  let jflags := match k.waits with
    | some m => m.jflags
    | none => flags
  let ns := k.edgeNs
  let clear : Jack := { k with btnNow := none, cand := none, polls := [] }
  if s.biasCut then (s.setJack j { clear with cls := 4, meas := none }).jackEvent j jflags ns
  else if s.framing then s.setJack j { clear with cls := 0, meas := some { step := 0, at0 := s.clk, jflags := jflags, ns := ns } }
  else
    (s.setJack j { clear with cls := 0, meas := some { step := 2, at0 := s.clk, jflags := jflags ||| 2, ns := ns } }).jackEvent
      j jflags ns

/-! ### Turns on GB (R482) -/

/-- The jack unit holds GB with a headset measurement (R291, R482). -/
def State.gbJack (s : State) : Bool := [0, 1].any fun j => match (s.jack j).meas with
  | some m => decide (m.step = 1)
  | none => false

/-- When a measurement of jack j that waits was requested, 5 ms after its bias was on. -/
def State.measDue (s : State) (j : Nat) : Option Nat := match (s.jack j).meas with
  | some m => if m.step = 0 then some (m.at0 + 5000000) else none
  | none => none

/-- Jack j is polled (R292). -/
def State.polled (s : State) (j : Nat) : Bool :=
  let k := s.jack j
  s.jackUnit && s.framing && s.jackEn j && k.btn && decide (k.cls = 2) && decide (j < 2) && !s.biasCut

/-- When its next poll is due (R292). -/
def State.pollDue (s : State) (j : Nat) : Option Nat := if s.polled j then some ((s.jack j).pollAt + 5000000) else none

/-- The jack unit requested a conversion on GB by a time and still waits (R482). -/
def State.jackBy (s : State) (t : Nat) : Bool :=
  [0, 1].any fun j => (s.measDue j).any (fun d => decide (d ≤ t)) || (s.pollDue j).any fun d => decide (d ≤ t)

/-- Conversion time in ns by CTIME (R477). -/
def ctimeNs (c : Nat) : Nat :=
  [62500, 125000, 250000, 500000, 1000000, 2000000, 5000000, 10000000, 20000000, 50000000, 100000000, 200000000].getD c 0

/-- A calibration is between two conversions at a time, or still settles; so is a converter without one (R482, log 163). -/
def Gauge.calGap (g : Gauge) (t : Nat) : Bool :=
  match g.calFrom with
  | some (b, u) => decide (t < b) || decide ((t - b) % (max 1 (ctimeNs u.ctime)) = 0)
  | none => true

/-- The sequence goes on with its next entry when nothing is at hand and nothing urgent waits, the jack unit on GB included
(R482). -/
def gaugeResume (c : Nat) (s : State) : State :=
  let g := s.gg c
  if s.framing ∧ g.inPass ∧ g.cur.isNone ∧ g.urg.isEmpty ∧ !(decide (c = 1) && (s.gbJack || s.jackBy s.clk)) then
    s.setGg c { g with cur := some { ent := g.nextEnt, at0 := s.clk } }
  else s

/-- The jack unit's conversions on GB, from a time to now, have ended: a settle that they cut runs again in full, a calibration goes on
with its next conversion, and GB's sequence with its next entry (R482, R492). -/
def gbServed (t : Nat) (s : State) : State :=
  let g := s.gb
  let urg := match g.calFrom, g.urg with
    | some (b, u), _ :: us => (if t < b then { u with started := some s.clk, extra := 0 } else { u with extra := u.extra + (s.clk - t) }) :: us
    | _, l => l
  gaugeResume 1 (s.setGg 1 { g with cur := g.cur.map fun v => { v with at0 := s.clk }, urg := urg, freeAt := s.clk })

/-! ### Debounce (R286 to R290) -/

/-- What a debounced pin shows: inserted or out (R286). -/
def State.jackRead (s : State) (j : Nat) : Bool := s.pins.jackLow.getD j false ^^ (s.jack j).pol

/-- The debounce restarts from the state the pin shows (R287); an inserted pin behind a closed hardware mute debounces
too, so that the mute opens when the insertion is accepted (R288). -/
def debounce (j : Nat) (s : State) : State :=
  let k := s.jack j
  let r := s.jackRead j
  let shut := decide (j < 2) && (s.grp (16 + j)).hwMute
  if k.acc = some r ∧ !(r && shut) then s.setJack j { k with deb := none }
  else s.setJack j { k with deb := some { toIn := r, at0 := s.clk, ns := s.nowNs, fr := s.frame32 } }

/-- Every enabled jack sampled as the jack unit powers up (R286). -/
def jacksPowerUp (s : State) : State := forUpto 4 (fun j a => if a.jackEn j then debounce j a else a) s

/-- JACK_EDGE (R287, R288): a return to inserted during a removal's debounce is a glitch. -/
def jackEdgeStep (j : Nat) (level : Bool) (s : State) : State :=
  if s.pins.jackLow.getD j false = !level then s
  else
    let s1 := { s with pins := { s.pins with jackLow := (List.range 4).map fun i =>
      if i = j then !level else s.pins.jackLow.getD i false } }
    if !(s1.jackUnit && s1.jackEn j) then s1
    else
      let r := s1.jackRead j
      let s2 := if !r ∧ j < 2 then hpMute j true s1 else s1
      let k := s2.jack j
      let back := r && decide (k.acc = some true) && (match k.deb with
        | some d => !d.toIn
        | none => false)
      debounce j (if back then s2.setJack j { k with glitch := satInc 15 k.glitch } else s2)

/-- A change of jack state is accepted (R287 to R291). -/
def jackAccept (j : Nat) (d : Deb) (s0 : State) : State :=
  let s := s0.measureDrop j
  let k := s.jack j
  let s1 := s.setJack j { k with acc := some d.toIn, deb := none, edgeFr := d.fr, edgeNs := d.ns, meas := none, btnNow := none, cand := none,
                                 polls := [], cls := 0 }
  if 2 ≤ j then gaugeTrig (0x10 + (j - 2)) (s1.jackEvent j 0 d.ns)
  else
    let g := 16 + j
    let s2 := hpMute j (!d.toIn) s1
    let v := s2.grp g
    let s3 := if d.toIn ∧ v.fault = some 6 then (s2.gZero g).setGrp g { v with fault := none, latched := false } else s2
    let run := k.auto && s3.inRun && (if d.toIn then (s3.grp g).en else decide ((s3.grp g).st ≠ 0))
    let s4 := if !run then s3 else if d.toIn then outEnable g 1 s3 else outDisable g 1 false s3
    let fl := b2n (run && decide (s4.grp g ≠ s3.grp g))
    if d.toIn ∧ k.hsdet then startMeasure j fl s4 else s4.jackEvent j fl d.ns

/-- JACK_DEBOUNCE_EXPIRE: the pin has held for the debounce time; after a glitch only the mute opens (R287, R288). -/
def jackExpireStep (j : Nat) (s : State) : State :=
  let k := s.jack j
  match k.deb with
  | some d =>
    if !(s.jackUnit && s.jackEn j) || decide (s.clk < d.at0 + (if d.toIn then k.dbIn else k.dbOut) * 1000000) then s
    else if k.acc = some d.toIn then hpMute j false (s.setJack j { k with deb := none })
    else gaugeResume 1 (jackAccept j d s)
  | none => s

/-- A link mute begins and ends in the frame after its jack's change (R290). -/
def linksFrame (s : State) : State :=
  { s with jacks := s.jacks.map fun e => (e.1, { e.2 with linkOn := linkNow e.2 (s.jackEn e.1) }) }

/-! ### Headset measurement (R291) -/

/-- An urgent conversion on GB was requested before a time and has not begun; one that a calibration holds back is served
after the jack unit's (R482). -/
def State.gbAhead (s : State) (at0 : Nat) : Bool := match s.gb.urg.head? with
  | some u => u.started.isNone && decide (u.at0 < at0)
  | none => false

/-- GB can have taken a conversion of the jack unit from a time on: nothing of its own ran then but a settle (R482). -/
def State.gbTurn (s : State) (t : Nat) : Bool :=
  let g := s.gb
  !s.gbJack && !s.gbAhead t && decide (g.freeAt ≤ t) && g.calGap t && !(g.urg.any fun u => u.started.isSome && u.cal.isNone) &&
  match g.cur with
  | some v => decide (v.at0 ≤ t) && decide (t < v.at0 + ((g.seq[v.ent]?).map (·.settle)).getD 0 * 1000)
  | none => true

/-- HEADSET_MEASUREMENT_START: GB begins its two conversions, 5 ms after the bias is on. -/
def measureStartStep (j : Nat) (s : State) : State :=
  let k := s.jack j
  match k.meas with
  | some m =>
    if m.step = 0 ∧ m.at0 + 5000000 ≤ s.clk ∧ s.framing ∧ s.gaugeFree 1 ∧ !s.gbJack ∧ !s.gbAhead (m.at0 + 5000000) ∧
        s.gb.calGap s.clk then
      s.setJack j { k with meas := some { m with step := 1, at0 := s.clk } }
    else s
  | none => s

/-- Class of a plug from the sum of its two bias currents (R291). -/
def hsClass (sum iShort : Nat) : Nat := if sum < 40 then 1 else if sum < 2 * iShort then 2 else 3

/-- HEADSET_MEASURE_DONE (R291, R294). -/
def measureDoneStep (j i1 i2 : Nat) (s : State) : State :=
  let k := s.jack j
  match k.meas with
  | some m =>
    if m.step = 1 then
      (gbServed m.at0 (s.setJack j { k with
        meas := none, pollAt := s.clk, cls := hsClass (i1 + i2) k.iShort, iMicb := min 0xFFFE ((i1 + i2 + 1) / 2) })).jackEvent j m.jflags m.ns
    else s
  | none => s

/-- Measurements that waited in Listen begin at the first frame of Idle or Run; while Privet cuts the bias the class is 4 at
once (R291, R293). -/
def measuresWake (s : State) : State :=
  forUpto 2 (fun j a =>
    match (a.jack j).meas with
    | some m => if m.step = 2 then startMeasure j m.jflags a else a
    | none => a) s

/-- Listen is entered: classes read 0, detection stops, and a plug is measured again in Idle or Run; a JACK event that waited
for the class reports 0 (R291). -/
def measuresSleep (s : State) : State :=
  forUpto 2 (fun j a =>
    let k := a.jack j
    let again := k.hsdet && decide (k.acc = some true) && a.jackEn j
    let b := a.setJack j { k with
      cls := 0, btnNow := none, cand := none, polls := [],
      meas := if again then some { step := 2, at0 := a.clk, jflags := 2, ns := k.edgeNs } else none }
    match k.meas with
    | some m => b.jackEvent j m.jflags m.ns
    | none => b) s

/-- Privet cuts the biases: a jack whose bias delivered reads class 4, a held button is released, and a JACK event that waited for
the class reports 4 (R291, R293). A measurement put off to the end of Listen stays put off. A release so reported has no
deciding polls: it gives the last poll's current and the present time (R295; log 160). -/
def jacksCut (s : State) : State :=
  gaugeResume 1 <| forUpto 2 (fun j a =>
    let k := a.jack j
    if k.hsdet && a.jackEn j && decide (k.acc = some true) && a.biasWant (k.bias j) then
      let a1 := match k.btnNow with
        | some b => a.buttonEvent j b 0 k.iMicb a.nowNs
        | none => a
      let late := k.meas.filter fun m => decide (m.step = 2)
      let a2 := a1.setJack j { k with cls := 4, meas := late, btnNow := none, cand := none, polls := [] }
      match k.meas with
      | some m => if m.step = 2 then a2 else a2.jackEvent j m.jflags m.ns
      | none => a2
    else a) s

/-- The cut ends: plugs of class 4 are measured again with JFLAGS [1] (R293). -/
def jacksUncut (s : State) : State :=
  forUpto 2 (fun j a => if (a.jack j).cls = 4 then startMeasure j 2 a else a) s

/-! ### Buttons (R292) -/

/-- The range a poll falls in: a button's, 4 for the window band, none outside. -/
def Jack.pollKind (k : Jack) (i : Nat) : Option Nat :=
  match firstFrom (fun b => decide (k.btnLo.getD b 0 ≤ i) && decide (i ≤ k.btnHi.getD b 0)) 0 4 with
  | some b => some b
  | none => if 20 ≤ i ∧ i ≤ k.iShort then some 4 else none

/-- Rounded mean. -/
def meanOf (l : List Nat) : Nat := (2 * l.foldl (· + ·) 0 + l.length) / (2 * max 1 l.length)

/-- Where the grid of 5 ms goes on after a poll that began at t; one that came late leaves out those it missed. -/
def nextPoll (due t : Nat) : Nat := if t < due + 5000000 then due else t

/-- BUTTON_POLL: a poll whose 250 µs conversion on GB ends now, after its turn came; four alike polls press a button, two in the
band release it (R292, R482). -/
def buttonPollStep (j i : Nat) (s0 : State) : State :=
  let due := (s0.jack j).pollAt + 5000000
  let t := s0.clk - 250000
  if !s0.polled j || decide (s0.clk < due + 250000) || !s0.gbTurn t then s0
  else
    let s := gbServed t (s0.setJack j { s0.jack j with pollAt := nextPoll due t })
    let k := s.jack j
    let kind := k.pollKind i
    let same := decide (kind = k.cand) && kind.isSome
    let polls := if same then k.polls ++ [i] else [i]
    let first := if same then k.firstPoll else s.nowNs
    let k1 : Jack := { k with cand := kind, polls := polls, firstPoll := first, iMicb := min 0xFFFE i }
    match kind, k.btnNow with
    | some 4, some b =>
      if polls.length = 2 then (s.setJack j { k1 with btnNow := none }).buttonEvent j b 0 (meanOf polls) first
      else s.setJack j k1
    | some 4, none => s.setJack j { k1 with polls := polls.take 2 }
    | some b, none =>
      if polls.length = 4 then (s.setJack j { k1 with btnNow := some b }).buttonEvent j b 1 (meanOf polls) first
      else s.setJack j k1
    | some _, some _ => s.setJack j { k1 with polls := polls.take 4 }
    | none, _ => s.setJack j { k1 with cand := none, polls := [] }

/-! ### JACK_CFG (R300 to R303) -/

/-- The settings of a JACK_CFG, and what they end in the jack (R301). -/
def jackSet (p : Packet) (was : Bool) (k : Jack) : Jack :=
  let w := p.u8 17
  let fl := p.u8 18
  let now := if bit w 0 then bit fl 0 else was
  let k1 : Jack := if bit w 0 then { k with
      jen := some now, pol := bit fl 1, dbIn := p.u8 20, dbOut := p.u8 21, glitch := (0, false),
      acc := if now then k.acc else none, deb := if now then k.deb else none, cls := if now then k.cls else 0,
      meas := if now then k.meas else none, btnNow := if now then k.btnNow else none, polls := if now then k.polls else [],
      cand := if now then k.cand else none } else k
  let k2 : Jack := if bit w 1 then { k1 with auto := bit fl 2 } else k1
  let k3 : Jack := if bit w 2 then { k2 with linkSt := bit fl 5, linkMask := p.u32 24 } else k2
  let k4 : Jack := if bit w 3 then { k3 with
      hsdet := bit fl 3, btn := bit fl 4, micb := some (p.u8 19), iShort := p.u16 28,
      cls := if bit fl 3 then k3.cls else 0, meas := if bit fl 3 then k3.meas else none,
      btnNow := if bit fl 4 then k3.btnNow else none } else k3
  let k5 : Jack := if bit w 4 then { k4 with
      btnLo := (List.range 4).map fun b => p.u16 (32 + 4 * b), btnHi := (List.range 4).map fun b => p.u16 (34 + 4 * b) } else k4
  { k5 with linkOn := if bit w 0 || bit w 2 then linkNow k5 now else k.linkOn }

/-- Jack j with the settings stored in Listen. -/
def State.jackNext (s : State) (j : Nat) : Jack :=
  (s.jackCmds.filter fun p => decide (p.u8 16 = j)).foldl (fun k p => jackSet p (k.jen.getD (s.jackEn j)) k) (s.jack j)

def jackCfgLen (p : Packet) : Option Err := lenIs p 48

/-- Button ranges a JACK_CFG would leave (R303). -/
def jcLo (p : Packet) (k : Jack) (b : Nat) : Nat := if bit (p.u8 17) 4 then p.u16 (32 + 4 * b) else k.btnLo.getD b 0
def jcHi (p : Packet) (k : Jack) (b : Nat) : Nat := if bit (p.u8 17) 4 then p.u16 (34 + 4 * b) else k.btnHi.getD b 0

def jcBtnErr (p : Packet) (k : Jack) (b : Nat) : Option Err :=
  let short := if bit (p.u8 17) 3 then p.u16 28 else k.iShort
  let cross := (List.range b).any fun a => decide (jcLo p k a ≤ jcHi p k b) && decide (jcLo p k b ≤ jcHi p k a)
  failIf ((bit (p.u8 17) 3 || bit (p.u8 17) 4) && (decide (jcHi p k b < jcLo p k b) || cross || decide (jcLo p k b < short)))
    (badParam (32 + 4 * b) b)

def jackCfgChk (p : Packet) (s : State) : Option Err :=
  let j := p.u8 16
  let w := p.u8 17
  let fl := p.u8 18
  let k := s.jackNext j
  let late := firstErr
    [p.zero 30 2, jcBtnErr p k 0, jcBtnErr p k 1, jcBtnErr p k 2, jcBtnErr p k 3,
     errIf (bit w 3 && bit fl 4 && (s.win (14 + j)).wen) stBusy (14 + j)]
  firstErr [absentIf (decide (j = 1) && s.isSmall) 16 1, p.within 16 1 0 3, p.clr 17 1 0xC0, p.clr 18 1 0xC0,
    failIf (decide (2 ≤ j) && ((bit w 1 && bit fl 2) || (bit w 3 && (bit fl 3 || bit fl 4)))) (badParam 18 j),
    failIf (bit w 3 && bit fl 4 && !bit fl 3) (badParam 18 j),
    p.clr 19 1 0xFC, p.withinIf (bit w 0) 20 1 1 255, p.withinIf (bit w 0) 21 1 1 255, p.clr 22 1 0xF0, p.clr 23 1 0xF8,
    failIf (bit w 5 && decide (p.u8 23 &&& 3 = 3)) (badParam 23 (p.u8 23)), p.clr 24 4 0xFFC00000,
    match (if bit w 2 then maskBits (p.u32 24) 22 else []).find? fun i => !s.dstOk (0x200 + i) with
    | some i => some (badParam 24 (0x200 + i))
    | none => none,
    p.withinIf (bit w 3) 28 2 100 5000, late]

/-- JSTATE (R302). -/
def jstate (s : State) (j : Nat) : Nat :=
  let k := s.jack j
  if !s.jackEn j then 0xFF
  else match k.deb with
    | some d => if k.acc = some d.toIn then b2n d.toIn else if d.toIn then 2 else 3
    | none => b2n (decide (k.acc = some true))

/-- The 12 bytes of JACK_CFG (R302). -/
def jackRec (s : State) (j : Nat) : List Byte :=
  let k := s.jack j
  let want := (List.range 4).map s.biasWant
  le 1 (jstate s j) ++ le 1 (if j < 2 then k.cls else 0xFF) ++ le 1 (k.btnNow.getD 0xFF) ++
  le 1 (flags (want.map (· && !s.biasCut)) + 16 * flags (want.map (· && s.biasCut))) ++
  le 2 k.iMicb ++ le 2 (k.glitch.1 + 32768 * b2n k.glitch.2) ++ le 4 k.edgeFr

/-- The biases in MB_SEL (R277, R293). -/
def setBiases (p : Packet) (s : State) : State :=
  forEach (maskBits (p.u8 22) 4) (fun b a => a.setMb b { en := bit (p.u8 23) 2, volt := p.u8 23 &&& 3 }) s

/-- The settings take effect: the debounce restarts and a measurement begins where R301 says so. -/
def jackPut (p : Packet) (s0 : State) : State :=
  let j := p.u8 16
  let s := if (jackSet p (s0.jackEn j) (s0.jack j)).meas.isNone then s0.measureDrop j else s0
  let w := p.u8 17
  let fl := p.u8 18
  let k := s.jack j
  let was := s.jackEn j
  let now := if bit w 0 then bit fl 0 else was
  let again := bit w 0 && now && (!was || decide (k.pol ≠ bit fl 1) || decide (k.dbIn ≠ p.u8 20) || decide (k.dbOut ≠ p.u8 21))
  let hs := bit w 3 && (decide (k.hsdet ≠ bit fl 3) || decide (k.bias j ≠ p.u8 19))
  let k5 := jackSet p was k
  let s1 := s.setJack j { k5 with pollAt := if k.btn then k5.pollAt else s.clk }
  let s2 := if again ∧ s1.jackUnit then debounce j s1 else s1
  gaugeResume 1 (if hs ∧ bit fl 3 ∧ now ∧ k5.acc = some true ∧ j < 2 then startMeasure j 2 s2 else s2)

/-- JACK_CFG applies; in Listen everything but the biases is stored (R301). -/
def jackCfgApply (id : Nat) (p : Packet) (t : Nat) (s : State) : State :=
  let j := p.u8 16
  let s1 := if bit (p.u8 17) 5 then setBiases p s else s
  let s2 : State :=
    if p.u8 17 % 32 = 0 then s1
    else if s.inListen then { s1 with jackCmds := s1.jackCmds ++ [p] }
    else jackPut p s1
  s2.finishOk id (jackRec s2 j) t

/-- What was stored in Listen takes effect at the first frame of Idle or Run (R301). -/
def jacksStored (s : State) : State := s.jackCmds.foldl (fun a p => jackPut p a) { s with jackCmds := [] }

def execJackEdge (dt : Nat) (j : Nat) (level : Bool) (s : State) : Host.Outcome State Fault Refusal :=
  run (.jackEdge dt j level) s (jackEdgeStep j level)

def execJackDebounceExpire (dt : Nat) (j : Nat) (s : State) : Host.Outcome State Fault Refusal :=
  run (.jackDebounceExpire dt j) s (jackExpireStep j)

def execHeadsetMeasureDone (dt : Nat) (j : Nat) (i1 : Nat) (i2 : Nat) (s : State) : Host.Outcome State Fault Refusal :=
  run (.headsetMeasureDone dt j i1 i2) s (measureDoneStep j i1 i2)

def execHeadsetMeasurementStart (dt : Nat) (j : Nat) (s : State) : Host.Outcome State Fault Refusal :=
  run (.headsetMeasurementStart dt j) s (measureStartStep j)

def execButtonPoll (dt : Nat) (j : Nat) (i : Nat) (s : State) : Host.Outcome State Fault Refusal :=
  run (.buttonPoll dt j i) s (buttonPollStep j i)

end Sys2Proof.Machine
end

