-- ==== Sys2Proof/Machine/Frames.lean ====
section
/-!
DEFINITION. Ethernet, IPv4 and UDP frames as byte lists, without FCS: reading their fields and building them
(09 R307, R311).
-/
namespace Sys2Proof.Machine
open Sys2Proof

/-- Ones'-complement sum of 16-bit big-endian words, an odd last byte padded with zero. -/
def ocSum : List Byte → Nat
  | [] => 0
  | [a] => a.toNat * 256
  | a :: b :: r => a.toNat * 256 + b.toNat + ocSum r

/-- The sum folded to 16 bits. -/
def ocFold (x : Nat) : Nat :=
  let y := x % 65536 + x / 65536
  let z := y % 65536 + y / 65536
  z % 65536 + z / 65536

/-- Internet checksum of a byte list. -/
def inetSum (bs : List Byte) : Nat := 65535 - ocFold (ocSum bs)

/-- Fields of an Ethernet frame: whether it has one tag or two, its Ethertype and where its payload begins. -/
structure Eth where
  dst : Nat
  src : Nat
  tagged : Bool
  twoTags : Bool
  etype : Nat
  ofs : Nat
deriving DecidableEq, Repr

def ethOf (f : List Byte) : Eth :=
  let tag := decide (fieldBe f 12 2 = 0x8100)
  { dst := fieldBe f 0 6, src := fieldBe f 6 6, tagged := tag,
    twoTags := tag && (decide (fieldBe f 16 2 = 0x8100) || decide (fieldBe f 16 2 = 0x88A8)) || decide (fieldBe f 12 2 = 0x88A8),
    etype := if tag then fieldBe f 16 2 else fieldBe f 12 2, ofs := if tag then 18 else 14 }

/-- An IPv4 packet that is no fragment: addresses, protocol and payload. -/
structure Ip4 where
  src : Nat
  dst : Nat
  proto : Nat
  body : List Byte
deriving DecidableEq, Repr

/-- The IPv4 packet of a frame, its header checksum aside; none for other frames, fragments and headers that do not hold
together (R307, R335). -/
def ip4Any (f : List Byte) : Option Ip4 :=
  let e := ethOf f
  let b := f.drop e.ofs
  let hl := byteAt b 0 % 16 * 4
  let tot := fieldBe b 2 2
  if e.twoTags = false ∧ e.etype = 0x0800 ∧ byteAt b 0 / 16 = 4 ∧ 20 ≤ hl ∧ hl ≤ tot ∧ tot ≤ b.length ∧
      fieldBe b 6 2 % 0x4000 = 0 then
    some { src := fieldBe b 12 4, dst := fieldBe b 16 4, proto := byteAt b 9, body := (b.take tot).drop hl }
  else none

/-- The IPv4 packet of a frame whose header checksum is right (R307). -/
def ip4Of (f : List Byte) : Option Ip4 :=
  let b := f.drop (ethOf f).ofs
  if inetSum (b.take (byteAt b 0 % 16 * 4)) = 0 then ip4Any f else none

/-- A UDP datagram: ports, whether its checksum is 0 or right, payload. -/
structure Udp where
  sport : Nat
  dport : Nat
  sumOk : Bool
  data : List Byte
deriving DecidableEq, Repr

/-- Pseudo-header of UDP over IPv4. -/
def pseudo (src dst len : Nat) : List Byte := be 4 src ++ be 4 dst ++ be 1 0 ++ be 1 17 ++ be 2 len

def udpOf (p : Ip4) : Option Udp :=
  let n := fieldBe p.body 4 2
  if p.proto = 17 ∧ 8 ≤ n ∧ n ≤ p.body.length then
    let d := p.body.take n
    some { sport := fieldBe d 0 2, dport := fieldBe d 2 2,
           sumOk := decide (fieldBe d 6 2 = 0) || decide (inetSum (pseudo p.src p.dst n ++ d) = 0), data := d.drop 8 }
  else none

/-- An Ethernet frame; a tag where given (its 16 bits). -/
def ethBuild (dst src : Nat) (tag : Option Nat) (etype : Nat) (body : List Byte) : List Byte :=
  be 6 dst ++ be 6 src ++ (match tag with
    | some t => be 2 0x8100 ++ be 2 t
    | none => []) ++ be 2 etype ++ body

/-- An IPv4 packet: DF set, identification 0, ECN 0, options as given (a multiple of 4 bytes) (R307). -/
def ip4Build (src dst proto ttl dscp : Nat) (opts body : List Byte) : List Byte :=
  let hl := 20 + opts.length
  let h (c : Nat) : List Byte :=
    be 1 (64 + hl / 4) ++ be 1 (dscp * 4) ++ be 2 (hl + body.length) ++ be 2 0 ++ be 2 0x4000 ++ be 1 ttl ++ be 1 proto ++
    be 2 c ++ be 4 src ++ be 4 dst ++ opts
  h (inetSum (h 0)) ++ body

/-- A UDP datagram; checksum 0 where asked, and 0xFFFF for a computed 0. -/
def udpBuild (src dst sport dport : Nat) (zeroSum : Bool) (data : List Byte) : List Byte :=
  let n := 8 + data.length
  let d (c : Nat) : List Byte := be 2 sport ++ be 2 dport ++ be 2 n ++ be 2 c ++ data
  let c := inetSum (pseudo src dst n ++ d 0)
  d (if zeroSum then 0 else if c = 0 then 0xFFFF else c)

/-- MAC of an IPv4 multicast group (R311). -/
def mcastMac (ip : Nat) : Nat := 0x01005E000000 + ip % 2 ^ 23

/-- 224.0.0.0/4. -/
def ipMcast (ip : Nat) : Bool := decide (ip / 2 ^ 28 = 14)

/-- A group MAC address. -/
def macGroup (m : Nat) : Bool := m.testBit 40

/-- A frame padded to 60 bytes (R347). -/
def pad60 (f : List Byte) : List Byte := f ++ List.replicate (60 - f.length) 0#8

/-- Bytes replaced from offset i. -/
def patch (bs : List Byte) (i : Nat) (new : List Byte) : List Byte :=
  bs.take i ++ new ++ bs.drop (i + new.length)

end Sys2Proof.Machine
end

