-- ==== Sys2Proof/Machine/Net.lean ====
section
/-!
DEFINITION. Network ports: links, bandwidth, multicast filters, IGMP, firmware frames, the host frame path,
NET_PORT_CFG and HOST_FRAME_SEND (09 R304 to R309, R324 to R327, R330 to R340, R347 to R349).
-/
namespace Sys2Proof.Machine
open Sys2Proof

/-! ### Links and bandwidth -/

/-- Bits per second of a SPEED code (R339). -/
def speedBps (c : Nat) : Nat := [0, 10000000, 100000000, 1000000000, 2500000000, 5000000000, 10000000000].getD c 0

/-- Highest rate of a mode (R304). -/
def modeBps (m : Nat) : Nat := [0, 10000000000, 1000000000, 1000000000, 10000000000].getD m 0

/-- Code of the highest rate of a mode. -/
def modeSpeed (m : Nat) : Nat := [0, 6, 3, 3, 6].getD m 0

def Net.jumbo (n : Net) : Bool := bit n.nfl 1

/-- A port that runs and whose link is up (R306). -/
def State.portUp (s : State) (p : Nat) : Bool := s.framing && (s.netP p).up && decide ((s.netP p).nmode ≠ 0)

/-- Samples per channel of a packet (R313). -/
def sppAt (rate ptime : Nat) : Nat :=
  [6, 12, 16, 48, 192].getD ptime 6 * (if rate ≤ 48000 then 1 else if rate ≤ 96000 then 2 else 4)

/-- Bytes per sample of a format (R312). -/
def fmtBytes (f : Nat) : Nat := if f = 0 then 2 else if f = 1 then 3 else 4

/-- The settings a Tx or Rx stream has, counting those stored in Listen (R49). -/
def Tx.eff (t : Tx) : Option TxCfg := t.stored.getD t.cfg
def Rx.eff (r : Rx) : Option RxCfg := r.stored.getD r.cfg

/-- Payload of a packet at a base rate (R314). -/
def TxCfg.payload (c : TxCfg) (rate : Nat) : Nat := sppAt rate c.ptime * c.nch * fmtBytes c.fmt
def RxCfg.payload (c : RxCfg) (rate : Nat) : Nat := sppAt rate c.ptime * c.nch * fmtBytes c.fmt

/-- Payload limit of the ports a mask names (R314). -/
def State.payMax (s : State) (ports : Nat) : Nat :=
  if (maskBits ports 2).all fun p => (s.netP p).jumbo then 8972 else 1460

/-- Wire size of a media packet (R326). -/
def TxCfg.wire (c : TxCfg) (rate : Nat) : Nat := max 64 (c.payload rate + 58 + 4 * b2n (bit c.tfl 1)) + 20

/-- Bandwidth in units of 1/768 bit/s (R326). -/
def TxCfg.band (c : TxCfg) (rate : Nat) : Nat := 8 * c.wire rate * rate * (768 / sppAt rate c.ptime)

/-- A bandwidth in kbit/s, rounded (R597). -/
def kbps (b : Nat) : Nat := (2 * b + 768000) / 1536000

/-- The Tx streams on a port, ascending. -/
def State.txOn (s : State) (p : Nat) : List (Nat × TxCfg) :=
  s.tx.filterMap fun e => match e.2.eff with
    | some c => if bit c.ports p then some (e.1, c) else none
    | none => none

def State.txLoad (s : State) (p : Nat) : Nat := (s.txOn p).foldl (fun a e => a + e.2.band s.tm.rate) 0

/-- Budget of a port in the same unit (R326); none while it is off (log 15). -/
def State.budget (s : State) (p : Nat) : Nat :=
  let n := s.netP p
  (if n.up then speedBps n.speed else modeBps n.nmode) * 9 / 10 * 768

/-- Streams admitted in ascending index while the sum stays within a budget (R327). -/
def inBudget (rate budget : Nat) : Nat → List (Nat × TxCfg) → List Nat
  | _, [] => []
  | sum, (i, c) :: r => if sum + c.band rate ≤ budget then i :: inBudget rate budget (sum + c.band rate) r else []

/-- Stream st is held on port p (R327). -/
def State.heldOn (s : State) (p st : Nat) : Bool :=
  (s.netP p).up && (s.txOn p).any (fun e => decide (e.1 = st)) && !(inBudget s.tm.rate (s.budget p) 0 (s.txOn p)).contains st

def State.heldCount (s : State) (p : Nat) : Nat :=
  if (s.netP p).up then (s.txOn p).length - (inBudget s.tm.rate (s.budget p) 0 (s.txOn p)).length else 0

/-- LSTAT (R339). -/
def State.lstat (s : State) (p : Nat) : Nat :=
  let n := s.netP p
  flags [n.up, n.an, n.rf, decide (0 < n.held)]

/-- The NET_LINK event (R337). -/
def State.netLink (s : State) (p : Nat) : State :=
  s.raise 0x701 (le 1 p ++ le 1 (s.netP p).speed ++ le 1 (s.lstat p) ++ le 1 (s.netP p).held ++ le 4 s.frame32)

/-! ### Firmware frames -/

/-- Tag of firmware frames (R338). -/
def Net.fwTag (n : Net) : Option Nat := if bit n.fwtag 3 then some (n.fwtag % 8 * 8192 + n.vid % 4096) else none

/-- A frame sent: counted, and the last the port sent. -/
def State.sendFrame (s : State) (p : Nat) (f : List Byte) : State :=
  if s.portUp p then
    let n := s.netP p
    s.setNet p { n with txOk := satInc 31 n.txOk, lastTx := pad60 f }
  else s

/-- An Ethernet frame of the firmware. -/
def State.fwEth (s : State) (p dst etype : Nat) (body : List Byte) : State :=
  let n := s.netP p
  s.sendFrame p (ethBuild dst n.mac n.fwTag etype body)

/-- An IPv4 packet of the firmware. -/
def State.fwIp (s : State) (p dstMac dst proto ttl dscp : Nat) (opts body : List Byte) : State :=
  s.fwEth p dstMac 0x0800 (ip4Build (s.netP p).ipv4 dst proto ttl dscp opts body)

/-- An ARP packet (R307). -/
def arpBody (op sha spa tha tpa : Nat) : List Byte :=
  be 2 1 ++ be 2 0x0800 ++ be 1 6 ++ be 1 4 ++ be 2 op ++ be 6 sha ++ be 4 spa ++ be 6 tha ++ be 4 tpa

/-! ### Multicast filters and IGMP (R324, R325) -/

/-- Groups the Rx streams and trackers use on a port, with the source filter of the first user. -/
def State.groups (s : State) (p : Nat) : List (Nat × Nat) :=
  let rx := s.rx.filterMap fun e => match e.2.eff with
    | some c =>
      let ip := if p = 0 then c.ip0 else c.ip1
      if bit c.ports p && ipMcast ip then some (ip, if p = 0 then c.src0 else c.src1) else none
    | none => none
  let tt := [0, 1].filterMap fun t =>
    if (s.tt t).en && !(s.tt t).l2 && decide (s.ttPort t = p) then some (0xE0000181, 0) else none
  (rx ++ tt).foldl (fun a g => if a.any fun x => decide (x.1 = g.1) then a else a ++ [g]) ([] : List (Nat × Nat))

/-- MACs the streams and trackers hold on a port. -/
def State.autoMacs (s : State) (p : Nat) : List Nat :=
  let ips : List Nat := (s.groups p).map fun g => mcastMac g.1
  let l2 : List Nat := [0, 1].filterMap fun t =>
    if (s.tt t).en && (s.tt t).l2 && decide (s.ttPort t = p) then some 0x011B19000000 else none
  (ips ++ l2).eraseDups

/-- The filter entries in use (R324). -/
def State.filters (s : State) (p : Nat) : List Nat := (s.autoMacs p ++ (s.netP p).hmcast).eraseDups

/-- IGMP work after a change of users: two reports 1 s apart for a new group, a leave for one without users; and the
streams held under R327 reported (R325, R327, R337). -/
def State.usersChanged (s before : State) : State :=
  forEach [0, 1] (fun p a =>
    let was := before.groups p
    let now := a.groups p
    let n := a.netP p
    let add : List (Nat × Nat) := now.filter fun g => !was.any fun x => decide (x.1 = g.1)
    let gone : List (Nat × Nat) := was.filter fun g => !now.any fun x => decide (x.1 = g.1)
    let keep := n.igmp.filter fun j => !gone.any fun g => decide (g.1 = j.group)
    let jobs : List IgmpJob :=
      (add.flatMap fun g => [({ group := g.1, src := g.2, due := a.clk, kind := 0 } : IgmpJob),
                             { group := g.1, src := g.2, due := a.clk + 1000000000, kind := 0 }]) ++
      gone.map fun g => ({ group := g.1, src := g.2, due := a.clk, kind := 2 } : IgmpJob)
    let a1 := a.setNet p { n with igmp := keep ++ jobs }
    let h := a1.heldCount p
    if h = n.held then a1
    else
      let a2 := a1.setNet p { a1.netP p with held := h }
      if n.up then a2.netLink p else a2) s

/-- An IGMPv3 report of one record (R325): kind 0 a join, 1 an answer, 2 a leave (log 16). -/
def igmp3 (j : IgmpJob) : List Byte :=
  let rt := if j.kind = 1 then (if j.src = 0 then 2 else 1) else if j.kind = 0 then (if j.src = 0 then 4 else 3)
            else if j.src = 0 then 3 else 6
  let srcs := if j.src = 0 then [] else be 4 j.src
  let m (c : Nat) : List Byte :=
    be 1 0x22 ++ be 1 0 ++ be 2 c ++ be 2 0 ++ be 2 1 ++ be 1 rt ++ be 1 0 ++ be 2 (srcs.length / 4) ++ be 4 j.group ++ srcs
  m (inetSum (m 0))

/-- An IGMPv2 report or leave. -/
def igmp2 (j : IgmpJob) : List Byte :=
  let m (c : Nat) : List Byte := be 1 (if j.kind = 2 then 0x17 else 0x16) ++ be 1 0 ++ be 2 c ++ be 4 j.group
  m (inetSum (m 0))

/-- IGMP_REPORT_SEND: the first job whose time has come; Router Alert, TTL 1 (R325). -/
def igmpSendStep (p : Nat) (s : State) : State :=
  let n := s.netP p
  match n.igmp.find? fun j => decide (j.due ≤ s.clk) with
  | none => s
  | some j =>
    let s1 := s.setNet p { n with igmp := n.igmp.erase j }
    let v3 := bit n.nfl 2
    let dst := if v3 then 0xE0000016 else if j.kind = 2 then 0xE0000002 else j.group
    s1.fwIp p (mcastMac dst) dst 2 1 n.dscp (be 4 0x94040000) (if v3 then igmp3 j else igmp2 j)

/-- Maximum response time of a query in ns (R325). -/
def igmpMax (b : List Byte) : Nat :=
  let c := byteAt b 1
  if b.length < 12 then (if c = 0 then 10000000000 else c * 100000000)
  else if c < 128 then c * 100000000 else ((c % 16 + 16) * 2 ^ (c / 16 % 8 + 3)) * 100000000

/-- A query: each group it asks for is answered after a random delay (R325). -/
def igmpQuery (p : Nat) (b : List Byte) (s : State) : State :=
  let g := fieldBe b 4 4
  forEach ((s.groups p).filter fun x => decide (g = 0) || decide (x.1 = g)) (fun x a =>
    let n := a.netP p
    let d := Config.freeNat a.freeCtr % (igmpMax b + 1)
    (a.setNet p { n with igmp := n.igmp ++ [{ group := x.1, src := x.2, due := a.clk + d, kind := 1 }] }).bump) s

/-! ### Links come and go -/

/-- A host frame that cannot leave (R348). -/
def hostFramesLost (p : Nat) (s : State) : State :=
  let n := s.netP p
  n.txq.foldl (fun a h =>
    let m := a.netP p
    (a.setNet p { m with txDrop := satInc 31 m.txDrop }).finishErr h.id { status := stState } a.nowNs)
    (s.setNet p { n with txq := [] })

/-- A port's link goes down (R337, R339, R348). -/
def linkDown (p : Nat) (s : State) : State :=
  let n := s.netP p
  if !n.up then s
  else
    let s1 := s.setNet p { n with up := false, speed := 0, an := false, rf := false, linkFr := s.frame32, held := 0,
                                  linkDown := satInc 31 n.linkDown }
    (hostFramesLost p s1).netLink p

/-- Link rates a port can come up at, by its mode and AN (R304, R305). -/
def Net.rates (n : Net) : List Nat :=
  let an := bit n.nfl 0
  match n.nmode with
  | 1 => [6]
  | 2 => [3]
  | 3 => if an then [1, 2, 3] else [3]
  | 4 => if an then [1, 2, 3, 4, 5, 6] else [6]
  | _ => []

/-- LINK_CHANGE: link up at a rate, or down; a gratuitous ARP request at each link-up (R307, R327, R337). Of rates
the port's mode does not have nothing comes (R304); without AN no exchange completes (R305). -/
def linkChangeStep (p speed : Nat) (an rf : Bool) (s : State) : State :=
  let n := s.netP p
  if !(s.framing && decide (p < s.nPort) && decide (n.nmode ≠ 0)) then s
  else if speed = 0 then linkDown p s
  else if !n.rates.contains speed then s
  else
    let s1 := s.setNet p { n with up := true, speed := speed, an := an && bit n.nfl 0 && decide (n.nmode ≠ 1), rf := rf,
                                  linkFr := if n.up ∧ n.speed = speed then n.linkFr else s.frame32 }
    let s2 := s1.setNet p { s1.netP p with held := s1.heldCount p }
    let s3 := if n.up ∧ n.speed = speed ∧ n.held = s2.heldCount p then s2 else s2.netLink p
    if n.up ∨ n.ipv4 = 0 then s3
    else s3.fwEth p 0xFFFFFFFFFFFF 0x0806 (arpBody 1 n.mac n.ipv4 0 n.ipv4)

/-! ### Host frame path (R330 to R336) -/

/-- Slots and slot size (R330). -/
def State.bigSlots (s : State) : Bool := (s.netP 0).jumbo || (s.netP 1).jumbo
def State.nSlots (s : State) : Nat := if s.bigSlots then 14 else 64
def State.slotBase (s : State) (k : Nat) : Nat := 0x180000 + k * (if s.bigSlots then 9216 else 2048)

def State.slotFull (s : State) (k : Nat) : Bool := bit (mread s.mem (s.slotBase k + 3)).toNat 0

/-- A frame for the host: written into the next slot and announced, or dropped (R331, R332). -/
def hostRx (p : Nat) (f : List Byte) (answered : Bool) (s : State) : State :=
  let n := s.netP p
  let k := s.ring
  if s.slotFull k then s.setNet p { n with rxHostDrop := satInc 31 n.rxHostDrop }
  else
    let prev := if k = 0 then s.nSlots - 1 else k - 1
    let d := le 2 f.length ++ le 1 p ++ le 1 (flags [true, (ethOf f).tagged, answered]) ++ le 4 0 ++
      le 8 s.nowNs ++ le 2 (s.tm.devT % 65536) ++ le 2 0 ++ le 4 s.frame32 ++ le 8 0
    let s1 : State := { s with mem := mwrites s.mem (s.slotBase k) (d ++ f), ring := (k + 1) % s.nSlots }
    let s2 := s1.setNet p { n with rxHost := satInc 31 n.rxHost }
    if s.slotFull prev then s2 else s2.raise 0x702 (le 1 k ++ le 3 0)

/-- HOST_SLOT_RELEASE (R332). -/
def hostSlotReleaseStep (k : Nat) (s : State) : State :=
  if s.pwr.ready ∧ k < s.nSlots then { s with mem := mwrite s.mem (s.slotBase k + 3) 0#8 } else s

/-- The departure time in a format (R334). -/
def stampBytes (fmt : Nat) (s : State) : List Byte :=
  if fmt = 0 then be 6 (s.tm.devT / secT) ++ be 4 (s.tm.devT % secT / 65536)
  else if fmt = 1 then be 8 s.nowNs else be 4 (s.nowNs % 2 ^ 32)

def stampLen (fmt : Nat) : Nat := [10, 8, 4].getD fmt 10

/-- Offset of the UDP header of an IPv4 UDP frame, and its payload's end (R335). -/
def udpSpan (f : List Byte) : Option (Nat × Nat) :=
  match ip4Any f with
  | none => none
  | some ip =>
    match udpOf ip with
    | none => none
    | some u =>
      let e := (ethOf f).ofs
      let o := e + byteAt (f.drop e) 0 % 16 * 4
      some (o, o + 8 + u.data.length)

/-- The stamp written, and the UDP checksum corrected for it by RFC 1624 (R334, R335). -/
def stampFrame (f : List Byte) (h : HostTx) (s : State) : List Byte :=
  let g := patch f h.sofs (stampBytes h.fmt s)
  if !h.csum then g
  else match udpSpan f with
    | none => g
    | some (o, _) =>
      let hc := fieldBe f (o + 6) 2
      if hc = 0 then g
      else
        let a := h.sofs - (h.sofs - o) % 2
        let n := (h.sofs + stampLen h.fmt - a + 1) / 2
        let diff := (List.range n).foldl (fun x i => x + (65535 - fieldBe f (a + 2 * i) 2) + fieldBe g (a + 2 * i) 2) (65535 - hc)
        patch g (o + 6) (be 2 (65535 - ocFold diff))

/-- A media packet is due on a port. -/
def State.mediaDue (s : State) (p : Nat) : Bool := s.tx.any fun e => e.2.due.any fun k => bit k.ports p

/-- HOST_FRAME_DEPART: the first host frame of a port leaves, after any media packet due (R336, R348). -/
def hostDepartStep (p : Nat) (s : State) : State :=
  let n := s.netP p
  match n.txq with
  | [] => s
  | h :: r =>
    if !s.portUp p || s.mediaDue p then s
    else
      let f := pad60 (mreads s.mem (0x1A0000 + h.wofs) h.len)
      let g := if h.stamp then stampFrame f h s else f
      let s1 := s.setNet p { n with txq := r, txOk := satInc 31 n.txOk, txHost := satInc 31 n.txHost, lastTx := g }
      s1.finishOk h.id (le 8 s.nowNs ++ le 2 (s.tm.devT % 65536) ++ le 2 0 ++ le 4 s.frame32) s.nowNs

def hostSendLen (p : Packet) : Option Err := lenIs p 32
def hostSendRight (port : Nat) : Option Err := failIf (!decide (port = 1)) { status := stDenied }

def hostSendChk (p : Packet) (s : State) : Option Err :=
  let q := p.u8 16
  let fl := p.u8 17
  let n := p.u16 20
  let w := p.u32 24
  let so := p.u16 22
  let sl := stampLen (p.u8 18)
  let f := mreads s.mem (0x1A0000 + w) n
  let sumOk : Bool := match udpSpan f with
    | some (o, e) => decide (o + 8 ≤ so) && decide (so + sl ≤ e)
    | none => false
  firstErr [absentIf (decide (q = 1) && s.isSmall) 16 1, need (decide (q ≤ 1)) 16 q, p.clr 17 1 0xFC,
    need (!bit fl 1 || bit fl 0) 17 fl, p.within 18 1 0 2, p.zero 19 1,
    need (decide (14 ≤ n) && decide (n ≤ if (s.netP q).jumbo then 9014 else 1518)) 20 n,
    need (if bit fl 0 then decide (so + sl ≤ n) else decide (so = 0)) 22 so,
    need (decide (w % 4 = 0) && decide (w + n ≤ 0x20000)) 24 w,
    failIf (bit fl 1 && !sumOk) (badParam 17 fl), p.zero 28 4,
    stateIf (!s.portUp q) q,
    errIf (decide (64 ≤ (s.netP 0).txq.length + (s.netP 1).txq.length)) stNoResource 64]

/-- HOST_FRAME_SEND: the frame waits for its departure (R336, R347). -/
def hostSendApply (id : Nat) (p : Packet) (_t : Nat) (s : State) : State :=
  let n := s.netP (p.u8 16)
  let h : HostTx := { id := id, stamp := bit (p.u8 17) 0, csum := bit (p.u8 17) 1, fmt := p.u8 18, len := p.u16 20,
                      sofs := p.u16 22, wofs := p.u32 24 }
  s.setNet (p.u8 16) { n with txq := n.txq ++ [h] }

/-- ABORT of a waiting host frame (R348). -/
def hostSendAbort (id : Nat) (s : State) : State :=
  (forEach [0, 1] (fun p a => a.setNet p { a.netP p with txq := (a.netP p).txq.filter fun h => !decide (h.id = id) }) s).finishAborted
    id 0 s.nowNs

/-! ### NET_PORT_CFG (R338 to R340) -/

def netPortCfgLen (p : Packet) : Option Err := lenIs p 44

/-- Frames that hold the slot size (R340). -/
def State.hostHeld (s : State) : Nat :=
  ((List.range s.nSlots).filter s.slotFull).length + (s.netP 0).txq.length + (s.netP 1).txq.length

def netPortCfgChk (p : Packet) (s : State) : Option Err :=
  let q := p.u8 16
  let w := p.u8 17
  let n := s.netP q
  let mode := if bit w 0 then p.u8 18 else n.nmode
  let mac := if bit w 1 then p.ube 24 6 else n.mac
  let hm := p.ube 36 6
  let big := s.bigSlots
  let big' := (if bit w 0 then bit (p.u8 19) 1 else n.jumbo) || (s.netP (1 - q)).jumbo
  firstErr [absentIf (decide (q = 1) && s.isSmall) 16 1, need (decide (q ≤ 1)) 16 q, p.clr 17 1 0xE0,
    failIf (bit w 0 && (decide (4 < p.u8 18) || (decide (p.u8 18 = 4) && decide (q = 1)))) (badParam 18 (p.u8 18)),
    p.clr 19 1 0xE0, p.clr 20 1 0xFC, p.clr 21 1 0xF0, p.clr 22 1 0xC0, p.zero 23 1,
    failIf (decide (mode ≠ 0) && (decide (mac = 0) || macGroup mac)) (badParam 24 0),
    p.clr 30 2 0xF000,
    failIf ((bit w 2 || bit w 3) && !macGroup hm) (badParam 36 0),
    failIf (bit w 3 && !bit w 2 && !n.hmcast.contains hm) (badParam 36 0), p.zero 42 2,
    errIf (decide (big ≠ big') && decide (0 < s.hostHeld)) stBusy s.hostHeld,
    failIf (bit w 2 && !(s.filters q).contains hm && decide (256 ≤ (s.filters q).length))
      { status := stNoResource, aux := 2, detail := q }]

/-- The 64 bytes of a port (R339). -/
def netRec (s : State) (q : Nat) : List Byte :=
  let n := s.netP q
  le 1 (s.lstat q) ++ le 1 n.speed ++ le 2 (s.filters q).length ++ le 4 n.linkFr ++ le 4 (kbps (s.txLoad q)) ++
  le 4 (kbps (s.budget q)) ++ [n.rxOk, n.rxErr, n.rxMedia, n.rxHost, n.rxHostDrop, n.rxUnmatched, n.rxPause, n.txOk, n.txMedia,
    n.txHost, n.txDrop, n.linkDown].flatMap fun c => le 4 (satWord c)

/-- Statistics cleared. -/
def Net.clear (n : Net) : Net :=
  { n with rxOk := (0, false), rxErr := (0, false), rxMedia := (0, false), rxHost := (0, false), rxHostDrop := (0, false),
           rxUnmatched := (0, false), rxPause := (0, false), txOk := (0, false), txMedia := (0, false), txHost := (0, false),
           txDrop := (0, false), linkDown := (0, false) }

/-- NET_PORT_CFG takes effect (R339); a change of slot size starts the receive ring again at slot 0 (log 167). -/
def netPortCfgApply (id : Nat) (p : Packet) (t : Nat) (s : State) : State :=
  let q := p.u8 16
  let w := p.u8 17
  let n := s.netP q
  let restart := bit w 0 && (decide (p.u8 18 ≠ n.nmode) || (bit (p.u8 19) 0 ^^ bit n.nfl 0) || decide (p.u8 20 ≠ n.lanepol))
  let s1 := if restart then linkDown q s else s
  let n0 := s1.netP q
  let n1 : Net := if bit w 0 then { n0 with nmode := p.u8 18, nfl := p.u8 19, lanepol := p.u8 20 } else n0
  let n2 : Net := if bit w 1 then { n1 with
      fwtag := p.u8 21, dscp := p.u8 22, mac := p.ube 24 6, vid := p.u16 30, ipv4 := p.ube 32 4 } else n1
  let hm := p.ube 36 6
  let n3 : Net := if bit w 2 ∧ !n2.hmcast.contains hm then { n2 with hmcast := n2.hmcast ++ [hm] } else n2
  let n4 : Net := if bit w 3 then { n3 with hmcast := n3.hmcast.erase hm } else n3
  let big := s1.bigSlots
  let s2 := s1.setNet q n4
  let s3 := if s2.bigSlots = big then s2 else { s2 with ring := 0 }
  let s4 := s3.usersChanged s1
  let data := netRec s4 q
  (if bit w 4 then s4.setNet q (s4.netP q).clear else s4).finishOk id data t

def execIgmpReportSend (dt : Nat) (p : Nat) (s : State) : Host.Outcome State Fault Refusal :=
  run (.igmpReportSend dt p) s (igmpSendStep p)

def execHostFrameDepart (dt : Nat) (p : Nat) (s : State) : Host.Outcome State Fault Refusal :=
  run (.hostFrameDepart dt p) s (hostDepartStep p)

def execHostSlotRelease (dt : Nat) (slot : Nat) (s : State) : Host.Outcome State Fault Refusal :=
  run (.hostSlotRelease dt slot) s (hostSlotReleaseStep slot)

end Sys2Proof.Machine
end

