-- ==== Sys2Proof/Machine/Stream.lean ====
section
/-!
DEFINITION. Media streams: alignment, packing and sending of Tx streams, reception, jitter buffers and readers of Rx
streams, TXSTREAM_CFG and RXSTREAM_CFG (04 R146 to R150, R153, R154; 09 R310 to R323, R328, R329, R341 to R346).
-/
namespace Sys2Proof.Machine
open Sys2Proof

/-- Media count of frame fr (R310). -/
def State.mAt (s : State) (fr : Nat) : Nat := s.tm.mediaM + fr - s.tm.frame

/-! ### Alignment (R146 to R150) -/

/-- Sources of a destination, both sides of a transition (R146). -/
def State.srcsOf (s : State) (d : Nat) : List Nat :=
  let r := s.route d
  r.src :: (match r.trans with
    | some x => [x.from0]
    | none => [])

/-- Group and phase delay of a source in 1/1024 sample; frame-timed sources have none (R143, R145). -/
def State.delayOf (s : State) (src : Nat) : Nat :=
  if 0x200 ≤ src ∧ src < 0x220 then (s.ain (src - 0x200)).delay else 0

/-- Capture lag of a source in units of 1/(1024 × 10^7) frame (R143, R145). -/
def State.lagOf (s : State) (src : Nat) : Nat :=
  if 0x200 ≤ src ∧ src < 0x220 then (s.ain (src - 0x200)).lagNum s.perNum s.perDen else 0

/-- What the alignment and the taps of a stream depend on at a source: its group delay with its phase delay, and the group delay
alone, which the taps leave to the chain (R146, R147, R149). -/
def State.alignKey (s : State) (src : Nat) : Nat :=
  s.delayOf src * 2 ^ 32 + (if 0x200 ≤ src ∧ src < 0x220 then groupDelay (s.ain (src - 0x200)).resp else 0)

/-- What the alignment of a stream depends on (R146). -/
def State.alignSrcs (s : State) (c : TxCfg) : List (Nat × Nat) := (c.chmap.flatMap s.srcsOf).eraseDups.map fun x => (x, s.alignKey x)

/-- Alignment of a stream (R146). -/
def State.alignOf (s : State) (c : TxCfg) : Nat :=
  let l := (c.chmap.flatMap s.srcsOf).foldl (fun a src => max a (s.lagOf src)) 0
  max c.alignMin (ceilDiv l 10240000000)

/-- The delay that brings a source, its phase delay undone, to a total lag of A samples, in 1/1024 sample (R147, R149). -/
def State.alignDly (s : State) (a src : Nat) : Nat :=
  if 0x200 ≤ src ∧ src < 0x220 then
    a * 1024 - (groupDelay (s.ain (src - 0x200)).resp + (2 * framesQ 400 s.perNum s.perDen + 10000000) / 20000000)
  else a * 1024

/-- A source's sample of frame fr behind a delay; what lies before the stream's first frame is zero (R315), and for a tap
`fresh` in force what lies before the channel's reset, which had another lag (R147). -/
def State.aligned (s : State) (fr from0 src d : Nat) (fresh : Bool) : Int :=
  let lo := if fresh ∧ 0x200 ≤ src ∧ src < 0x220 then max from0 (s.ain (src - 0x200)).resetFr else from0
  satQ31 (tapRead ((tget [] s.eng.srcHist src).take (fr + 1 - lo)) d)

/-- What a channel of a stream reads from a source, during an alignment crossfade too (R150). -/
def State.txRead (s : State) (fr : Nat) (t : Tx) (src : Nat) : Int :=
  let d := (tget? t.dly src).getD (s.alignDly t.a src)
  let x := s.aligned fr t.from0 src d true
  match t.tap with
  | none => x
  | some f => tapBlend f.k f.n
      (f.old.foldl (fun (b : Int) e => b + s.aligned fr t.from0 src ((tget? e.1 src).getD d) false * e.2) 0) x

/-- A stream whose sources, responses or phase delays have changed takes a new A and new taps; a change of A begins a 5 ms
crossfade and raises ALIGN_CHANGE, but not in the frame in which the stream is set (R146, R150). -/
def txAligns (fr : Nat) (s : State) : State :=
  forEach (s.tx.map (·.1)) (fun i b =>
    let t := b.txs i
    match t.cfg with
    | none => b
    | some c =>
      let srcs := b.alignSrcs c
      if srcs = t.srcs then b
      else
        let a := b.alignOf c
        let t1 := { t with a := a, srcs := srcs, dly := srcs.foldl (fun (m : Tab Nat) e => tset e.1 (b.alignDly a e.1) m) [] }
        if a = t.a ∨ t.from0 = fr then b.setTx i t1
        else
          let old : List (Tab Nat × Nat) := match t.tap with
            | none => [(t.dly, 2 ^ 62)]
            | some f =>
              let w := rcos f.k f.n
              (f.old.map fun e => (e.1, e.2 * (2 ^ 62 - w) / 2 ^ 62)) ++ [(t.dly, w)]
          (b.setTx i { t1 with tap := some { old := old, n := msFrames 5 b.tm.rate } }).raise 0x403
            (le 2 i ++ le 1 t.a ++ le 1 a ++ le 4 (fr % 2 ^ 32))) s

/-- The crossfades move on by one performed frame. -/
def txAdvance (s : State) : State :=
  { s with tx := tmap (fun t => { t with tap := match t.tap with
      | some f => if f.n ≤ f.k + 1 then none else some { f with k := f.k + 1 }
      | none => none }) s.tx }

/-- One place of the sources' rings: `v` gives what each holds there. -/
def State.srcPush (s : State) (keys : List Nat) (v : Nat → Int) : State :=
  let h := keys.foldl (fun (a : Tab (List Int)) k =>
    let l := (v k :: tget [] s.eng.srcHist k).take 80
    if l.all fun x => decide (x = 0) then tdel k a else tset k l a) s.eng.srcHist
  { s with eng := { s.eng with srcHist := h } }

/-- Sources' samples of a performed frame kept for alignment, newest first, while a Tx stream exists; an input's without its
phase delay (R147, R149). -/
def srcKeep (s : State) : State :=
  if s.tx.isEmpty then { s with eng := { s.eng with srcHist := [] } }
  else s.srcPush ((s.eng.srcHist.map (·.1)) ++ s.eng.src.map (·.1)).eraseDups fun k =>
    if 0x200 ≤ k ∧ k < 0x220 then (let a := s.ain (k - 0x200); if a.powered then a.free else 0) else (tget {} s.eng.src k).v

/-- A discarded frame: the rings move on over what they held there (R30). -/
def srcSkip (s : State) : State :=
  s.srcPush ((s.eng.srcHist.map (·.1)) ++ s.tx.flatMap fun e => e.2.srcs.map (·.1)).eraseDups fun k =>
    satQ31 (Config.staleSample s.freeCtr k)

/-- A counter of R79 after n more. -/
def addCtr (n : Nat) (c : Ctr) : Ctr := (List.range n).foldl (fun z _ => satInc 31 z) c

/-! ### Packing (R312) -/

/-- TPDF dither of a sample in units of LSB32, for a target of 32 - sh bits. -/
def dither (n sh : Nat) : Int :=
  (Config.freeNat n % 2 ^ sh : Nat) + (Config.freeNat (n + 1) % 2 ^ sh : Nat) - (2 ^ sh : Nat)

/-- A sample rounded to its upper 32 - sh bits, saturating (R41). -/
def narrow (x : Int) (sh : Nat) : Int := min (2 ^ (31 - sh) - 1) (max (-(2 ^ (31 - sh))) (rne x sh))

/-- Channel-status block of AES3 by base rate, without its CRC (R312, log 17). -/
def chStatus (rate : Nat) : List Nat :=
  let b0 := 5 + (if rate = 48000 then 0x80 else if rate = 44100 then 0x40 else 0)
  let b4 := if rate = 96000 then 0x10 else if rate = 192000 then 0x18 else if rate = 88200 then 0x50
            else if rate = 176400 then 0x58 else 0
  [b0, 0, 0x2C, 0, b4] ++ List.replicate 18 0

/-- AES3 CRC of bytes 0 to 22, bits in order of transmission. -/
def aesCrc (bs : List Nat) : Nat :=
  bs.foldl (fun c b => (List.range 8).foldl (fun c i =>
    if (c % 2 = 1) = (bit b i = true) then c / 2 else (c / 2).xor 0xB8) c) 0xFF

/-- Channel-status bit of the frame with media count m. -/
def csBit (rate m : Nat) : Bool :=
  let b := chStatus rate
  bit ((b ++ [aesCrc b]).getD (m % 192 / 8) 0) (m % 8)

/-- Number of ones of a word, modulo 2. -/
def parity (x n : Nat) : Bool := ((List.range n).filter (bit x)).length % 2 = 1

/-- The four bytes of an AM824 subframe (R312). -/
def am824 (rate m : Nat) (second : Bool) (v : Int) : List Byte :=
  let w := uns 24 v
  let c := csBit rate m
  let blk := decide (m % 192 = 0) && !second
  be 1 (b2n blk * 32 + b2n (!second) * 16 + b2n (parity w 24 ^^ c) * 8 + b2n c * 4) ++ be 3 w

/-- The bytes of one sample of channel ch. -/
def packSmp (rate m : Nat) (c : TxCfg) (k ch : Nat) (x : Int) : List Byte :=
  let d (sh : Nat) : Int := if bit c.tfl 0 then dither (k + 2 * ch) sh else 0
  if c.fmt = 0 then be 2 (uns 16 (narrow (x + d 16) 16))
  else if c.fmt = 1 then be 3 (uns 24 (narrow (x + d 8) 8))
  else if c.fmt = 2 then am824 rate m (decide (ch % 2 = 1)) (narrow (x + d 8) 8)
  else be 4 (uns 32 x)

/-- The RTP payload of a packet; k is the first fresh argument for its dither. -/
def TxPkt.payload (t : TxPkt) (rate k : Nat) : List Byte :=
  (t.smp.zipIdx).flatMap fun (fr, j) => (fr.zipIdx).flatMap fun (x, ch) =>
    packSmp rate (t.m + j) t.cfg (k + 2 * j * t.cfg.nch) ch x

/-- The Ethernet frame of a packet on a port (R311). -/
def TxPkt.frame (t : TxPkt) (n : Net) (rate k : Nat) : List Byte :=
  let c := t.cfg
  let rtp := be 1 0x80 ++ be 1 (c.pt % 128) ++ be 2 t.seq ++ be 4 t.ts ++ be 4 c.ssrc ++ t.payload rate k
  let udp := udpBuild n.ipv4 c.dstIp c.srcUdp c.dstUdp (bit c.tfl 2) rtp
  ethBuild (if ipMcast c.dstIp then mcastMac c.dstIp else c.dstMac) n.mac
    (if bit c.tfl 1 then some (c.vid / 4096 % 8 * 8192 + c.vid % 4096) else none) 0x0800
    (ip4Build n.ipv4 c.dstIp 17 c.ttl c.dscp [] udp)

/-- A stream may send on port p now: link up, an address, not held (R327). -/
def State.txMay (s : State) (i p : Nat) : Bool :=
  s.portUp p && decide ((s.netP p).ipv4 ≠ 0) && !s.heldOn p i

/-- Frame fr, whose output set the gate has just passed on, is gathered; a whole packet becomes due (R315, R316). -/
def txGather (fr : Nat) (s : State) : State :=
  let m := s.mAt fr
  forEach (s.tx.map (·.1)) (fun i a =>
    let t := a.txs i
    match t.cfg with
    | none => a
    | some c =>
      let n := sppAt a.tm.rate c.ptime
      if fr < t.from0 ∨ (t.frames.isEmpty ∧ m % n ≠ 0) then a
      else
        let x := c.chmap.map fun d => tget 0 a.eng.presented d
        let fs := t.frames ++ [x]
        let m0 := if t.frames.isEmpty then m else t.firstM
        let ta := t.ta.getD t.a
        if fs.length < n then a.setTx i { t with frames := fs, firstM := m0, ta := some ta }
        else
          let ok := (maskBits c.ports 2).filter (a.txMay i)
          let bad := (maskBits c.ports 2).length - ok.length
          let p : TxPkt := { cfg := c, ports := maskOf ok, seq := t.seq, m := m0, smp := fs, k := a.freeCtr,
                             ts := (m0 + c.rtpOfs + 2 ^ 32 - ta) % 2 ^ 32 }
          let t1 : Tx := { t with
            frames := [], ta := some ta, seq := (t.seq + 1) % 65536, due := if ok.isEmpty then t.due else t.due ++ [p],
            skip := addCtr bad t.skip }
          { a.setTx i t1 with freeCtr := a.freeCtr + 2 * n * c.nch }) s

/-- Half-gathered packets go where the media count is set anew: a packet's media counts are consecutive, from a multiple of S
(R310, R315). -/
def txRestart (s : State) : State := { s with tx := tmap (fun t => { t with frames := [] }) s.tx }

/-- TX_MEDIA_PACKET: the first due packet of stream st leaves port p, streams in ascending order (R316). The packets of a stream
since deleted leave too, and count for their port only. -/
def txPacketStep (p st : Nat) (s : State) : State :=
  let t := s.txs st
  let lower := s.tx.any fun e => decide (e.1 < st) && e.2.due.any fun k => bit k.ports p
  match t.due.find? fun k => bit k.ports p with
  | none => s
  | some k =>
    if lower then s
    else
      let k1 : TxPkt := { k with ports := k.ports - 2 ^ p }
      let due := if k1.ports = 0 then t.due.erase k else t.due.map fun x => if x = k then k1 else x
      let up := s.portUp p
      let t1 : Tx := { t with
        due := due,
        pkts := if up && !k.old then satInc 31 t.pkts else t.pkts,
        skip := if up || k.old then t.skip else satInc 31 t.skip }
      let s1 : State := if due.isEmpty && t.cfg.isNone && t.stored.isNone then { s with tx := tdel st s.tx } else s.setTx st t1
      let n := s.netP p
      if up then
        s1.setNet p { n with txOk := satInc 31 n.txOk, txMedia := satInc 31 n.txMedia, lastTx := pad60 (k.frame n s.tm.rate k.k) }
      else s1

/-! ### TXSTREAM_CFG (R341 to R343) -/

def streamLen (base : Nat) (p : Packet) : Option Err :=
  let n := if p.u8 17 = 0 then up4 (base + 2 * p.u8 21) else 20
  failIf (!decide (p.len = n)) { status := stBadLen, ofs := 4, detail := p.len }

def txCfgLen (p : Packet) : Option Err := streamLen 52 p

/-- Entries of a channel map. -/
def chmapOf (p : Packet) (o n : Nat) : List Nat := (List.range n).map fun i => p.u16 (o + 2 * i)

def txOf (p : Packet) : TxCfg :=
  { ports := p.u8 18, fmt := p.u8 19, ptime := p.u8 20, nch := p.u8 21, pt := p.u8 22, tfl := p.u8 23, vid := p.u16 24,
    dscp := p.u8 26, ttl := p.u8 27, dstIp := p.ube 28 4, dstUdp := p.u16 32, srcUdp := p.u16 34, dstMac := p.ube 36 6,
    alignMin := p.u8 42, ssrc := p.u32 44, rtpOfs := p.u32 48, chmap := chmapOf p 52 (p.u8 21) }

/-- Entry i of a channel map: present, and not named twice. -/
def mapErr (p : Packet) (o i : Nat) (ok : Nat → Bool) (skip : Bool) : Option Err :=
  let d := p.u16 (o + 2 * i)
  if skip && decide (d = 0xFFFF) then none
  else need (ok d && !((List.range i).any fun k => decide (p.u16 (o + 2 * k) = d))) (o + 2 * i) d

/-- A stream outside i names ID d. -/
def State.txUses (s : State) (i : Nat) (ds : List Nat) : Option (Nat × Nat) :=
  ds.findSome? fun d => (s.tx.find? fun e => decide (e.1 ≠ i) && (match e.2.eff with
    | some c => c.chmap.contains d
    | none => false)).map fun e => (e.1, d)
def State.rxUses (s : State) (i : Nat) (ds : List Nat) : Option (Nat × Nat) :=
  (ds.filter (· ≠ 0xFFFF)).findSome? fun d => (s.rx.find? fun e => decide (e.1 ≠ i) && (match e.2.eff with
    | some c => c.chmap.contains d
    | none => false)).map fun e => (e.1, d)

/-- Checks of a delete or read (R341, R343). -/
def streamOpChk (p : Packet) (s : State) (set : Bool) : Option Err :=
  firstErr [need (decide (p.u8 16 < s.nStream)) 16 (p.u8 16), p.within 17 1 0 2, p.clr 18 1 0xFE, p.zero 19 1,
    stateIf (!set) (p.u8 16)]

/-- The sum a set would make on a port that has too small a budget (R326). -/
def State.overBudget (s : State) (i : Nat) (c : TxCfg) : Option Err :=
  (maskBits c.ports 2).findSome? fun p =>
    let sum := (((s.txOn p).filter fun e => decide (e.1 ≠ i)).foldl (fun a e => a + e.2.band s.tm.rate) 0) + c.band s.tm.rate
    failIf (decide (s.budget p < sum)) { status := stNoResource, aux := p, detail := kbps sum }

def txCfgChk (p : Packet) (s : State) : Option Err :=
  let i := p.u8 16
  if p.u8 17 ≠ 0 then streamOpChk p s (s.txs i).eff.isSome
  else
    let c := txOf p
    let pay := c.payload s.tm.rate
    let mc := ipMcast c.dstIp
    firstErr ([absentIf (bit c.ports 1 && s.isSmall) 18 1, need (decide (i < s.nStream)) 16 i,
      need (decide (1 ≤ c.ports) && decide (c.ports ≤ 3)) 18 c.ports, p.within 19 1 0 3, p.within 20 1 0 4,
      need (decide (1 ≤ c.nch) && decide (c.nch ≤ 64) && (!decide (c.fmt = 2) || decide (c.nch % 2 = 0))) 21 c.nch,
      failIf (decide (s.payMax c.ports < pay)) (badParam 20 pay),
      p.clr 22 1 0x80, p.clr 23 1 0xF8, p.clr 24 2 0x8000, p.clr 26 1 0xC0, p.within 27 1 1 255,
      failIf (decide (c.dstIp = 0) || decide (0xF0000000 ≤ c.dstIp)) (badParam 28 0),
      p.within 32 2 1 65535, p.within 34 2 1 65535,
      failIf (if mc then decide (c.dstMac ≠ 0) else decide (c.dstMac = 0) || macGroup c.dstMac) (badParam 36 0),
      p.within 42 1 0 68, p.zero 43 1] ++
      (List.range c.nch).map (fun j => mapErr p 52 j (fun d => decide (d < 0x200) && s.dstOk d) false) ++
      [need (decide (c.nch % 2 = 0) || decide (p.u16 (52 + 2 * c.nch) = 0)) (52 + 2 * c.nch) (p.u16 (52 + 2 * c.nch)),
       (s.txUses i c.chmap).bind fun e => some { status := stBusy, aux := e.1, detail := e.2 },
       s.overBudget i c])

/-- The 32 bytes of a Tx stream (R342). -/
def txRec (s : State) (i : Nat) (t : Tx) (c : TxCfg) (configured : Bool) (first : Nat) : List Byte :=
  let n := sppAt s.tm.rate c.ptime
  let m := s.mAt s.apFrame
  let m0 := if t.frames.isEmpty then (m + n - 1) / n * n else t.firstM
  let send (p : Nat) : Bool := bit c.ports p && s.txMay i p
  le 1 (flags [configured, send 0, send 1, (maskBits c.ports 2).any fun p => s.heldOn p i]) ++ le 1 t.a ++ le 2 n ++
  le 2 t.seq ++ le 2 (max 64 (c.payload s.tm.rate + 58 + 4 * b2n (bit c.tfl 1))) ++
  le 4 ((m0 + c.rtpOfs + 2 ^ 32 - t.ta.getD t.a) % 2 ^ 32) ++ le 4 (kbps (c.band s.tm.rate)) ++ le 4 (satWord t.pkts) ++
  le 4 (satWord t.skip) ++ le 4 first ++ le 4 0

/-- A stream set in frame a (R315). -/
def txSet (i a : Nat) (c : TxCfg) (s : State) : State :=
  let t := s.txs i
  let go := match t.cfg with
    | some o => decide (o.ssrc = c.ssrc) && decide (o.ports = c.ports) && !t.fresh
    | none => false
  let al := s.alignOf c
  (s.setTx i { t with
    cfg := some c, stored := none, fresh := false, a := al, ta := none, dly := [], srcs := [], tap := none, seq := if go then t.seq else Config.freeNat s.freeCtr % 65536,
    from0 := a, frames := [] }).bump

def txDelete (i : Nat) (s : State) : State :=
  let t := s.txs i
  if t.due.isEmpty then { s with tx := tdel i s.tx }
  else s.setTx i { due := t.due.map fun k => { k with old := true } }

/-- A Tx stream without the channels `ds`: it sends zeros for them. -/
def TxCfg.without (ds : List Nat) (c : TxCfg) : TxCfg :=
  { c with chmap := c.chmap.map fun d => if ds.contains d then 0xFFFF else d }

/-- Channels that an earlier command of the frame gave to another stream go to stream i: the later command stands (R69,
log 140). -/
def txYield (i : Nat) (ds : List Nat) (s : State) : State :=
  { s with tx := s.tx.map fun e => if e.1 = i then e else
      (e.1, { e.2 with cfg := e.2.cfg.map (·.without ds), stored := e.2.stored.map (·.map (·.without ds)) }) }

/-- TXSTREAM_CFG; a stream that an earlier command of the frame has deleted has nothing to delete, and reads as zeros (log 140). -/
def txCfgApply (id : Nat) (p : Packet) (t : Nat) (s0 : State) : State :=
  let i := p.u8 16
  if p.u8 17 = 0 then
    let c := txOf p
    let s := txYield i c.chmap s0
    let n := sppAt s.tm.rate c.ptime
    if s.inListen then
      let s1 := (s.setTx i { s.txs i with stored := some (some c) }).usersChanged s
      s1.finishOk id (txRec s1 i (s1.txs i) c true 0) t
    else
      let s1 := (txSet i s.apFrame c s).usersChanged s
      let m := s.mAt s.apFrame
      s1.finishOk id (txRec s1 i (s1.txs i) c true ((s.apFrame + ((m + n - 1) / n * n - m)) % 2 ^ 32)) t
  else
    let s := s0
    let x := s.txs i
    match x.eff with
    | none => s.finishOk id (List.replicate 32 0) t
    | some c =>
      let data := txRec s i x c (decide (p.u8 17 = 2)) 0
      let s1 :=
        if p.u8 17 = 1 then
          (if s.inListen then s.setTx i { x with stored := some none, fresh := true, pkts := (0, false), skip := (0, false) }
           else txDelete i s)
        else if bit (p.u8 18) 0 then s.setTx i { x with pkts := (0, false), skip := (0, false) } else s
      (s1.usersChanged s).finishOk id data t

/-! ### Reception (R317 to R323) -/

/-- Extra frames of a reader code: 0 the Δ = 0 reader, 1 to 4 the DAC responses; in halves of a frame (R151, R153). -/
def delta2 (code : Nat) : Nat := [0, 66, 12, 9, 22].getD code 0

/-- L × fs of a stream in units of 1/10^6 frame. -/
def RxCfg.lfs (c : RxCfg) (rate : Nat) : Nat := c.linkOfs * rate

/-- The media count of the frame in which a reader first needs sample m (R318, R320). -/
def needM (c : RxCfg) (rate : Nat) (m : Int) (d2 : Nat) : Int :=
  m + ((2 * (c.lfs rate : Int) - 1000000 * (d2 : Int)) / 2000000)

/-- Codes of the readers routed from a stream's channels (R153). -/
def State.codesOf (s : State) (c : RxCfg) : List Nat :=
  ((List.range 22).filter fun i => (s.srcsOf (0x200 + i)).any fun x => decide (x < 0x200) && c.chmap.contains x).map
    fun i => 1 + (s.grp (grpOf i)).resp

/-- Frames of a stream's region (R319). -/
def State.rxFrames (s : State) (r : Rx) : Nat :=
  match r.region.bind s.region with
  | some g => g.frames
  | none => 0

/-- A sample of the wire (R312). -/
def unpackSmp (fmt : Nat) (b : List Byte) : Int :=
  if fmt = 0 then sgn 16 (unbe b) * 65536
  else if fmt = 1 then sgn 24 (unbe b) * 256
  else if fmt = 2 then sgn 24 (unbe (b.drop 1)) * 256
  else sgn 32 (unbe b)

/-- The samples of a payload, by frame. -/
def unpackFrames (fmt nch : Nat) (b : List Byte) : List (List Int) :=
  let w := fmtBytes fmt
  (List.range (b.length / (w * nch))).map fun j => (List.range nch).map fun ch =>
    unpackSmp fmt ((b.drop ((j * nch + ch) * w)).take w)

/-- The RTP payload of a datagram, padding, extension and CSRC honoured (R307); none where it does not hold together. -/
def rtpPayload (d : List Byte) : Option (List Byte) :=
  let cc := byteAt d 0 % 16
  let o := 12 + 4 * cc
  let h := if bit (byteAt d 0) 4 then o + 4 + 4 * fieldBe d (o + 2) 2 else o
  let pad := if bit (byteAt d 0) 5 then byteAt d (d.length - 1) else 0
  if 12 ≤ d.length ∧ h + pad ≤ d.length ∧ (bit (byteAt d 0) 5 → 1 ≤ pad) then some ((d.take (d.length - pad)).drop h) else none

/-- RX_STREAM; its DONE is kept by stream (R337, R596). -/
def State.rxEvent (s : State) (i : Nat) : State :=
  let r := s.rxs i
  ({ s.setRx i { r with repSt := r.st, repPaths := r.paths } with evLast := tset (0x703 * 65536 + i) s.nowNs s.evLast }).raise 0x703
    (le 2 i ++ le 1 r.st ++ le 1 r.paths ++ le 4 s.frame32)

/-- A change of RSTATE or PATHS is reported, at most once per 100 ms from the DONE of the last (R337, R596). -/
def rxReport (i : Nat) (s : State) : State :=
  let r := s.rxs i
  let due : Bool := match tget? s.evLast (0x703 * 65536 + i) with
    | some t => !decide (s.nowNs < t + 100000000)
    | none => true
  if (decide (r.st ≠ r.repSt) || decide (r.paths ≠ r.repPaths)) && due then s.rxEvent i else s

/-- A path of a stream has delivered a valid packet (R321). -/
def Rx.onPath (r : Rx) (p clk : Nat) : Rx :=
  { r with paths := r.paths ||| 2 ^ p, last0 := if p = 0 then clk else r.last0, last1 := if p = 1 then clk else r.last1 }

/-- Margins kept by the second (R345). -/
def Rx.rollMargin (r : Rx) (clk : Nat) : Rx :=
  if clk < r.mgAt + 1000000000 then r
  else { r with mgAt := r.mgAt + (clk - r.mgAt) / 1000000000 * 1000000000, mgNow := none,
                mgLast := if clk < r.mgAt + 2000000000 then r.mgNow else none }

/-- The clk at which the frame with media count m begins, or is expected to. -/
def State.boundaryOf (s : State) (m : Int) : Int :=
  (s.eng.lastLatch : Int) + (m - s.tm.mediaM) * (1000000000 * s.perNum : Nat) / (s.perDen : Nat)

/-- A packet that arrives at clk `arr` comes after the boundary of the frame with media count m (R320). -/
def State.missed (s : State) (m : Int) (arr : Nat) : Bool :=
  decide (m < s.tm.mediaM) || decide (m = s.tm.mediaM) && decide (s.eng.lastLatch < arr)

/-- Sequence numbers skipped between two packets (R322). -/
def skipped (before after : Nat) : Nat :=
  let n := (after + 65535 - before) % 65536
  if n < 32768 then n else 0

/-- The samples of a packet stored in their stream's region, the place of media count m being the remainder of m + org by F
(R246, R319, log 138). -/
def rxStore (i : Nat) (k : RxPkt) (s : State) : State :=
  match (s.rxs i).region.bind s.region with
  | none => s
  | some g =>
    let w := if g.fmt = 0 then 4 else 3
    (k.smp.zipIdx).foldl (fun (a : State) (x : List Int × Nat) =>
      let pos := ((k.m + x.2 + (s.rxs i).org) % (g.frames : Int)).toNat
      { a with fk := mwrites a.fk (4096 * g.first + pos * g.chans * w) (x.1.flatMap (smpBytes g.fmt)) }) s

/-- A packet of stream i written: the region is a ring of F samples, so that those of packets F or more away from it are gone
(R246, R320, R322, R374). -/
def rxWrite (i p : Nat) (c : RxCfg) (k : RxPkt) (s : State) : State :=
  let r := (s.rxs i).rollMargin k.arr
  let f := s.rxFrames r
  let rate := s.tm.rate
  let codes := s.codesOf c
  let short := codes.any fun q => decide (0 < delta2 q) && s.missed (needM c rate k.m (delta2 q)) k.arr
  let dmax := codes.foldl (fun a q => max a (delta2 q)) 0
  let mg := s.boundaryOf (needM c rate k.m dmax) - k.arr
  let buf := r.buf ++ [k]
  let top := k.m + k.smp.length
  let miss : Nat := match r.gapSeq with
    | some q => skipped q k.seq
    | none => 0
  let r1 : Rx := { r with
    buf := buf.filter (fun x => decide ((x.m + x.smp.length - top).natAbs < f)), lastTs := k.ts, st := 1,
    lastWr := k.arr, pkts := satInc 31 r.pkts, used0 := if p = 0 then satInc 31 r.used0 else r.used0,
    used1 := if p = 1 then satInc 31 r.used1 else r.used1, short := if short then satInc 31 r.short else r.short,
    gapSeq := none, missing := addCtr miss r.missing,
    firstFr := match r.firstFr with
      | some x => some x
      | none => some s.frame32,
    mgNow := match r.mgNow with
      | some x => some (min x mg)
      | none => some mg }
  rxReport i (rxStore i k (s.setRx i (r1.onPath p k.arr)))

/-- A datagram of stream i from port p arrives at clk `arr`: checked, late, early, a duplicate or written (R317, R320, R321). -/
def rxPacket (i p : Nat) (c : RxCfg) (sumOk : Bool) (d : List Byte) (arr : Nat) (s : State) : State :=
  let r := s.rxs i
  let n := sppAt s.tm.rate c.ptime
  let bad := s.setRx i { r with badFmt := satInc 31 r.badFmt }
  match rtpPayload d with
  | none => bad
  | some b =>
    let fb := fmtBytes c.fmt * c.nch
    if !sumOk || decide (byteAt d 0 / 64 ≠ 2) || (!bit c.pt 7 && decide (byteAt d 1 % 128 ≠ c.pt % 128)) ||
        (bit c.rfl 0 && decide (fieldBe d 8 4 ≠ c.ssrc)) || decide (b.length = 0) || decide (b.length % fb ≠ 0) ||
        decide (n < b.length / fb) then bad
    else
      let ts := fieldBe d 4 4
      let now := s.tm.mediaM
      let m : Int := now + sgn 32 (ts + 2 ^ 33 - c.rtpOfs - now % 2 ^ 32)
      let k : RxPkt := { seq := fieldBe d 2 2, ts := ts, m := m, smp := unpackFrames c.fmt c.nch b, arr := arr }
      let last : Int := (m + k.smp.length - 1) * 1000000 + c.lfs s.tm.rate
      if s.missed (needM c s.tm.rate m 0) arr then s.setRx i { r with late := satInc 31 r.late }
      else if ((now : Int) + s.rxFrames r - 1) * 1000000 < last then s.setRx i { r with early := satInc 31 r.early }
      else match r.buf.find? fun x => decide (x.seq = k.seq) with
        | some x =>
          let r1 : Rx := if x.ts = ts then { r with dup := satInc 31 r.dup } else { r with tsMis := satInc 31 r.tsMis }
          rxReport i (s.setRx i (r1.onPath p arr))
        | none => rxWrite i p c k s

/-- A matching datagram of `wire` bytes (R326) is received on port p: it arrives its wire time and 2 µs later (R320). -/
def rxTake (i p wire : Nat) (u : Udp) (s : State) : State :=
  let r := s.rxs i
  let bps := speedBps (s.netP p).speed
  let y : RxFly := { arr := s.clk + wire * 8 * 1000000000 / max 1 bps + 2000, port := p, sumOk := u.sumOk, data := u.data }
  s.setRx i { r with fly := r.fly ++ [y] }

/-- Datagrams that have arrived before clk `lim` meet their streams, those of one stream by arrival, whatever their ports
(R320, R321; log 141). -/
def rxLands (lim : Nat) (s : State) : State :=
  forEach (s.rx.map (·.1)) (fun i a =>
    let r := a.rxs i
    let due := sortBy (·.arr) (r.fly.filter fun y => decide (y.arr < lim))
    if due.isEmpty then a
    else due.foldl (fun b y => match (b.rxs i).cfg with
      | some c => if bit c.ports y.port then rxPacket i y.port c y.sumOk y.data y.arr b else b
      | none => b) (a.setRx i { r with fly := r.fly.filter fun y => !decide (y.arr < lim) })) s

/-- Everything that has arrived by now. -/
def State.landed (s : State) : State := rxLands (s.clk + 1) s

/-- The stream a datagram on port p belongs to (R317). -/
def State.rxMatch (s : State) (p : Nat) (ip : Ip4) (u : Udp) : Option (Nat × RxCfg) :=
  s.rx.findSome? fun e => match e.2.cfg with
    | none => none
    | some c =>
      let (dip, sip, port) := if p = 0 then (c.ip0, c.src0, c.udp0) else (c.ip1, c.src1, c.udp1)
      if bit c.ports p && decide (ip.dst = dip) && decide (u.dport = port) && (decide (sip = 0) || decide (sip = ip.src)) then
        some (e.1, c) else none

/-- RX_NO_SIGNAL: no packet written for 100 ms (R323). -/
def rxNoSignalStep (i : Nat) (s0 : State) : State :=
  let s := s0.landed
  let r := s.rxs i
  if r.st = 1 ∧ r.lastWr + 100000000 ≤ s.clk then rxReport i (s.setRx i { r with st := 2 }) else s

/-- RX_PATH_TIMEOUT: no valid packet from a path for 100 ms (R321). -/
def rxPathTimeoutStep (i p : Nat) (s0 : State) : State :=
  let s := s0.landed
  let r := s.rxs i
  if bit r.paths p ∧ (if p = 0 then r.last0 else r.last1) + 100000000 ≤ s.clk then
    rxReport i (s.setRx i { r with paths := r.paths - 2 ^ p })
  else s

/-! ### Readers (R153, R154, R322) -/

/-- Sample k of channel ch in a stream's buffer, of the packets that arrived by clk `lim`. -/
def Rx.sample (r : Rx) (lim : Nat) (k : Int) (ch : Nat) : Option Int :=
  r.buf.findSome? fun x =>
    if x.m ≤ k ∧ k < x.m + x.smp.length ∧ x.arr ≤ lim then some (((x.smp.getD (k - x.m).toNat []).getD ch 0)) else none

/-- Where a reader with code q stands in the frame with media count m: sample and fraction in 1/2,000,000 (R154, R318). -/
def readPos (c : RxCfg) (rate m q : Nat) : Int × Nat :=
  let num : Int := 2000000 * (m : Int) + 1000000 * (delta2 q : Int) - 2 * (c.lfs rate : Int)
  (num / 2000000, (num % 2000000).toNat)

/-- What a reader with code q needs in the frame with media count m that began at clk `lim`: exact or interpolated, none when
missed. -/
def Rx.readAt (r : Rx) (lim : Nat) (c : RxCfg) (rate m q ch : Nat) : Option Int :=
  let (k, f) := readPos c rate m q
  if f = 0 then r.sample lim k ch
  else match r.sample lim k ch, r.sample lim (k + 1) ch with
    | some a, some b => some (interpQ f 2000000 [b, a])
    | _, _ => none

/-- The first sample the Δ = 0 reader misses in that frame. -/
def Rx.missAt (r : Rx) (lim : Nat) (c : RxCfg) (rate m : Nat) : Option Int :=
  let (k, f) := readPos c rate m 0
  if (r.sample lim k 0).isNone then some k
  else if f ≠ 0 ∧ (r.sample lim (k + 1) 0).isNone then some (k + 1) else none

/-- The Δ = 0 reader meets a gap at sample k: counted once; the numbers skipped across it count now where the packet after it is
held already, else with the next packet written (R322). -/
def Rx.meetGap (r : Rx) (k : Int) : Rx :=
  let near (l : List RxPkt) (better : Int → Int → Bool) : Option RxPkt :=
    l.foldl (fun a x => match a with
      | some y => if better x.m y.m then some x else some y
      | none => some x) none
  let r1 : Rx := { r with gap := true, gapSeq := none, conceal := satInc 31 r.conceal }
  match near (r.buf.filter fun x => decide (x.m ≤ k)) (fun a b => decide (b < a)),
        near (r.buf.filter fun x => decide (k < x.m)) (fun a b => decide (a < b)) with
  | some b, some a => { r1 with missing := addCtr (skipped b.seq a.seq) r1.missing }
  | some b, none => { r1 with gapSeq := some b.seq }
  | none, _ => r1

/-- One frame of a reader: its state and its output (R322). A fall repeats what the reader put out S frames earlier, S that of
its last normal read (R345). -/
def Reader.step (x : Reader) (got : Option Int) (spp rate : Nat) : Reader × Int :=
  let d := ceilDiv gFull (max 1 (msFrames 1 rate))
  match got with
  | some v =>
    let g := min gFull (x.g + d)
    ({ g := g, spp := spp, hist := (v :: x.hist).take 768 }, scale62 (rcos g gFull) v)
  | none =>
    let v := x.hist.getD (x.spp - 1) 0
    let g := x.g - d
    ({ x with g := g, hist := (v :: x.hist).take 768 }, scale62 (rcos g gFull) v)

/-- The stream and channel an NRX belongs to. -/
def State.nrxOwner (s : State) (n : Nat) : Option (Nat × RxCfg × Nat) :=
  s.rx.findSome? fun e => match e.2.cfg with
    | some c => (c.chmap.findIdx? fun x => decide (x = n)).map fun ch => (e.1, c, ch)
    | none => none

def rdKey (nrx code : Nat) : Nat := nrx * 8 + code

/-- A reader of NRX n advanced by one frame: its output. A reader that begins on a running stream takes the Δ = 0
reader's gain. -/
def nrxStep (fr n code : Nat) (s : State) : State × Int :=
  let x : Reader := match tget? s.readers (rdKey n code) with
    | some x => x
    | none => { g := (tget {} s.readers (rdKey n 0)).g }
  let (got, spp) : Option Int × Nat := match s.nrxOwner n with
    | some (i, c, ch) => ((s.rxs i).readAt s.eng.lastLatch c s.tm.rate (s.mAt fr) code ch, sppAt s.tm.rate c.ptime)
    | none => (none, x.spp)
  let (y, v) := x.step got spp s.tm.rate
  let gone := (s.nrxOwner n).isNone && decide (y.g = 0)
  ({ s with readers := if gone then tdel (rdKey n code) s.readers else tset (rdKey n code) y s.readers }, v)

/-- The Δ = 0 readers of frame fr give the NRX sources; a stream's gap is counted once (R322). -/
def nrxFrame (fr : Nat) (s : State) : State :=
  let owned := s.rx.flatMap fun e => match e.2.cfg with
    | some c => c.chmap.filter (· ≠ 0xFFFF)
    | none => []
  let left := (s.readers.filter fun e => decide (e.1 % 8 = 0) && !owned.contains (e.1 / 8)).map fun e => e.1 / 8
  let s1 := forEach (owned ++ left) (fun n a =>
    let (b, v) := nrxStep fr n 0 a
    { b with eng := { b.eng with src := tset n { v := v } b.eng.src } }) s
  forEach (s1.rx.map (·.1)) (fun i a =>
    let r := a.rxs i
    match r.cfg with
    | none => a
    | some c =>
      match r.missAt a.eng.lastLatch c a.tm.rate (a.mAt fr) with
      | none => if r.gap then a.setRx i { r with gap := false } else a
      | some k => if r.gap then a else a.setRx i (r.meetGap k)) s1

/-- The readers of the analogue destinations of frame fr: what each NRX delivers by reader code (R153). -/
def nrxDacs (fr : Nat) (s : State) : State × Tab Int :=
  let want := ((List.range 22).flatMap fun i =>
    ((s.srcsOf (0x200 + i)).filter fun x => decide (x < 0x200)).map fun x => rdKey x (1 + (s.grp (grpOf i)).resp)).eraseDups
  let keep := s.readers.filter fun e => decide (e.1 % 8 = 0) || want.contains e.1
  want.foldl (fun (a : State × Tab Int) k =>
    let (b, v) := nrxStep fr (k / 8) (k % 8) a.1
    (b, tset k v a.2)) ({ s with readers := keep }, [])

/-! ### RXSTREAM_CFG (R344 to R346) -/

def rxCfgLen (p : Packet) : Option Err := streamLen 60 p

def rxOf (p : Packet) : RxCfg :=
  { ports := p.u8 18, fmt := p.u8 19, ptime := p.u8 20, nch := p.u8 21, pt := p.u8 22, rfl := p.u8 23, linkOfs := p.u16 24,
    ip0 := p.ube 28 4, src0 := p.ube 32 4, udp0 := p.u16 36, ip1 := p.ube 40 4, src1 := p.ube 44 4, udp1 := p.u16 48,
    ssrc := p.u32 52, rtpOfs := p.u32 56, chmap := chmapOf p 60 (p.u8 21) }

/-- Storage format of a stream's region (R319). -/
def RxCfg.store (c : RxCfg) : Nat := if c.fmt = 3 then 0 else 1

/-- Bushels of a stream's region at a base rate (R319). -/
def RxCfg.bushels (c : RxCfg) (rate : Nat) : Nat :=
  let need := ceilDiv (c.lfs rate) 1000000 + 2 * sppAt rate c.ptime + 8
  ceilDiv (need * c.nch * (if c.fmt = 3 then 4 else 3)) 4096

/-- A stream's region freed. -/
def rxFree (i : Nat) (s : State) : State :=
  match (s.rxs i).region with
  | some g => ({ s with regions := tdel g s.regions }).setRx i { s.rxs i with region := none }
  | none => s

/-- A region for stream i, the old one counted as free (R319). -/
def rxRegion (i : Nat) (c : RxCfg) (rate : Nat) (s : State) : Except Err State :=
  let s1 := rxFree i s
  match s1.fitRegion (c.bushels rate) with
  | .error e => .error e
  | .ok (g, first) =>
    let r : Region := { first := first, n := c.bushels rate, fmt := c.store, chans := c.nch, owner := .rx i }
    .ok (({ s1 with regions := tset g r s1.regions }).setRx i { s1.rxs i with region := some g })

/-- An Rx stream without a port. -/
def RxCfg.noPort (q : Nat) (c : RxCfg) : RxCfg :=
  if !bit c.ports q then c
  else if q = 0 then { c with ports := c.ports - 1, ip0 := 0, src0 := 0, udp0 := 0 }
  else { c with ports := c.ports - 2, ip1 := 0, src1 := 0, udp1 := 0 }

/-- It matches what `o` matches on port q (R317). -/
def RxCfg.clash (c o : RxCfg) (q : Nat) : Bool :=
  bit c.ports q && bit o.ports q && (if q = 0 then decide (o.ip0 = c.ip0) && decide (o.udp0 = c.udp0)
                                     else decide (o.ip1 = c.ip1) && decide (o.udp1 = c.udp1))

/-- Another stream matches the same address and port on a port of the mask (R346). -/
def State.rxClash (s : State) (i : Nat) (c : RxCfg) : Option Err :=
  (maskBits c.ports 2).findSome? fun p =>
    (s.rx.find? fun e => decide (e.1 ≠ i) && (match e.2.eff with
      | some o => c.clash o p
      | none => false)).map fun e => { status := stBusy, aux := e.1, detail := p }

def rxPortErr (p : Packet) (s : State) (q o : Nat) : List (Option Err) :=
  let ip := p.ube o 4
  if bit (p.u8 18) q then
    [failIf (!(ipMcast ip || (decide (ip ≠ 0) && decide (ip = (s.netP q).ipv4)))) (badParam o q)]
  else [need (decide (ip = 0)) o ip, need (decide (p.ube (o + 4) 4 = 0)) (o + 4) (p.ube (o + 4) 4),
        need (decide (p.u16 (o + 8) = 0)) (o + 8) (p.u16 (o + 8))]

/-- Filter entries exhausted by a new stream (R324). -/
def State.rxFilterErr (s : State) (i : Nat) (c : RxCfg) : Option Err :=
  let s1 := s.setRx i { s.rxs i with stored := some (some c) }
  (maskBits c.ports 2).findSome? fun p =>
    failIf (decide (256 < (s1.filters p).length)) { status := stNoResource, aux := 2, detail := p }

def rxCfgChk (p : Packet) (s : State) : Option Err :=
  let i := p.u8 16
  if p.u8 17 ≠ 0 then streamOpChk p s (s.rxs i).eff.isSome
  else
    let c := rxOf p
    firstErr ([absentIf (bit c.ports 1 && s.isSmall) 18 1, need (decide (i < s.nStream)) 16 i,
      need (decide (1 ≤ c.ports) && decide (c.ports ≤ 3)) 18 c.ports, p.within 19 1 0 3, p.within 20 1 0 4,
      need (decide (1 ≤ c.nch) && decide (c.nch ≤ 64) && (!decide (c.fmt = 2) || decide (c.nch % 2 = 0))) 21 c.nch,
      p.clr 23 1 0xFE, p.within 24 2 250 20000, p.zero 26 2] ++ rxPortErr p s 0 28 ++ [p.zero 38 2] ++ rxPortErr p s 1 40 ++
      [p.zero 50 2] ++
      (List.range c.nch).map (fun j => mapErr p 60 j (fun d => decide (d < 0x200) && s.srcOk d) true) ++
      [need (decide (c.nch % 2 = 0) || decide (p.u16 (60 + 2 * c.nch) = 0)) (60 + 2 * c.nch) (p.u16 (60 + 2 * c.nch)),
       s.rxClash i c,
       (s.rxUses i c.chmap).bind fun e => some { status := stBusy, aux := e.1, detail := e.2 },
       (match rxRegion i c s.tm.rate s with
        | .error e => some e
        | .ok _ => none),
       s.rxFilterErr i c])

/-- The 64 bytes of an Rx stream (R345). -/
def rxRec (s : State) (i : Nat) (r0 : Rx) (c : RxCfg) : List Byte :=
  let r := r0.rollMargin s.clk
  let mg : Int := match r.mgLast with
    | some x => clampI (-2147483648) 2147483647 (roundAway x 1000)
    | none => Config.marginUs s.freeCtr i
  let bush := match r.region.bind s.region with
    | some g => g.n
    | none => 0
  le 1 r.st ++ le 1 r.paths ++ le 1 (r.region.getD 0xFF) ++ le 1 0 ++ le 2 bush ++ le 2 (sppAt s.tm.rate c.ptime) ++
  le 4 r.lastTs ++ le 4 (uns 32 mg) ++ [r.pkts, r.missing, r.late, r.early, r.badFmt, r.dup, r.used0, r.used1, r.conceal,
    r.short, r.tsMis].flatMap (fun k => le 4 (satWord k)) ++ le 4 (r.firstFr.getD 0)

/-- Counters cleared. -/
def Rx.clear (r : Rx) : Rx :=
  { r with pkts := (0, false), missing := (0, false), late := (0, false), early := (0, false), badFmt := (0, false),
           dup := (0, false), used0 := (0, false), used1 := (0, false), conceal := (0, false), short := (0, false),
           tsMis := (0, false) }

/-- A stream set: its region is allocated, its buffer is empty, and it waits (R319, R345). In Listen the region is allocated at
once and the rest is stored; the region then stays where it is (R243). A set whose region fits no more, for the table changed since
its checks, holds none (log 140). -/
def rxSet (i : Nat) (c : RxCfg) (store : Bool) (s : State) : State :=
  let had := decide ((s.rxs i).stored = some (some c)) && (s.rxs i).region.isSome
  let s1 := if had then s else match rxRegion i c s.tm.rate s with
    | .error _ => rxFree i s
    | .ok x => x
  let r := s1.rxs i
  if store then s1.setRx i { r with stored := some (some c) }
  else
    let r0 : Rx := if r.fresh then { region := r.region } else r
    rxReport i (s1.bump.setRx i { r0 with
      cfg := some c, stored := none, fresh := false, org := Config.freeNat s1.freeCtr, st := 0, paths := 0, fly := [], buf := [],
      gap := true, gapSeq := none, firstFr := none, mgAt := s.clk, mgNow := none, mgLast := none })

def rxDelete (i : Nat) (s : State) : State :=
  let s1 := rxFree i s
  { s1 with rx := tdel i s1.rx }

/-- An Rx stream without what `c` takes: its channels, and the ports on which both match the same datagrams. -/
def RxCfg.without (c o : RxCfg) : RxCfg :=
  let o1 := { o with chmap := o.chmap.map fun d => if c.chmap.contains d then 0xFFFF else d }
  let o2 := if c.clash o 0 then o1.noPort 0 else o1
  if c.clash o 1 then o2.noPort 1 else o2

/-- Channels and datagrams that an earlier command of the frame gave to another stream go to stream i: the later command stands
(R69, log 140). -/
def rxYield (i : Nat) (c : RxCfg) (s : State) : State :=
  { s with rx := s.rx.map fun e => if e.1 = i then e else
      (e.1, { e.2 with cfg := e.2.cfg.map c.without, stored := e.2.stored.map (·.map c.without) }) }

/-- RXSTREAM_CFG; a stream that an earlier command of the frame has deleted has nothing to delete, and reads as zeros (log 140). -/
def rxCfgApply (id : Nat) (p : Packet) (t : Nat) (s0 : State) : State :=
  let s := s0.landed
  let i := p.u8 16
  let x := s.rxs i
  if p.u8 17 = 0 then
    let s2 := (rxSet i (rxOf p) s.inListen (rxYield i (rxOf p) s)).usersChanged s
    (s2.finishOk id (rxRec s2 i (s2.rxs i) (rxOf p)) t).bump
  else
    match x.eff with
    | none => s.finishOk id (List.replicate 64 0) t
    | some c =>
      let data := rxRec s i x c
      let s1 :=
        if p.u8 17 = 1 then
          (if s.inListen then s.setRx i { x.clear with stored := some none, fresh := true, firstFr := none } else rxDelete i s)
        else if bit (p.u8 18) 0 then s.setRx i x.clear else s
      ((s1.usersChanged s).finishOk id data t).bump

/-- Settings stored in Listen take effect at the first frame (R342, R345). -/
def streamsStored (fr : Nat) (s : State) : State :=
  let s1 := forEach (s.tx.map (·.1)) (fun i a =>
    match (a.txs i).stored with
    | some (some c) => txSet i fr c a
    | some none => txDelete i a
    | none => a) s
  forEach (s1.rx.map (·.1)) (fun i a =>
    match (a.rxs i).stored with
    | some (some c) => rxSet i c false a
    | some none => rxDelete i a
    | none => a) s1

/-! ### Rate changes and port reset (R328, R329) -/

/-- What blocks a rate change among the streams (R35 rows 3, 4, 7, 8, 9): AUX and DETAIL. -/
def State.txGone (s : State) (rate : Nat) : Option (Nat × Nat) :=
  (s.tx.find? fun e => match e.2.eff with
    | some c => c.chmap.any fun d => decide (d ≠ 0xFFFF) && !s.dstAt rate d
    | none => false).map fun e => (3, e.1)
def State.rxGone (s : State) (rate : Nat) : Option (Nat × Nat) :=
  (s.rx.find? fun e => match e.2.eff with
    | some c => c.chmap.any fun d => decide (d ≠ 0xFFFF) && !s.srcAt rate d
    | none => false).map fun e => (4, e.1 + 32768)
def State.txBig (s : State) (rate : Nat) : Option (Nat × Nat) :=
  (s.tx.find? fun e => match e.2.eff with
    | some c => decide (s.payMax c.ports < c.payload rate)
    | none => false).map fun e => (7, e.1)
def State.rxBig (s : State) (rate : Nat) : Option (Nat × Nat) :=
  (s.rx.find? fun e => match e.2.eff with
    | some c => decide (s.payMax c.ports < c.payload rate)
    | none => false).map fun e => (8, e.1 + 32768)

/-- Every Rx region reallocated at a base rate, ascending, all old ones counted as free; the first that does not fit. -/
def rxRealloc (rate : Nat) (s : State) : State × Option Nat :=
  let ids := (s.rx.filter fun e => e.2.eff.isSome).map (·.1)
  let s1 := forEach ids rxFree s
  ids.foldl (fun (a : State × Option Nat) i =>
    match a.2, (a.1.rxs i).eff with
    | none, some c => match rxRegion i c rate a.1 with
      | .ok b => (b, none)
      | .error _ => (a.1, some i)
    | _, _ => a) (s1, none)

def State.rxNoFit (s : State) (rate : Nat) : Option (Nat × Nat) := (rxRealloc rate s).2.map fun i => (9, i + 32768)

/-- The streams at the first frame of a new rate: regions reallocated, buffers empty, readers rise from 0 (R328); the number of
streams held may change (R327, R337). -/
def streamsRate (s : State) : State :=
  let s1 := (rxRealloc s.tm.rate s).1
  ({ s1 with readers := [], rx := tmap (fun r => { r with fly := [], buf := [], gap := true, gapSeq := none }) s1.rx,
             tx := tmap (fun t => { t with frames := [], srcs := [] }) s1.tx, eng := { s1.eng with srcHist := [] } }).usersChanged s

/-- RESET_UNIT of a network port (R329). -/
def netPortReset (p : Nat) (s : State) : State :=
  let s0 := linkDown p s
  let s1 := forEach (s0.tx.map (·.1)) (fun i a =>
    let t := a.txs i
    match t.eff with
    | some c =>
      if c.ports = 2 ^ p then { a with tx := tdel i a.tx }
      else if bit c.ports p then
        let c1 : TxCfg := { c with ports := c.ports - 2 ^ p }
        a.setTx i (if t.stored.isSome then { t with stored := some (some c1) } else { t with cfg := some c1 })
      else a
    | none => a) s0
  let s2 := forEach (s1.rx.map (·.1)) (fun i a =>
    let r := a.rxs i
    match r.eff with
    | some c =>
      if c.ports = 2 ^ p then rxDelete i a
      else if bit c.ports p then
        let c1 := c.noPort p
        a.setRx i (if r.stored.isSome then { r with stored := some (some c1) } else { r with cfg := some c1 })
      else a
    | none => a) s1
  let n := s2.netP p
  (s2.setNet p { n.clear with hmcast := [] }).usersChanged s0

def execTxMediaPacket (dt : Nat) (p : Nat) (st : Nat) (s : State) : Host.Outcome State Fault Refusal :=
  run (.txMediaPacket dt p st) s (txPacketStep p st)

def execRxNoSignal (dt : Nat) (st : Nat) (s : State) : Host.Outcome State Fault Refusal :=
  run (.rxNoSignal dt st) s (rxNoSignalStep st)

def execRxPathTimeout (dt : Nat) (st : Nat) (p : Nat) (s : State) : Host.Outcome State Fault Refusal :=
  run (.rxPathTimeout dt st p) s (rxPathTimeoutStep st p)

def execRxStream (dt : Nat) (st : Nat) (s : State) : Host.Outcome State Fault Refusal :=
  run (.rxStream dt st) s (fun a => rxReport st a.landed)

end Sys2Proof.Machine
end

