-- ==== Sys2Proof/Machine/Time.lean ====
section
/-!
DEFINITION. Network time: the two trackers, their servos and leaders, the selection of the active tracker, slews, steps
and build-out, PTP_CFG, TT_SELECT, TIME_POLICY and TIME_READ's clock (10 R350 to R387).
-/
namespace Sys2Proof.Machine
open Sys2Proof

/-! ### Small measures -/

/-- 2^k seconds in ns. -/
def logNs (k : Int) : Nat := if 0 ≤ k then 1000000000 * 2 ^ k.toNat else 1000000000 / 2 ^ (-k).toNat

/-- A time in 2^-16 ns as whole ns, rounded. -/
def toNs (x : Int) : Int := roundAway x 65536

/-- Mean of a list, rounded. -/
def meanI (l : List Int) : Int := roundAway (l.foldl (· + ·) 0) (max 1 l.length)

/-- clockIdentity of a port (R355). -/
def State.clockId (s : State) (p : Nat) : Nat :=
  let m := (s.netP p).mac
  m / 2 ^ 24 * 2 ^ 40 + 0xFFFE * 2 ^ 24 + m % 2 ^ 24

/-- Port off, link down, or addresses missing (R355, R358). -/
def State.ttFault (s : State) (t : Nat) : Bool :=
  let p := s.ttPort t
  !s.portUp p || decide ((s.netP p).mac = 0) || (!(s.tt t).l2 && decide ((s.netP p).ipv4 = 0))

/-- What a tracker reads as local time: its estimate, or device time while it has none (log 18). -/
def State.localT (s : State) (t : Nat) : Int := (s.tt t).est.getD s.tm.devT

/-! ### States of a tracker (R358, R362) -/

/-- The frequency in force is put into the average while LOCKED. -/
def Tracker.lkPush (k : Tracker) (clk : Nat) : Tracker :=
  if k.st = .locked then { k with lkHist := lkTrim 10000000000 ((clk - k.lkAt, k.ppb) :: k.lkHist), lkAt := clk }
  else { k with lkAt := clk }

/-- The average of R362, the crystal's rate for a tracker that has never locked. -/
def Tracker.lkAvg (k : Tracker) : Int := avgOver k.lkHist

/-- A tracker enters a state; a change raises TT_STATE, and HOLDOVER and FAULTY run at the average (R358, R362). -/
def State.ttTo (s : State) (t : Nat) (st : TtSt) : State :=
  let k := s.tt t
  if k.st = st then s
  else
    let k1 := k.lkPush s.clk
    let hold := decide (st = .holdover) || decide (st = .faulty)
    let avg := k1.lkAvg
    let k2 : Tracker := { k1 with
      st := st, since := s.clk, stateFr := s.frame32, lkAt := s.clk, inLock := 0, outLock := 0, outs := [],
      avgPpb := if hold then avg else k1.avgPpb, ppb := if hold then avg else k1.ppb,
      back := if hold then k1.est.isSome else if st = .listening then k1.back else false,
      firstCause := if hold then 1 else k1.firstCause }
    (s.setTt t k2).raise 0x801 (le 1 t ++ le 1 st.code ++ le 1 k.st.code ++ le 1 0 ++ le 4 s.frame32)

/-- A tracker's faults come and go (R358). -/
def ttCheck (t : Nat) (s : State) : State :=
  let k := s.tt t
  if !s.alive || !k.en then s
  else if s.ttFault t then s.ttTo t .faulty
  else if k.st = .faulty then s.ttTo t (if k.role = 1 then .leader else .listening)
  else s

def ttChecks (s : State) : State := ttCheck 1 (ttCheck 0 s)

/-! ### Discontinuities, steps and slews (R365 to R372) -/

/-- r changes and is slewed out (R368). -/
def State.slew (s : State) (e : Int) : State :=
  let m := s.tm
  if e = 0 then s
  else { s with tm := { m with r := m.r + e, slewing := true, slewAt := if m.slewing then m.slewAt else s.clk } }

/-- A step decided at boundary d, that of the frame at hand or, `mid` within a frame, the next one: it is made K frames on
(R369). A second load that applies while a first is on its way gives the value, and both complete at its B(s) (R69, log 147). -/
def State.stepIn (s : State) (mid : Bool) (e : Int) (cause : Nat) (load job : Option Nat) : State :=
  match s.tm.step with
  | some x => { s with tm := { s.tm with
      step := some { x with e := e, cause := cause, load := load, jobs := x.jobs ++ job.toList } } }
  | none => { s with tm := { s.tm with
      gsUp := s.tm.gsUp && mid,
      step := some { e := e, cause := cause, left := s.stepK + b2n mid, load := load, jobs := job.toList } } }

/-- A discontinuity of the active tracker under the policy in force; its event names the action (R368, R377). One that comes while
a step is on its way is handled after it; one that comes when a switch away is decided is that of the inactive tracker (R372). -/
def State.jump (s : State) (t : Nat) (e : Int) (cause : Nat) : State :=
  let m := s.tm
  let ev (a : Nat) (x : State) : State :=
    x.raise 0x803 (le 1 t ++ le 1 cause ++ le 1 a ++ le 1 0 ++ le 8 (uns 64 (toNs e)))
  if m.active ≠ some t then ev 3 s
  else if m.step.isSome then { s with tm := { m with jumpHeld := m.jumpHeld ++ [(e, cause)] } }
  else if m.switchWait.isSome then ev 3 s
  else if m.policy = 2 then ev 2 { s with tm := { m with b := m.b + e } }
  else if m.policy = 1 ∧ m.stepMin * 65536000 ≤ e.natAbs then (ev 1 s).stepIn true e 0 none none
  else ev 0 (s.slew e)

/-- The difference of the estimates, T1 - T0 (R364). -/
def State.dDiff (s : State) : Option Int :=
  match s.tt0.est, s.tt1.est with
  | some a, some b => some (b - a)
  | _, _ => none

/-- The tracker that was active loses its estimate where it is off. -/
def State.goneEst (s : State) (o : Option Nat) : State :=
  match o with
  | some k => if (s.tt k).en then s else s.setTt k { s.tt k with est := none }
  | none => s

/-- The active tracker changes (R365, R370, R377): from another tracker or from aligned free running the difference goes
into r, or into b under BUILD_OUT; from unaligned device time an initial step follows. The old estimate is the one that device
time, r and b follow, without a jump that came after the switch was decided (R372). -/
def State.switchTo (s : State) (t : Nat) (cause : Nat) : State :=
  let m := s.tm
  match (s.tt t).est with
  | none => s
  | some e =>
    let old : Int := if m.active.isSome then m.devT + m.r + m.b else m.devT
    let first := decide (m.active = none) && !m.aligned
    let d := if first then 0 else e - old
    let s1 := State.goneEst { s with tm := { m with active := some t, switchWait := none, qualSince := none,
                                                    swCnt := satInc 31 m.swCnt, swFr := s.frame32 } } m.active
    let s2 := if first then s1.stepIn false 0 1 none none
              else if m.policy = 2 then { s1 with tm := { s1.tm with b := s1.tm.b + d } }
              else s1.slew d
    s2.raise 0x802 (le 1 t ++ le 1 s.ttActive ++ le 1 (if m.active = none then 4 else cause) ++ le 1 0 ++
      le 4 (uns 32 (clampI (-0x7FFFFFFF) 0x7FFFFFFF (toNs d))))

/-- The active tracker stays although a switch away from it was decided: what its estimate jumped by meanwhile goes into r, or
into b under BUILD_OUT (log 148). -/
def State.absorb (s : State) : State :=
  let m := s.tm
  match m.active with
  | none => s
  | some t =>
    match (s.tt t).est with
    | none => s
    | some e =>
      let d := e - (m.devT + m.r + m.b)
      if m.step.isSome then s else if m.policy = 2 then { s with tm := { m with b := m.b + d } } else s.slew d

/-- The switch that waits for its boundary is made, unless a step is on its way (R365, R372); a tracker that may no longer be active
is passed over. -/
def State.switchDue (s : State) : State :=
  if s.tm.step.isSome then s
  else match s.tm.switchWait with
  | none => s
  | some (t, c) =>
    let s1 : State := { s with tm := { s.tm with switchWait := none } }
    if (s.tt t).role = 1 ∨ (s.tt t).st = .leader then s1.absorb else s1.switchTo t c

/-- A switch decided: it takes effect at the next frame boundary, at once where no frames run, and not while a step is on its way
(R365, R372). -/
def State.switchAt (s : State) (t cause : Nat) : State :=
  if (s.framing && s.tm.frameRun && s.tm.begun) || s.tm.step.isSome then
    { s with tm := { s.tm with switchWait := some (t, cause) } }
  else s.switchTo t cause

/-- The estimate of tracker t moves by E at once (R357, R368). -/
def State.ttJump (s : State) (t : Nat) (e : Int) (cause : Nat) : State :=
  let k := s.tt t
  (s.setTt t { k with est := k.est.map (· + e), jumps := satInc 31 k.jumps, outs := [], first4 := none, offset := 0,
                      t1 := none, t2 := none, t3 := none }).jump t e cause

/-- No tracker is selected: device time runs on at the old one's holdover frequency (R352, R362, R370). -/
def State.selectNone (s : State) (cause : Nat) : State :=
  match s.tm.active with
  | none => s
  | some o =>
    let m := s.tm
    ({ s with tm := { m with active := none, r := 0, b := 0, slewing := false, switchWait := none, holdPpb := ((s.tt o).lkPush s.clk).lkAvg,
                             swCnt := satInc 31 m.swCnt, swFr := s.frame32 } }).raise 0x802
      (le 1 0xFF ++ le 1 o ++ le 1 cause ++ le 1 0 ++ le 4 0)

/-- M set from the boundary's device time (R310). -/
def State.setMedia (s : State) : State :=
  { s with tm := { s.tm with mediaM := (2 * s.tm.frameT * s.tm.rate + 1000000000) / 2000000000, mediaSet := true } }

/-- Time left to remove r, in ms (R386). -/
def State.slewLeft (s : State) : Nat :=
  min 0xFFFFFFFF (ceilDiv s.tm.r.natAbs (65536 * s.tm.slewMax))

/-- The result of TIME_POLICY (R386). -/
def policyData (s : State) : List Byte :=
  let m := s.tm
  le 1 m.policy ++ le 1 s.tstat ++ le 2 m.slewMax ++ le 8 (uns 64 (toNs m.r)) ++ le 8 (uns 64 (toNs m.b)) ++
  le 4 (satWord m.stepCnt) ++ le 4 m.stepMin ++ le 4 (if m.r = 0 then 0 else s.slewLeft)

/-- STEP_APPLY: the K frames have passed, or no frames run; device time steps, M is set, streams restart on the new count,
and what was held is handled (R369 to R374). -/
def stepApplyStep (s : State) : State :=
  match s.tm.step with
  | none => s
  | some x =>
    if x.left ≠ 0 ∧ s.framing then s
    else
      let m := s.tm
      let target : Int := match x.load with
        | some v => v
        | none => if x.cause = 1 then (match m.active with
            | some t => m.jumpHeld.foldl (fun a j => a - j.1) ((s.tt t).est.getD m.devT)
            | none => m.devT) else m.devT + x.e
      let e := target - m.devT
      let fresh := decide (x.cause ≠ 0)
      let ft : Nat := (m.frameT + toNs e).toNat
      let s1 : State := { s with
        readers := [], tx := tmap (fun t => { t with frames := [] }) s.tx,
        eng := { s.eng with latchT := (s.eng.latchT + e).toNat, pendB := if s.framing then ft else s.eng.pendB },
        tm := { m with devT := target.toNat % wrapT, frameT := ft, step := none, gsUp := true, stepCnt := satInc 31 m.stepCnt,
                       r := if fresh then 0 else m.r, b := if fresh then 0 else m.b, jumpHeld := [],
                       slewing := m.slewing && !fresh,
                       aligned := if x.cause = 1 then m.active.isSome || m.aligned else if x.cause = 2 then false else m.aligned } }
      let s2 : State := if s.framing then s1.setMedia else { s1 with tm := { s1.tm with mediaSet := false } }
      let s3 := s2.raiseAt 0x804 (le 8 (uns 64 (toNs e)) ++ le 4 s.frame32 ++ le 1 x.cause ++ le 3 0)
        (if s.framing then ft else s2.nowNs)
      let s4 := forEach x.jobs (fun id a => a.finishOk id (policyData s3) (if s.framing then ft else s3.nowNs)) s3
      match m.active with
      | some t => m.jumpHeld.foldl (fun a j => a.jump t j.1 j.2) s4
      | none => s4

/-- SLEW_END: r has reached 0 (R368, R377). -/
def slewEndStep (s : State) : State :=
  if s.tm.slewing ∧ s.tm.r = 0 then
    ({ s with tm := { s.tm with slewing := false } }).raise 0x805
      (le 4 (min 0xFFFFFFFF ((s.clk - s.tm.slewAt) / 1000000)) ++ le 4 s.frame32)
  else s

/-! ### Measurements (R356, R357, R368) -/

/-- An ordinary input of the servo: frequency, filtered offset, RMS and the lock count (R357, R358, R380). -/
def State.ttInput (s : State) (t : Nat) (o : Int) : State :=
  let k := (s.tt t).lkPush s.clk
  let f := Config.filterNs k.offset o
  let k1 : Tracker := { k with
    ppb := clampI (-500000) 500000 (Config.servoPpb k.ppb o k.servo), offset := f, outs := [],
    acc := (s.clk, o) :: k.acc.filter fun e => decide (s.clk ≤ e.1 + 10000000000) }
  let inside := decide (f.natAbs ≤ k.lockNs)
  let k2 : Tracker := if inside then
      { k1 with inLock := k1.inLock + 1, inLockAt := if k1.inLock = 0 then s.clk else k1.inLockAt, outLock := 0 }
    else { k1 with inLock := 0, outLock := k1.outLock + 1 }
  let s1 := s.setTt t k2
  if k2.st = .acquiring ∧ 16 ≤ k2.inLock ∧ k2.inLockAt + 4000000000 ≤ s.clk then s1.ttTo t .locked
  else if k2.st = .locked ∧ 16 ≤ k2.outLock then s1.ttTo t .acquiring
  else s1

/-- An offset measurement, leader time minus estimate, in ns (R357, R368). -/
def State.measured (s : State) (t : Nat) (o : Int) : State :=
  let k := s.tt t
  match k.est with
  | none =>
    (s.setTt t { k with est := some (s.localT t + o * 65536), offset := 0, first4 := none, t1 := none, t2 := none,
                        t3 := none }).ttTo t .acquiring
  | some _ =>
    let s0 := if k.st = .listening then s.ttTo t .acquiring else s
    let k := s0.tt t
    match k.first4 with
    | some l =>
      let l1 := l ++ [o]
      if l1.length < 4 then s0.setTt t { k with first4 := some l1 }
      else
        let m := meanI l1
        if k.jumpNs < m.natAbs then s0.ttJump t (m * 65536) k.firstCause
        else (s0.setTt t { k with first4 := none }).ttInput t m
    | none =>
      if (o - k.offset).natAbs ≤ k.jumpNs then s0.ttInput t o
      else
        let l := (k.outs ++ [o]).drop (k.outs.length - 3)
        let s1 := s0.setTt t { k with outs := l, outlier := satInc 31 k.outlier }
        let m := meanI l
        if l.length = 4 ∧ l.all (fun x => decide ((x - m).natAbs ≤ k.lockNs)) then s1.ttJump t (m * 65536) 0 else s1

/-- A pair of Sync times is complete: an offset once a delay is known (R356). -/
def State.syncDone (s : State) (t : Nat) : State :=
  let k := s.tt t
  match k.t1, k.t2, k.mpds with
  | some a, some b, d :: ds => s.measured t (toNs (a + meanI (d :: ds) - b))
  | _, _, _ => s

/-! ### PTP messages (R354, R356, R359, R360) -/

/-- A 10-byte PTP timestamp, in 2^-16 ns. -/
def ptpStamp (m : List Byte) (o : Nat) : Int := (fieldBe m o 6 * secT + fieldBe m (o + 6) 4 * 65536 : Nat)

def ptpCorr (m : List Byte) : Int := sgn 64 (fieldBe m 8 8)

/-- A timestamp's ten bytes. -/
def stamp10 (x : Int) : List Byte := be 6 ((x.toNat) / secT) ++ be 4 (x.toNat % secT / 65536)

/-- Dataset order of the BMCA (log 19). -/
def dataset (l : PtpLeader) : List Nat := [l.prio1, l.cls, l.acc, l.var, l.prio2, l.gm, l.steps, l.ident, l.port]

/-- Lexicographic order of two lists. -/
def lexLt : List Nat → List Nat → Bool
  | a :: as, b :: bs => decide (a < b) || (decide (a = b) && lexLt as bs)
  | _, _ => false

/-- The tracker's own dataset. -/
def State.ownSet (s : State) (t : Nat) : PtpLeader :=
  let k := s.tt t
  let id := s.clockId (s.ttPort t)
  { ident := id, port := t + 1, gm := id, prio1 := k.prio1, cls := k.cclass, acc := k.cacc, var := k.cvar, prio2 := k.prio2,
    steps := 0, utc := k.utcOfs, logAnn := k.logAnn, annAt := s.clk }

/-- The best of a list. -/
def bestOf (l : List PtpLeader) : Option PtpLeader :=
  l.foldl (fun a x => match a with
    | none => some x
    | some y => if lexLt (dataset x) (dataset y) then some x else some y) none

/-- The qualified leaders: heard twice, the last time within ANN_TO of their intervals (R356, log 19). -/
def Tracker.qualified (k : Tracker) (clk : Nat) : List PtpLeader :=
  k.cands.filter fun l => decide (2 ≤ l.n) && decide (clk < l.annAt + k.annTo * logNs l.logAnn)

/-- A leader is followed (R356, R358, R368): out of HOLDOVER and FAULTY the tracker acquires at once, out of LISTENING with its
first measurement. -/
def State.follow (s : State) (t : Nat) (l : PtpLeader) : State :=
  let k := s.tt t
  let same := match k.lead with
    | some o => decide (o.ident = l.ident) && decide (o.port = l.port)
    | none => false
  let active := decide (k.st = .acquiring) || decide (k.st = .locked)
  let keep : PtpLeader := match k.lead with
    | some o => if same then { l with twoStep := o.twoStep, logSync := o.logSync, syncAt := o.syncAt } else { l with syncAt := s.clk }
    | none => { l with syncAt := s.clk }
  if same && (active || (decide (k.st = .listening) && !k.back)) then s.setTt t { k with lead := some keep }
  else
    let k1 : Tracker := { k with
      lead := some { keep with syncAt := s.clk }, mpds := [], outs := [], t1 := none, t2 := none, t3 := none, dreqLog := none,
      first4 := if k.est.isSome then some [] else none, firstCause := if same then 1 else 2, inLock := 0, outLock := 0 }
    let s1 := s.setTt t k1
    if k.est.isSome ∧ k.back then s1.ttTo t .acquiring
    else if k.st = .leader then s1.ttTo t .listening else s1

/-- The best leader is chosen anew, the own dataset taking part in the auto role (R356, R358). -/
def State.bmca (s : State) (t : Nat) : State :=
  let k := s.tt t
  match bestOf (k.qualified s.clk) with
  | none => s
  | some l =>
    if k.role = 2 ∧ lexLt (dataset (s.ownSet t)) (dataset l) then s.ttTo t .leader else s.follow t l

/-- An Announce received (R356, R380). -/
def ptpAnnounce (t : Nat) (m : List Byte) (s : State) : State :=
  let k := s.tt t
  let l : PtpLeader :=
    { ident := fieldBe m 20 8, port := fieldBe m 28 2, gm := fieldBe m 53 8, prio1 := byteAt m 47, cls := byteAt m 48,
      acc := byteAt m 49, var := fieldBe m 50 2, prio2 := byteAt m 52, steps := fieldBe m 61 2 + 1, utc := sgn 16 (fieldBe m 44 2),
      logAnn := sgn 8 (byteAt m 33), annAt := s.clk }
  let mine := decide (l.ident = s.clockId (s.ttPort t))
  let k0 : Tracker := { k with annRx := satInc 31 k.annRx }
  if k.role = 1 || mine then s.setTt t k0
  else
    let old := k.cands.find? fun x => decide (x.ident = l.ident) && decide (x.port = l.port)
    let n := match old with
      | some o => if s.clk < o.annAt + 4 * logNs o.logAnn then o.n + 1 else 1
      | none => 1
    let rest := k.cands.filter fun x => !(decide (x.ident = l.ident) && decide (x.port = l.port)) &&
      decide (s.clk < x.annAt + 4 * logNs x.logAnn)
    (s.setTt t { k0 with cands := { l with n := n } :: rest }).bmca t

/-- The message comes from the tracker's leader. -/
def Tracker.fromLead (k : Tracker) (m : List Byte) : Bool :=
  match k.lead with
  | some l => decide (l.ident = fieldBe m 20 8) && decide (l.port = fieldBe m 28 2)
  | none => false

/-- A Sync received: one-step gives both times, two-step waits for its Follow_Up (R354, R356). -/
def ptpSync (t : Nat) (m : List Byte) (s : State) : State :=
  let k := s.tt t
  if !k.fromLead m || decide (k.st = .leader) then s
  else
    let two := bit (byteAt m 6) 1
    let t2 := s.localT t - k.phyRx * 65536
    let lead := k.lead.map fun l => { l with twoStep := two, logSync := sgn 8 (byteAt m 33), syncAt := s.clk }
    let s1 := s.setTt t { k with
      lead := lead, syncRx := satInc 31 k.syncRx, syncSeq := fieldBe m 30 2, t2 := some (t2 - (if two then ptpCorr m else 0)),
      t1 := if two then none else some (ptpStamp m 34 + ptpCorr m) }
    if two then s1 else s1.syncDone t

def ptpFollowUp (t : Nat) (m : List Byte) (s : State) : State :=
  let k := s.tt t
  if k.fromLead m ∧ k.t1 = none ∧ k.t2.isSome ∧ k.syncSeq = fieldBe m 30 2 then
    (s.setTt t { k with t1 := some (ptpStamp m 34 + ptpCorr m) }).syncDone t
  else s

/-- A Delay_Resp to this tracker's request: one delay measurement (R356). -/
def ptpDelayResp (t : Nat) (m : List Byte) (s : State) : State :=
  let k := s.tt t
  if k.fromLead m ∧ fieldBe m 44 8 = s.clockId (s.ttPort t) ∧ fieldBe m 52 2 = t + 1 ∧ fieldBe m 30 2 = k.dreqSeq then
    match k.t1, k.t2, k.t3 with
    | some a, some b, some c =>
      let d := ((b - a) + (ptpStamp m 34 - ptpCorr m - c)) / 2
      let first := k.mpds.isEmpty
      let s1 := s.setTt t { k with dreqLog := some (sgn 8 (byteAt m 33)), t3 := none, mpds := d :: k.mpds.take 15 }
      if first then s1.syncDone t else s1
    | _, _, _ => s.setTt t { k with dreqLog := some (sgn 8 (byteAt m 33)), t3 := none }
  else s

/-- A PTP message of the tracker (R354): type, flags, correction, sequence, control, interval, body. -/
def ptpMsg (s : State) (t ty flagsW : Nat) (corr : Int) (seq ctl : Nat) (logI : Int) (body : List Byte) : List Byte :=
  let k := s.tt t
  be 1 ty ++ be 1 2 ++ be 2 (34 + body.length) ++ be 1 k.domain ++ be 1 0 ++ be 2 flagsW ++ be 8 (uns 64 corr) ++ be 4 0 ++
  be 8 (s.clockId (s.ttPort t)) ++ be 2 (t + 1) ++ be 2 seq ++ be 1 ctl ++ be 1 (uns 8 logI) ++ body

/-- It leaves by the tracker's transport (R354, R359). -/
def State.ptpSend (s : State) (t : Nat) (event : Bool) (msg : List Byte) : State :=
  let k := s.tt t
  let p := s.ttPort t
  if k.l2 then s.fwEth p 0x011B19000000 0x88F7 msg
  else
    let port := if event then 319 else 320
    let dst := 0xE0000181
    s.fwIp p (mcastMac dst) dst 17 k.ttl k.dscp [] (udpBuild (s.netP p).ipv4 dst port port false msg)

/-- A Delay_Req for a leader: answered, or dropped for want of places or rate (R359, R360). -/
def ptpDelayReq (t : Nat) (m : List Byte) (s : State) : State :=
  let k := s.tt t
  if k.st ≠ .leader then s
  else
    let id := fieldBe m 20 8
    let port := fieldBe m 28 2
    let (at0, cnt) := if s.clk < k.reqAt + 1000000000 then (k.reqAt, k.reqCnt) else (s.clk, 0)
    let known := k.followers.any fun f => decide (f.ident = id) && decide (f.port = port)
    if (!known && decide (256 ≤ k.followers.length)) || decide (4096 ≤ cnt) then
      (s.setTt t { k with reqAt := at0, reqCnt := cnt, followOvf := satInc 31 k.followOvf }).raiseLim 0x806 t 10000000000
        (le 1 t ++ le 3 0 ++ le 4 s.frame32)
    else
      let f : Follower := { ident := id, port := port, last := s.clk }
      let fs := if known then k.followers.map (fun x => if x.ident = id ∧ x.port = port then f else x) else k.followers ++ [f]
      let s1 := s.setTt t { k with reqAt := at0, reqCnt := cnt + 1, followers := fs, dreq := satInc 31 k.dreq }
      let rx : Int := s.tm.devT - k.phyRx * 65536
      s1.ptpSend t false (ptpMsg s1 t 9 0 (ptpCorr m - rx % 65536) (fieldBe m 30 2) 3 k.logDreq
        (stamp10 rx ++ be 8 id ++ be 2 port))

/-- A PTP message on port p by a transport: the tracker that consumes it, if any (R309 row 4, R354). -/
def State.ptpOwner (s : State) (p : Nat) (l2 : Bool) (m : List Byte) : Option Nat :=
  let ty := byteAt m 0 % 16
  if m.length < 34 ∨ byteAt m 1 % 16 ≠ 2 ∨ !([0, 1, 8, 9, 11].contains ty) ∨ m.length < (if ty = 11 then 64 else if ty = 9 then 54 else 44)
  then none
  else [0, 1].find? fun t =>
    let k := s.tt t
    k.en && (k.l2 == l2) && decide (s.ttPort t = p) && decide (k.domain = byteAt m 4)

/-- The message handled by tracker t. -/
def ptpRx (t : Nat) (m : List Byte) (s : State) : State :=
  if (s.tt t).st = .faulty then s
  else
    let ty := byteAt m 0 % 16
    if ty = 0 then ptpSync t m s
    else if ty = 1 then ptpDelayReq t m s
    else if ty = 8 then ptpFollowUp t m s
    else if ty = 9 then ptpDelayResp t m s
    else ptpAnnounce t m s

/-- PTP_DELAY_REQ_SEND: at the interval the leader states, or 2^LOG_DREQ s (R356). -/
def delayReqStep (t : Nat) (s : State) : State :=
  let k := s.tt t
  let due := decide (k.dreqAt + logNs (k.dreqLog.getD k.logDreq) ≤ s.clk)
  let on := decide (k.st = .listening) || decide (k.st = .acquiring) || decide (k.st = .locked)
  if !(k.en && on && k.lead.isSome && due && s.portUp (s.ttPort t)) then s
  else
    let seq := (k.dreqSeq + 1) % 65536
    let s1 := s.setTt t { k with dreqSeq := seq, dreqAt := s.clk, dreq := satInc 31 k.dreq,
                                 t3 := some (s.localT t + k.phyTx * 65536) }
    s1.ptpSend t true (ptpMsg s1 t 1 0 0 seq 1 127 (be 10 0))

/-- LEADER_ANNOUNCE_SYNC: Announce or one-step Sync at its interval (R359). -/
def leaderSendStep (t : Nat) (sync : Bool) (s : State) : State :=
  let k := s.tt t
  if k.st ≠ .leader then s
  else if sync then
    if s.clk < k.syncSentAt + logNs k.logSync then s
    else
      let tx : Int := s.tm.devT + k.phyTx * 65536
      let s1 := s.setTt t { k with sSeq := (k.sSeq + 1) % 65536, syncSentAt := s.clk }
      s1.ptpSend t true (ptpMsg s1 t 0 0 (tx % 65536) k.sSeq 0 k.logSync (stamp10 tx))
  else if s.clk < k.annSentAt + logNs k.logAnn then s
  else
    let o := s.ownSet t
    let s1 := s.setTt t { k with annSeq := (k.annSeq + 1) % 65536, annSentAt := s.clk }
    s1.ptpSend t false (ptpMsg s1 t 11 0x000C 0 k.annSeq 5 k.logAnn
      (stamp10 s.tm.devT ++ be 2 (uns 16 k.utcOfs) ++ be 1 0 ++ be 1 k.prio1 ++ be 1 k.cclass ++ be 1 k.cacc ++ be 2 k.cvar ++
       be 1 k.prio2 ++ be 8 o.gm ++ be 2 0 ++ be 1 0xA0))

/-- HOLDOVER for want of the leader's messages; another leader that still qualifies is followed from there (R358). -/
def State.leadLost (s : State) (t : Nat) : State :=
  let s1 := s.ttTo t .holdover
  match bestOf ((s.tt t).qualified s.clk), (s.tt t).lead with
  | some l, some o => if l.ident = o.ident ∧ l.port = o.port then s1 else s1.bmca t
  | _, _ => s1

/-- ANNOUNCE_TIMEOUT (R358); an auto tracker that hears no leader any more has the best dataset itself (log 19). -/
def announceTimeoutStep (t : Nat) (s : State) : State :=
  let k := s.tt t
  if k.st = .acquiring ∨ k.st = .locked then
    match k.lead with
    | some l =>
      if l.annAt + k.annTo * logNs l.logAnn ≤ s.clk ∨ l.syncAt + 16 * logNs l.logSync ≤ s.clk then s.leadLost t else s
    | none => s.leadLost t
  else if k.st = .holdover ∧ k.role = 2 ∧ (k.qualified s.clk).isEmpty then s.ttTo t .leader
  else if k.st = .listening ∧ k.role = 2 ∧ (k.qualified s.clk).isEmpty ∧ k.since + k.annTo * logNs k.logAnn ≤ s.clk then
    s.ttTo t .leader
  else s

/-- FOLLOWER_FORGET (R360). -/
def followerForgetStep (t : Nat) (s : State) : State :=
  let k := s.tt t
  s.setTt t { k with followers := k.followers.filter fun f => decide (s.clk < f.last + 60000000000) }

/-! ### Selection (R363 to R367) -/

/-- RMS of accepted offsets over the last 10 s (R380). -/
def Tracker.rms (k : Tracker) (clk : Nat) : Nat :=
  let l := k.acc.filter fun e => decide (clk ≤ e.1 + 10000000000)
  if l.isEmpty then 0 else isqrt (l.foldl (fun a e => a + e.2.natAbs * e.2.natAbs) 0 / l.length) 40 0

/-- RMS above DEGRADE_NS (R366, R382). -/
def State.noisy (s : State) (t : Nat) : Bool := decide (5 * (s.tt t).lockNs < (s.tt t).rms s.clk)

/-- Class of a tracker's leader; 256 without one. -/
def Tracker.leadCls (k : Tracker) : Nat :=
  match k.lead with
  | some l => l.cls
  | none => 256

/-- A tracker may not be active: role or state leader (R363). -/
def Tracker.leads (k : Tracker) : Bool := decide (k.role = 1) || decide (k.st = .leader)

/-- Loss (R366). -/
def Tracker.lost (k : Tracker) : Bool :=
  decide (k.st = .disabled) || decide (k.st = .listening) || decide (k.st = .holdover) || decide (k.st = .faulty) ||
  decide (k.st = .leader)

/-- Degradation of tracker a against tracker o (R366). -/
def State.degraded (s : State) (a o : Nat) : Bool :=
  decide ((s.tt o).leadCls < (s.tt a).leadCls) || (s.noisy a && !s.noisy o)

/-- |D| lies within SW_LIMIT (R366). -/
def State.dSmall (s : State) : Bool :=
  match s.tm.dMeas with
  | some d => decide (d.natAbs ≤ s.tm.swLimit * 65536000)
  | none => false

/-- A tracker that qualifies for a switch from the active one `a`, if any (R366). -/
def State.qualifies (s : State) (t : Nat) (a : Option Nat) : Bool :=
  let k := s.tt t
  decide (k.st = .locked) && !k.leads && k.est.isSome && !s.noisy t && (match a with
    | some x => s.dSmall && ((s.tt x).lost || !s.degraded t x)
    | none => true)

/-- D of R364: the last 10 ms measurement while both trackers have estimates; before there is one, their present difference
(log 149). -/
def State.dNow (s : State) : Option Int := s.dDiff.map fun d => s.tm.dMeas.getD d

/-- What every 10 ms evaluation measures: the trackers' faults, the PLLs' averages and D (R358, R364, R396); a switch that no boundary
can bring is made. -/
def evalMeasure (s0 : State) : State :=
  let s := (ttChecks s0).pllHist
  let s1 : State := { s with tm := { s.tm with dMeas := s.dDiff } }
  if s1.framing && s1.tm.frameRun && s1.tm.begun then s1 else s1.switchDue

/-- TRACKER_EVAL: the 10 ms evaluation (R363 to R367, R372, R396). In MANUAL the tracker PREF names is made active whenever it may be. -/
def trackerEvalStep (s0 : State) : State :=
  let s := evalMeasure s0
  let m := s.tm
  if !s.alive || m.switchWait.isSome then s
  else if m.mode = 1 then
    if m.active ≠ some m.pref ∧ (s.tt m.pref).est.isSome ∧ !(s.tt m.pref).leads then s.switchAt m.pref 0
    else match m.active with
      | some a => if (s.tt a).leads then s.selectNone 1 else s
      | none => s
  else if m.mode = 2 then
    match m.active with
    | none =>
      let o := 1 - m.pref
      if s.qualifies m.pref none then s.switchAt m.pref 4 else if s.qualifies o none then s.switchAt o 4 else s
    | some a =>
      let o := 1 - a
      let ok := s.qualifies o (some a)
      let since := if o = m.pref ∧ ok then some (m.qualSince.getD s.clk) else none
      let s1 : State := { s with tm := { m with qualSince := since } }
      if (s.tt a).lost && ok then s1.switchAt o 1
      else if s.degraded a o && ok then s1.switchAt o 2
      else if (match since with
          | some c => decide (0 < m.revertS) && decide (c + m.revertS * 1000000000 ≤ s.clk)
          | none => false) then s1.switchAt o 3
      else if (s.tt a).leads then s1.selectNone 1
      else s1
  else s

/-! ### PTP_CFG (R378 to R381) -/

def ptpCfgLen (p : Packet) : Option Err := lenIs p 52

/-- Ranges of a profile: LOG_ANN, LOG_SYNC, LOG_DREQ; and its reset values with DOMAIN (R353). -/
def profRange (f : Nat) : List (Int × Int) :=
  if f = 0 then [(0, 4), (-1, 1), (0, 5)] else if f = 1 then [(0, 4), (-4, 1), (-4, 5)] else [(-3, 1), (-7, -1), (-7, -1)]
def profReset (f : Nat) : List Int := if f = 0 then [1, 0, 0] else if f = 1 then [1, -3, -3] else [-2, -3, -3]

def ptpCfgChk (p : Packet) (s : State) : Option Err :=
  let t := p.u8 16
  let w := p.u8 17
  let k := s.tt t
  let prof := if bit w 0 then p.u8 21 else k.profile
  let rg (i : Nat) : Int × Int := (profRange prof).getD i (0, 0)
  let port := if bit w 0 then p.u8 19 else s.ttPort t
  let en := if bit w 0 then bit (p.u8 18) 0 else k.en
  let l2 := if bit w 0 then bit (p.u8 18) 1 else k.l2
  let dom := if bit w 0 then p.u8 20 else k.domain
  let o := s.tt (1 - t)
  let lock := if bit w 3 then p.u32 40 else k.lockNs
  let jump := if bit w 3 then p.u32 36 else k.jumpNs
  firstErr [absentIf (bit w 0 && decide (p.u8 19 = 1) && s.isSmall) 19 1, need (decide (t ≤ 1)) 16 t, p.clr 17 1 0xE0,
    p.clr 18 1 0xFC, p.withinIf (bit w 0) 19 1 0 1, p.withinIf (bit w 0) 20 1 0 127, p.withinIf (bit w 0) 21 1 0 2,
    p.withinIf (bit w 0) 22 1 0 2,
    p.swithinIf (bit w 1) 23 1 (rg 0).1 (rg 0).2, p.swithinIf (bit w 1) 24 1 (rg 1).1 (rg 1).2,
    p.swithinIf (bit w 1) 25 1 (rg 2).1 (rg 2).2, p.withinIf (bit w 1) 26 1 2 10,
    p.withinIf (bit w 2) 29 1 6 255,
    failIf (bit w 2 && !((decide (0x17 ≤ p.u8 30) && decide (p.u8 30 ≤ 0x31)) || decide (p.u8 30 = 0xFE))) (badParam 30 (p.u8 30)),
    p.withinIf (bit w 3) 31 1 0 3, p.clr 34 1 0xC0, p.withinIf (bit w 3) 35 1 1 255,
    p.withinIf (bit w 3) 36 4 1000 1000000, p.withinIf (bit w 3) 40 4 20 100000,
    failIf (!decide (lock < jump)) (badParam 40 lock),
    p.withinIf (bit w 3) 44 2 0 10000, p.withinIf (bit w 3) 46 2 0 10000, p.zero 50 2,
    stateIf (bit w 0 && decide (p.u8 22 ≠ 0) && decide (s.tm.active = some t)) t,
    errIf (en && o.en && decide (port = s.ttPort (1 - t)) && decide (dom = o.domain) && (l2 == o.l2)) stBusy (1 - t)]

/-- The 64 bytes of a tracker (R380). -/
def ptpRec (s : State) (t : Nat) : List Byte :=
  let k := s.tt t
  let lead := k.st = .leader
  let l := k.lead
  let n (f : PtpLeader → Nat) : Nat := (l.map f).getD 0
  let mpd := if k.mpds.isEmpty then 0 else toNs (meanI k.mpds)
  le 1 k.st.code ++ le 1 (flags [decide (s.tm.active = some t), (l.map (·.twoStep)).getD false]) ++
  le 2 (if lead then 0 else n (·.steps)) ++ be 8 (if lead then s.clockId (s.ttPort t) else n (·.ident)) ++
  be 2 (if lead then t + 1 else n (·.port)) ++ le 1 (if lead then k.cclass else n (·.cls)) ++
  le 1 (if lead then k.cacc else n (·.acc)) ++ le 4 (uns 32 (clampI (-2147483648) 2147483647 k.offset)) ++
  le 4 (uns 32 (clampI (-2147483648) 2147483647 mpd)) ++ le 4 (uns 32 k.ppb) ++ le 4 (min 0xFFFFFFFF (k.rms s.clk)) ++
  le 2 (uns 16 (if lead then k.utcOfs else (l.map (·.utc)).getD 0)) ++ le 2 k.followers.length ++
  [k.syncRx, k.dreq, k.outlier, k.jumps, k.followOvf, k.annRx].flatMap (fun c => le 4 (satWord c)) ++ le 4 k.stateFr

/-- A restart (R379): LISTENING, or LEADER; the estimate is kept in holdover. A disabled tracker keeps it only while active. -/
def ttRestart (t : Nat) (s : State) : State :=
  let k := s.tt t
  let k1 := k.lkPush s.clk
  let avg := k1.lkAvg
  let k2 : Tracker := { k1 with
    ppb := avg, avgPpb := avg, lead := none, cands := [], mpds := [], outs := [], first4 := none, offset := 0, acc := [], back := false,
    t1 := none, t2 := none, t3 := none, dreqLog := none, inLock := 0, outLock := 0, followers := [],
    est := if k.en || decide (s.tm.active = some t) then k.est else none }
  ttCheck t ((s.setTt t k2).ttTo t (if !k.en then .disabled else if k.role = 1 then .leader else .listening))

def ptpCfgApply (id : Nat) (p : Packet) (tD : Nat) (s : State) : State :=
  let t := p.u8 16
  let w := p.u8 17
  let k := s.tt t
  let fresh := bit w 0 && decide (p.u8 21 ≠ k.profile)
  let rs := profReset (p.u8 21)
  let k1 : Tracker := if bit w 0 then { k with
      en := bit (p.u8 18) 0, l2 := bit (p.u8 18) 1, port := some (p.u8 19), domain := p.u8 20, profile := p.u8 21,
      role := p.u8 22 } else k
  let k2 : Tracker := if fresh then { k1 with
      logAnn := rs.getD 0 0, logSync := rs.getD 1 0, logDreq := rs.getD 2 0, annTo := 3 } else k1
  let k3 : Tracker := if bit w 1 then { k2 with
      logAnn := p.s8 23, logSync := p.s8 24, logDreq := p.s8 25, annTo := p.u8 26 } else k2
  let k4 : Tracker := if bit w 2 then { k3 with
      prio1 := p.u8 27, prio2 := p.u8 28, cclass := p.u8 29, cacc := p.u8 30, cvar := p.u16 32, utcOfs := p.s16 48 } else k3
  let k5 : Tracker := if bit w 3 then { k4 with
      servo := p.u8 31, dscp := p.u8 34, ttl := p.u8 35, jumpNs := p.u32 36, lockNs := p.u32 40, phyTx := p.u16 44,
      phyRx := p.u16 46 } else k4
  let s1 := s.setTt t k5
  let s2 := if bit w 0 then ttRestart t s1 else s1
  let s3 := s2.usersChanged s
  let data := ptpRec s3 t
  let s4 := if bit w 4 then
      let z := s3.tt t
      s3.setTt t { z with syncRx := (0, false), dreq := (0, false), outlier := (0, false), jumps := (0, false),
                          followOvf := (0, false), annRx := (0, false) }
    else s3
  s4.finishOk id data tD

/-! ### TT_SELECT (R382 to R384) -/

def ttSelectLen (p : Packet) : Option Err := lenIs p 28

def ttSelectChk (p : Packet) (s : State) : Option Err :=
  let w := p.u8 16
  firstErr [p.clr 16 1 0xF8, p.withinIf (bit w 0) 17 1 0 2, p.withinIf (bit w 0) 18 1 0 1, p.zero 19 1,
    p.withinIf (bit w 1) 20 2 0 3600, p.zero 22 2, p.withinIf (bit w 1) 24 4 1 1000000,
    stateIf (bit w 0 && decide (p.u8 17 = 1) && (s.tt (p.u8 18)).leads) (p.u8 18)]

/-- The 24 bytes of TT_SELECT (R383). -/
def selectData (s : State) : List Byte :=
  let m := s.tm
  le 1 s.ttActive ++ le 1 s.tstat ++ le 1 s.tt0.st.code ++ le 1 s.tt1.st.code ++
  le 8 (match s.dNow with
    | some d => uns 64 (toNs d)
    | none => 0x7FFFFFFFFFFFFFFF) ++ le 4 (satWord m.swCnt) ++ le 4 m.swFr ++ le 4 0

def ttSelectApply (id : Nat) (p : Packet) (t : Nat) (s : State) : State :=
  let w := p.u8 16
  let m := s.tm
  let m1 : Tm := if bit w 1 then { m with revertS := p.u16 20, swLimit := p.u32 24 } else m
  let m2 : Tm := if bit w 0 then { m1 with mode := p.u8 17, pref := p.u8 18, switchWait := none, qualSince := none } else m1
  let s1 : State := { s with tm := m2 }
  let s2 :=
    if !bit w 0 then s1
    else if p.u8 17 = 0 then s1.selectNone 0
    else if p.u8 17 = 1 ∧ m.active ≠ some (p.u8 18) ∧ (s1.tt (p.u8 18)).est.isSome then
      if m.step.isNone then s1.switchTo (p.u8 18) 0 else { s1 with tm := { s1.tm with switchWait := some (p.u8 18, 0) } }
    else if m.switchWait.isSome then s1.absorb
    else s1
  let data := selectData s2
  (if bit w 2 then { s2 with tm := { s2.tm with swCnt := (0, false) } } else s2).finishOk id data t

/-! ### TIME_POLICY (R385 to R387) -/

def timePolicyLen (p : Packet) : Option Err := lenIs p 36
def timePolicyRight (p : Packet) (s : State) (port : Nat) : Option Err := if bit (p.u8 17) 1 then s.needRight port else none

def timePolicyChk (p : Packet) (s : State) : Option Err :=
  let ld := bit (p.u8 17) 1
  firstErr [need (decide (p.u8 16 ≤ 2) || decide (p.u8 16 = 0xFF)) 16 (p.u8 16), p.clr 17 1 0xFC,
    need (decide (p.u16 18 ≤ 1000)) 18 (p.u16 18),
    need (decide (p.u32 20 = 0) || (decide (10 ≤ p.u32 20) && decide (p.u32 20 ≤ 10000000))) 20 (p.u32 20), p.zero 30 2,
    p.withinIf ld 32 4 0 999999999, stateIf (ld && decide (s.tm.mode ≠ 0)) 0,
    errIf (ld && s.tm.step.isSome) stBusy 0]

def timePolicyApply (id : Nat) (p : Packet) (t : Nat) (s : State) : State :=
  let m := s.tm
  let m1 : Tm := { m with
    policy := if p.u8 16 = 0xFF then m.policy else p.u8 16, slewMax := if p.u16 18 = 0 then m.slewMax else p.u16 18,
    stepMin := if p.u32 20 = 0 then m.stepMin else p.u32 20 }
  let s1 : State := { s with tm := m1 }
  let s2 := if bit (p.u8 17) 0 then ({ s1 with tm := { m1 with b := 0 } }).slew m1.b else s1
  if bit (p.u8 17) 1 then
    s2.stepIn false 0 2 (some (p.u 24 6 * secT + p.u32 32 * 65536)) (some id)
  else s2.finishOk id (policyData s2) t

def execPtpDelayReqSend (dt : Nat) (t : Nat) (s : State) : Host.Outcome State Fault Refusal :=
  run (.ptpDelayReqSend dt t) s (delayReqStep t)

def execLeaderAnnounceSync (dt : Nat) (t : Nat) (sync : Bool) (s : State) : Host.Outcome State Fault Refusal :=
  run (.leaderAnnounceSync dt t sync) s (leaderSendStep t sync)

def execAnnounceTimeout (dt : Nat) (t : Nat) (s : State) : Host.Outcome State Fault Refusal :=
  run (.announceTimeout dt t) s (announceTimeoutStep t)

def execFollowerForget (dt : Nat) (t : Nat) (s : State) : Host.Outcome State Fault Refusal :=
  run (.followerForget dt t) s (followerForgetStep t)

def execTrackerEval (dt : Nat) (s : State) : Host.Outcome State Fault Refusal := run (.trackerEval dt) s trackerEvalStep

def execSlewEnd (dt : Nat) (s : State) : Host.Outcome State Fault Refusal := run (.slewEnd dt) s slewEndStep

def execLinkChange (dt : Nat) (p : Nat) (speed : Nat) (an : Bool) (rf : Bool) (s : State) : Host.Outcome State Fault Refusal :=
  run (.linkChange dt p speed an rf) s fun x => ttChecks (linkChangeStep p speed an rf x)

end Sys2Proof.Machine
end

