-- ==== Sys2Proof/Machine/Fjarord.lean ====
section
/-!
DEFINITION. Packets joining queues (02 R58, R59), Fjarord datagrams in and out, and PORT_CFG (15 R537 to R549).
-/
namespace Sys2Proof.Machine
open Sys2Proof

/-- A packet joins its queue, or is discarded with OVF set (R58, R59). -/
def State.enqueue (s : State) (p : Packet) : State :=
  let qu := s.queue p.queue
  if qu.cls = .event ∨ 64 ≤ s.level p.queue then s.setQueue p.queue { qu with ovf := true }
  else
    { s.setQueue p.queue { qu with unstarted := qu.unstarted ++ [{ p with arrival := s.arr }] } with arr := s.arr + 1 }

/-- A packet read from bytes as they arrive; bytes beyond their end read 0 (R43). -/
def packetOf (q : Nat) (bs : List Byte) : Packet :=
  { opc := fieldLe bs 0 2, queue := q, tag := fieldLe bs 2 2, len := fieldLe bs 4 2, flags := byteAt bs 6,
    rsvd := byteAt bs 7, whenNs := fieldLe bs 8 8, params := bs.drop 16 }

/-- Check 1 of R46. -/
def lenBad (n : Nat) : Bool := decide (n % 4 ≠ 0) || decide (n < 16) || decide (1024 < n)

/-! ### Keys and nodes -/

def State.nodeId (s : State) : Nat := s.pc.nodeId.getD (s.part.uid % 65536)
def State.fjKey (s : State) (k : Nat) : Option (List Byte) :=
  if k = 0 then s.pc.key0 else if k = 1 then s.pc.key1 else none

/-- KCV of a slot, 0 when empty (R543). -/
def kcv (k : Option (List Byte)) : List Byte :=
  match k with
  | none => le 4 0
  | some b => (hmac b (List.replicate 32 0#8)).take 4

/-! ### Sending (R541, R544) -/

/-- A datagram with a record sent from a port, where its link is up and its key slot loaded; none otherwise. -/
def State.fjSend (s : State) (p mac ip udp ffl node key q : Nat) (r : Rec) : Option State :=
  match s.fjKey key with
  | none => none
  | some k =>
    if !s.portUp p then none
    else
      let body := recBytes r
      let seq := if s.pc.lastSeq < s.nowNs then s.nowNs else (s.pc.lastSeq + 1) % 2 ^ 64
      let m := be 2 0x464A ++ be 1 1 ++ be 1 ffl ++ be 2 node ++ be 2 s.nodeId ++ be 1 key ++ be 1 q ++
        be 2 body.length ++ be 8 seq ++ body
      let n := s.netP p
      let s1 : State := { s with pc := { s.pc with lastSeq := seq } }
      some (s1.fwIp p mac ip 17 (Config.frameField 0 % 256) n.dscp []
        (udpBuild n.ipv4 ip 49512 udp false (m ++ (hmac k m).take 16)))

/-- The reply a record of a Fjarord queue is sent as (R541). -/
def State.fjReply (s : State) (r : Rec) : Option State :=
  match r.origin with
  | none => none
  | some o => s.fjSend o.eth o.mac o.ip o.udp 2 o.node o.key r.queue r

/-- The port events leave by (R544). -/
def State.fjEventPort (s : State) : Option Nat :=
  [0, 1].find? fun p => s.portUp p && decide ((s.netP p).ipv4 ≠ 0)

/-- MAC that datagrams to an IPv4 address are sent to: by the group, broadcast, else open (log 20). -/
def ipMac (n ip : Nat) : Nat :=
  if ip = 0xFFFFFFFF then 0xFFFFFFFFFFFF else if ipMcast ip then mcastMac ip else Config.freeNat n % 2 ^ 48

/-- FJARORD_EVENT_SEND: the oldest waiting event of the Fjarord event queue is sent where R544 lets it. -/
def fjEventStep (s : State) : State :=
  match s.eventQueue 2, s.fjEventPort with
  | some q, some p =>
    match (s.queue q).waitRecs with
    | [] => s
    | r :: rest =>
      if s.pc.evtIp = 0 then s
      else match s.fjSend p (ipMac s.freeCtr s.pc.evtIp) s.pc.evtIp s.pc.evtUdp 4 0xFFFF (b2n (bit s.pc.fjFl 2)) q r with
        | none => s
        | some s1 => (s1.setQueue q { s1.queue q with waitRecs := rest }).bump
  | _, _ => s

/-! ### Receiving (R538 to R540, R542) -/

def PortCfg.bad (c : PortCfg) : PortCfg := { c with fjBad := satInc 31 c.fjBad }

/-- The least recently used of a list of senders. -/
def oldest : List FjSender → Option FjSender
  | [] => none
  | a :: r => match oldest r with
    | none => some a
    | some b => if a.used ≤ b.used then some a else some b

/-- The replay test of R540: the table after a datagram that passes, none for a replay. -/
def PortCfg.replay (c : PortCfg) (node seq : Nat) : Option PortCfg :=
  let u := c.useCtr + 1
  match c.senders.find? fun x => decide (x.node = node) with
  | some x =>
    let put (y : FjSender) : PortCfg :=
      { c with useCtr := u, senders := c.senders.map fun z => if z.node = node then y else z }
    if x.high < seq then
      some (put { node := node, high := seq, window := (x.window * 2 ^ min 64 (seq - x.high) + 1) % 2 ^ 64, used := u })
    else if x.high < seq + 64 ∧ !bit x.window (x.high - seq) then
      some (put { x with window := x.window ||| 2 ^ (x.high - seq), used := u })
    else none
  | none =>
    if seq ≤ c.floor then none
    else
      let new : FjSender := { node := node, high := seq, window := 1, used := u }
      if c.senders.length < 64 then some { c with useCtr := u, senders := c.senders ++ [new] }
      else match oldest c.senders with
        | none => some { c with useCtr := u, senders := [new] }
        | some o => some { c with useCtr := u, floor := max c.floor o.high,
                                  senders := (c.senders.filter fun z => !decide (z.node = o.node)) ++ [new] }

/-- Check 1 of R538: length, MAGIC, VER, rsvd bits, and a BLEN within R537. -/
def fjFormOk (d : List Byte) : Bool :=
  decide (20 ≤ d.length) && decide (fieldBe d 0 2 = 0x464A) && decide (byteAt d 2 = 1) && decide (byteAt d 3 < 8) &&
  decide (16 ≤ fieldBe d 10 2) && decide (fieldBe d 10 2 ≤ 1024) && decide (fieldBe d 10 2 % 4 = 0) &&
  decide (d.length = 36 + fieldBe d 10 2)

/-- Checks 4 to 6 of an authenticated datagram, and its body handed to its queue (R538 to R540). -/
def fjAccept (o : FjOrigin) (q : Nat) (ffl dst seq : Nat) (body : List Byte) (s : State) : State :=
  match s.pc.replay o.node seq with
  | none => { s with pc := { s.pc with fjReplay := satInc 31 s.pc.fjReplay } }
  | some c =>
    let forMe := if bit ffl 0 then bit c.fjFl 1 else decide (dst = s.nodeId)
    if bit ffl 1 || bit ffl 2 || !forMe || !decide (q < 32) || !decide ((s.queue q).port = 2) ||
        decide ((s.queue q).cls = .event) then { s with pc := c.bad }
    else
      let p := packetOf q body
      let s1 : State := { s with pc := { c with fjRxOk := satInc 31 c.fjRxOk } }
      s1.enqueue { p with blen := if p.len = body.length then none else some body.length, origin := some o }

/-- A datagram to port 49,512 received on port p (R538). -/
def fjRx (p mac ip udp : Nat) (d : List Byte) (s : State) : State :=
  if !bit s.pc.fjFl 0 || !fjFormOk d then { s with pc := s.pc.bad }
  else
    let key := byteAt d 8
    let node := fieldBe d 6 2
    let n := 20 + fieldBe d 10 2
    let fail (why : Nat) : State :=
      let s1 : State := { s with pc := { s.pc with fjAuthFail := satInc 31 s.pc.fjAuthFail } }
      s1.raiseLim 0xD02 0 10000000000 (be 4 ip ++ le 2 node ++ le 1 why ++ le 1 0)
    match s.fjKey key with
    | none => fail 1
    | some k =>
      if (hmac k (d.take n)).take 16 ≠ d.drop n then fail 0
      else
        let own := decide (ip ≠ 0) && (decide (ip = (s.netP 0).ipv4) || decide (ip = (s.netP 1).ipv4))
        let s1 : State :=
          if node = s.nodeId ∧ !own then
            ({ s with pc := { s.pc with fjDupNode := satInc 31 s.pc.fjDupNode } } : State).raiseLim 0xD01 0 10000000000
              (be 4 ip ++ le 1 p ++ le 3 0)
          else s
        fjAccept { mac := mac, ip := ip, udp := udp, node := node, key := key, eth := p } (byteAt d 9) (byteAt d 3)
          (fieldBe d 4 2) (fieldBe d 12 8) ((d.take n).drop 20) s1

/-! ### PORT_CFG (R546 to R549) -/

def portCfgLen (p : Packet) : Option Err :=
  if p.u8 16 = 0 then lenIs p 36 else if p.u8 16 = 1 then lenIs p 52 else none

def portCfgRight (p : Packet) (port : Nat) : Option Err :=
  failIf (decide (port ≠ 1) && (if p.u8 16 = 0 then bit (p.u8 17) 1 else decide (p.u8 16 = 1)))
    { status := stDenied, ofs := if p.u8 16 = 0 then 17 else 16, detail := port }

def portCfgChk (p : Packet) (s : State) : Option Err :=
  let m := p.u8 17
  if p.u8 16 = 0 then
    firstErr [p.clr 17 1 0xC0, p.clr 20 1 0xFE, p.clr 21 1 0xFE, p.clr 22 1 0xFC, p.withinIf (bit m 3) 23 1 0 2,
      p.withinIf (bit m 3) 24 2 1 1000, p.withinIf (bit m 3) 26 1 0 15, p.clr 27 1 0xF8,
      failIf (bit m 4 && decide (p.u32 28 ≠ 0) && decide (p.u16 32 = 0)) (badParam 32 0), p.zero 34 2,
      match s.tw1.cur with
        | some c => failIf (bit m 3) { status := stBusy, ofs := 17, detail := s.flightTag c.id }
        | none => none]
  else
    firstErr [p.within 16 1 0 1, p.within 17 1 0 1, p.within 18 1 0 1, p.zero 19 1,
      failIf (decide (p.u8 17 = 1) && decide (unle (p.bytes 20 32) ≠ 0)) (badParam 20 (p.u32 20))]

/-- The 48 bytes of R548. -/
def portRec (s : State) : List Byte :=
  let c := s.pc
  le 2 s.nodeId ++ le 1 c.rightsTw0 ++ le 1 c.rightsFj ++
  le 1 (flags [c.key0.isSome, c.key1.isSome, bit c.fjFl 2]) ++ le 1 c.tw0Fl ++ le 1 c.tw1Speed ++ le 1 c.tw1Retry ++
  kcv c.key0 ++ kcv c.key1 ++
  [c.fjRxOk, c.fjAuthFail, c.fjReplay, c.fjBad, c.fjDupNode, c.tw0Stuck, c.tw1Arb, c.tw1Clear].flatMap fun x => le 4 (satWord x)

def PortCfg.clear (c : PortCfg) : PortCfg :=
  { c with fjRxOk := (0, false), fjAuthFail := (0, false), fjReplay := (0, false), fjBad := (0, false),
           fjDupNode := (0, false), tw0Stuck := (0, false), tw1Arb := (0, false), tw1Clear := (0, false) }

/-- The settings a PORT_CFG writes (R546). -/
def PortCfg.write (c : PortCfg) (p : Packet) : PortCfg :=
  let m := p.u8 17
  let c1 : PortCfg := if bit m 0 then { c with nodeId := some (p.u16 18) } else c
  let c2 : PortCfg := if bit m 1 then { c1 with rightsTw0 := p.u8 20, rightsFj := p.u8 21 } else c1
  let c3 : PortCfg := if bit m 2 then { c2 with tw0Fl := p.u8 22 } else c2
  let c4 : PortCfg := if bit m 3 then { c3 with tw1Speed := p.u8 23, tw1Tout := p.u16 24, tw1Retry := p.u8 26 } else c3
  if bit m 4 then { c4 with fjFl := p.u8 27, evtIp := p.ube 28 4, evtUdp := p.u16 32 } else c4

/-- A key slot loaded or erased; a load clears the replay table and the floor (R540, R547). -/
def PortCfg.setKey (c : PortCfg) (slot : Nat) (k : Option (List Byte)) : PortCfg :=
  let c1 : PortCfg := if slot = 0 then { c with key0 := k } else { c with key1 := k }
  if k.isSome then { c1 with senders := [], floor := 0 } else c1

def portCfgApply (id : Nat) (p : Packet) (t : Nat) (s : State) : State :=
  if p.u8 16 = 0 then
    let s1 : State := { s with pc := s.pc.write p }
    let data := portRec s1
    ({ s1 with pc := if bit (p.u8 17) 5 then s1.pc.clear else s1.pc } : State).finishOk id data t
  else
    let k := if p.u8 17 = 0 then some (p.bytes 20 32) else none
    let s1 : State := { s with pc := s.pc.setKey (p.u8 18) k }
    s1.finishOk id (portRec s1) t

def execFjarordEventSend (dt : Nat) (s : State) : Host.Outcome State Fault Refusal :=
  run (.fjarordEventSend dt) s fjEventStep

end Sys2Proof.Machine
end

