-- ==== Sys2Proof/Machine/EthRx.lean ====
section
/-!
DEFINITION. What a received Ethernet frame does: the rows of R309, in their order.
-/
namespace Sys2Proof.Machine
open Sys2Proof

/-- Longest frame a port takes, FCS included (R307). -/
def Net.mtu (n : Net) : Nat := if n.jumbo then 9018 else 1522

def State.rxCount (s : State) (p : Nat) (f : Net → Net) : State := s.setNet p (f (s.netP p))

/-- A PTP message of a frame with its transport: L2, or UDP on ports 319 and 320, each to its PTP group; a unicast one is no
tracker's (R354). -/
def ptpOf (e : Eth) (f : List Byte) : Option (Bool × List Byte) :=
  if e.etype = 0x88F7 ∧ !e.twoTags then (if e.dst = 0x011B19000000 then some (true, f.drop e.ofs) else none)
  else match ip4Of f with
    | none => none
    | some ip => match udpOf ip with
      | none => none
      | some u =>
        let port := if byteAt u.data 0 % 16 < 8 then 319 else 320
        if u.dport = port ∧ ip.dst = 0xE0000181 then some (false, u.data) else none

/-- The answer to an ARP request for the port's address, if the frame is one (R307). -/
def arpAnswer (n : Net) (e : Eth) (f : List Byte) : Option (Nat × List Byte) :=
  let b := f.drop e.ofs
  if e.twoTags = false ∧ e.etype = 0x0806 ∧ fieldBe b 0 8 = 0x0001080006040001 ∧ n.ipv4 ≠ 0 ∧ fieldBe b 24 4 = n.ipv4 then
    some (fieldBe b 8 6, arpBody 2 n.mac n.ipv4 (fieldBe b 8 6) (fieldBe b 14 4))
  else none

/-- The ICMP body that answers an echo request to the port's address (R307). -/
def echoAnswer (n : Net) (f : List Byte) : Option (Nat × List Byte) :=
  match ip4Of f with
  | none => none
  | some ip =>
    if ip.proto = 1 ∧ n.ipv4 ≠ 0 ∧ ip.dst = n.ipv4 ∧ 8 ≤ ip.body.length ∧ ip.body.length ≤ 1480 ∧ fieldBe ip.body 0 2 = 0x0800 ∧
        inetSum ip.body = 0 then
      let m (c : Nat) : List Byte := be 2 0 ++ be 2 c ++ ip.body.drop 4
      some (ip.src, m (inetSum (m 0)))
    else none

/-- An echo may still be answered in this second (R307); seconds count from the first echo of each (log 21). -/
def Net.echoRoom (n : Net) (clk : Nat) : Bool := decide (n.icmpAt + 1000000000 ≤ clk) || decide (n.icmpCnt < 100)

/-- The window of answered echoes after one more. -/
def Net.echoed (n : Net) (clk : Nat) : Net :=
  if n.icmpCnt = 0 ∨ n.icmpAt + 1000000000 ≤ clk then { n with icmpAt := clk, icmpCnt := 1 }
  else { n with icmpCnt := n.icmpCnt + 1 }

/-- Row 7: the request answered, and forwarded with FWD_ARP. -/
def rxAnswered (p : Nat) (f : List Byte) (s : State) : State :=
  let s1 := s.rxCount p fun n => { n with rxOk := satInc 31 n.rxOk }
  if bit (s.netP p).nfl 4 then hostRx p f true s1 else s1

/-- Rows 9 and 10. -/
def rxHostRow (p : Nat) (e : Eth) (f : List Byte) (s : State) : State :=
  let n := s.netP p
  if macGroup e.dst && !decide (e.dst = 0xFFFFFFFFFFFF) && (s.autoMacs p).contains e.dst && !n.hmcast.contains e.dst then
    s.rxCount p fun n => { n with rxUnmatched := satInc 31 n.rxUnmatched }
  else hostRx p f false s

/-- Rows 8 to 10: a query is answered by reports and forwarded, the rest is the host's. -/
def rxRest (p : Nat) (e : Eth) (f : List Byte) (s : State) : State :=
  match ip4Of f with
  | some ip =>
    if ip.proto = 2 ∧ 8 ≤ ip.body.length ∧ byteAt ip.body 0 = 0x11 then hostRx p f true (igmpQuery p ip.body s)
    else rxHostRow p e f s
  | none => rxHostRow p e f s

/-- An echo request answered while the second has room (R307), else rows 8 to 10. -/
def rxEcho (p : Nat) (e : Eth) (f : List Byte) (s : State) : State :=
  match echoAnswer (s.netP p) f with
  | some (ip, body) =>
    if (s.netP p).echoRoom s.clk then
      rxAnswered p f ((s.setNet p ((s.netP p).echoed s.clk)).fwIp p e.src ip 1 (Config.frameField 0 % 256) (s.netP p).dscp [] body)
    else rxRest p e f s
  | none => rxRest p e f s

/-- Rows 7 to 10. -/
def rxLocal (p : Nat) (e : Eth) (f : List Byte) (s : State) : State :=
  match arpAnswer (s.netP p) e f with
  | some (mac, body) => rxAnswered p f (s.fwEth p mac 0x0806 body)
  | none => rxEcho p e f s

/-- Rows 5 and 6, then the rest. -/
def rxIp (p : Nat) (e : Eth) (f : List Byte) (s : State) : State :=
  let n := s.netP p
  match ip4Of f with
  | none => rxLocal p e f s
  | some ip =>
    match udpOf ip with
    | none => rxLocal p e f s
    | some u =>
      match s.rxMatch p ip u with
      | some (i, _) =>
        rxTake i p (max 64 (f.length + 4) + 20) u (s.rxCount p fun n => { n with rxMedia := satInc 31 n.rxMedia })
      | none =>
        if u.dport = 49512 ∧ (ip.dst = 0xFFFFFFFF ∨ (n.ipv4 ≠ 0 ∧ ip.dst = n.ipv4)) then
          fjRx p e.src ip.src u.sport u.data (s.rxCount p fun n => { n with rxOk := satInc 31 n.rxOk })
        else rxLocal p e f s

/-- PAUSE or priority flow control: MAC control opcodes 0x0001 and 0x0101 (R305, R309). -/
def flowControl (f : List Byte) : Bool :=
  let e := ethOf f
  decide (e.etype = 0x8808) && (decide (fieldBe f e.ofs 2 = 1) || decide (fieldBe f e.ofs 2 = 0x101))

/-- ETH_FRAME_RX: a frame without its FCS; `ok` tells that FCS and symbols are right (R309). -/
def ethRxStep (p : Nat) (f : List Byte) (ok : Bool) (s : State) : State :=
  let n := s.netP p
  let e := ethOf f
  if !s.portUp p || s.isSmall && decide (p = 1) then s
  else if !ok || decide (n.mtu < f.length + 4) then s.rxCount p fun n => { n with rxErr := satInc 31 n.rxErr }
  else if flowControl f then s.rxCount p fun n => { n with rxPause := satInc 31 n.rxPause }
  else if !bit n.nfl 3 && !decide (e.dst = n.mac) && !decide (e.dst = 0xFFFFFFFFFFFF) && !(s.filters p).contains e.dst then
    s.rxCount p fun n => { n with rxUnmatched := satInc 31 n.rxUnmatched }
  else
    match ptpOf e f with
    | none => rxIp p e f s
    | some (l2, m) =>
      match s.ptpOwner p l2 m with
      | some t => ptpRx t m (s.rxCount p fun n => { n with rxOk := satInc 31 n.rxOk })
      | none => rxIp p e f s

def execEthFrameRx (dt : Nat) (p : Nat) (frame : List Byte) (ok : Bool) (s : State) : Host.Outcome State Fault Refusal :=
  run (.ethFrameRx dt p frame ok) s (ethRxStep p frame ok)

end Sys2Proof.Machine
end

