-- ==== Sys2Proof/Machine/Ports.lean ====
section
/-!
DEFINITION. The register file as the host ports write it, QSPI transactions, submission rings and TW0
(15 R507 to R531, 01 R22).
-/
namespace Sys2Proof.Machine
open Sys2Proof

/-- QSPI answers: from step 2 of a boot on, not in Hibernate nor from step 3 of R559 (R507, R566). -/
def State.qspiOn (s : State) : Bool :=
  s.alive && !decide (s.pwr.boot = .released) && !decide (s.pwr.pstate = .hibernate) && decide (s.hibStep < 3)

/-- TW0 answers its address: from step 3 of a boot on, not in Hibernate nor from step 2 of R559 (R531, R566). -/
def State.tw0On (s : State) : Bool :=
  s.qspiOn && !decide (s.pwr.boot = .qspi) && decide (s.hibStep < 2)

/-- Packets reach queue q by the port it is bound to: QSPI from READY on, Fjarord while the network runs, TW0 where one of its four
windows serves the queue (R507, R513, R524). -/
def State.reaches (s : State) (q : Nat) : Bool :=
  match (s.queue q).port with
  | 1 => s.qspiOn && s.pwr.ready
  | 2 => s.framing
  | 3 => s.tw0On && ((s.queuesOf 3).take 4).contains q
  | _ => false

/-! ### Submission rings (R519) -/

/-- Packets taken from the ring of queue q, at most n. -/
def takePackets (q : Nat) : Nat → State → State
  | 0, s => s
  | n + 1, s =>
    let qu := s.queue q
    let have0 := (qu.sqTail + 65536 - qu.sqHead) % 65536
    let at0 (k : Nat) : List Byte :=
      (List.range k).map fun i => mread s.mem (0x10000 + q * 0x1000 + (qu.sqHead + i) % 4096)
    let len := fieldLe (at0 6) 4 2
    if have0 < 8 ∨ (!lenBad len ∧ have0 < len) then s
    else
      let k := if lenBad len then have0 else len
      let s1 := s.setQueue q { qu with sqHead := (qu.sqHead + k) % 65536 }
      takePackets q n (s1.enqueue (packetOf q (at0 k)))

/-- SQ_TAIL written by a port: the doorbell (R519, R524). -/
def doorbell (port q v : Nat) (s : State) : State :=
  let qu := s.queue q
  let t := v % 65536
  if port ≠ 1 ∨ qu.port ≠ 1 then s.portErr port 1 q
  else if t % 4 ≠ 0 ∨ 4096 < (t + 65536 - qu.sqHead) % 65536 then s.portErr port 2 q
  else takePackets q 256 (s.setQueue q { qu with sqTail := t })

/-- Record ends after those released. -/
def afterEnd (v : Nat) : List Nat → List Nat
  | [] => []
  | e :: r => if e = v then r else afterEnd v r

/-- CQ_HEAD written by a port: records up to it are released (R520). -/
def cqRelease (port q v : Nat) (s : State) : State :=
  let qu := s.queue q
  let h := v % 65536
  if h = qu.cqHead then s
  else if qu.recEnds.contains h then
    let rest := afterEnd h qu.recEnds
    s.setQueue q { qu with cqHead := h, recEnds := rest, lostEnds := qu.lostEnds.filter rest.contains }
  else s.portErr port 3 q

/-! ### Registers (R513 to R518, R22) -/

/-- Bits of the bytes a mask of four names. -/
def byteMask (m : Nat) : Nat :=
  (if bit m 0 then 0xFF else 0) + (if bit m 1 then 0xFF00 else 0) + (if bit m 2 then 0xFF0000 else 0) +
  (if bit m 3 then 0xFF000000 else 0)

/-- The snapshot of a port (R518). -/
def State.snap (s : State) (port : Nat) : State :=
  s.setPr port { s.pr port with snapNs := s.nowNs, snapFrac := s.tm.devT % 65536, snapFrame := s.tm.frame, snapDone := true }

/-- A write by a port to the aligned register at offset a: bytes of v that the mask m names; bytes not written keep
their present values and clear or start nothing (R510). -/
def regWrite (port a v m : Nat) (s : State) : State :=
  if !s.pwr.ready then s
  else
    let w := v &&& byteMask m
    let full := w + (s.regVal port a &&& (0xFFFFFFFF - byteMask m))
    let r := s.pr port
    if a = 0x010 then
      s.setPr port { r with stickyErr := r.stickyErr && !bit w 4, stickyBoot := r.stickyBoot && !bit w 3 }
    else if a = 0x014 then s.setPr port { r with irqEn := full % 32 ||| 1 }
    else if a = 0x018 then s.setPr port { r with cqIrqEn := full }
    else if a = 0x01C then s.setPr port { r with errCnt := 0, errSat := false, errQueue := 0, errCause := 0 }
    else if a = 0x040 then (if bit w 0 then s.snap port else s)
    else if a = 0x080 then { s with eng := { s.eng with paceMin := 0xFFFF } }
    else if a = 0x084 then { s with eng := { s.eng with disc := s.eng.disc && !bit w 10 } }
    else if a = 0x088 then { s with eng := { s.eng with lateCnt := 0, lateSat := false } }
    else if 0x100 ≤ a ∧ a < 0x180 then doorbell port ((a - 0x100) / 4) full s
    else if 0x280 ≤ a ∧ a < 0x300 then cqRelease port ((a - 0x280) / 4) full s
    else if 0x300 ≤ a ∧ a < 0x380 then
      let q := (a - 0x300) / 4
      if bit w 7 then s.setQueue q { s.queue q with ovf := false } else s
    else if a = 0x000 ∨ a = 0x004 ∨ (0x044 ≤ a ∧ a < 0x058) then s.portErr port 6 0
    else if 0x180 ≤ a ∧ a < 0x280 then s.portErr port 6 ((a - 0x180) / 4 % 32)
    else s

/-- A port's register write as a whole, where that port runs. -/
def portWrite (port a v : Nat) (s : State) : State :=
  if (if port = 1 then s.qspiOn else s.tw0On) ∧ a < 0x1000 then regWrite port (a - a % 4) v 15 s else s

/-! ### QSPI (R508 to R512) -/

/-- An address inside a submission or completion window. -/
def inWindow (a : Nat) : Bool := decide (0x10000 ≤ a) && decide (a < 0x50000)

/-- The address after a (R509). -/
def nextAddr (a : Nat) : Nat := if inWindow a then a / 4096 * 4096 + (a + 1) % 4096 else (a + 1) % 2 ^ 24

/-- The queue of a window address. -/
def windowQueue (a : Nat) : Nat := (a - 0x10000) / 0x1000 % 32

/-- A byte as QSPI reads it (R509, R512, R513). -/
def State.qspiByte (s : State) (a : Nat) : Byte :=
  if a < 0x1000 then BitVec.ofNat 8 (s.regVal 1 (a - a % 4) / 256 ^ (a % 4))
  else if inWindow a || (decide (0x100000 ≤ a) && decide (a < 0x200000)) then mread s.mem a
  else 0#8

/-- The bytes of a burst. -/
def State.qspiBurst (s : State) : Nat → Nat → List Byte
  | 0, _ => []
  | n + 1, a => s.qspiByte a :: s.qspiBurst n (nextAddr a)

/-- READ, FAST_READ and QUAD_READ. -/
def qspiRead (a n : Nat) (s : State) : State := if s.qspiOn then { s with qout := s.qspiBurst n a } else s

/-- One byte of a burst that lies outside the register file. Each byte for a submission or completion window that QSPI does not serve is
an error of its own (R517, log 164). -/
def State.qspiStore (s : State) (a : Nat) (b : Byte) : State :=
  if inWindow a then
    let q := windowQueue a
    if (s.queue q).port = 1 then { s with mem := mwrite s.mem a b } else s.portErr 1 1 q
  else if 0x100000 ≤ a ∧ a < 0x200000 then { s with mem := mwrite s.mem a b }
  else s

/-- WRITE and QUAD_WRITE: `m` and `v` are the bytes written so far of the register at hand; a register takes its value
when its last byte is written or the burst ends (R510). -/
def qspiWrites (v m : Nat) : Nat → List Byte → State → State
  | _, [], s => s
  | a, b :: bs, s =>
    if a < 0x1000 then
      let v1 := v + b.toNat * 256 ^ (a % 4)
      let m1 := m + 2 ^ (a % 4)
      if a % 4 = 3 ∨ bs.isEmpty then qspiWrites 0 0 (nextAddr a) bs (regWrite 1 (a - a % 4) v1 m1 s)
      else qspiWrites v1 m1 (nextAddr a) bs s
    else qspiWrites 0 0 (nextAddr a) bs (s.qspiStore a b)

def qspiWrite (a : Nat) (data : List Byte) (s : State) : State := if s.qspiOn then qspiWrites 0 0 a data s else s

/-- A value's bytes repeated while the clock runs (R508). -/
def repeated (bs : List Byte) (n : Nat) : List Byte := (List.range n).map fun i => bs.getD (i % max 1 bs.length) 0#8

/-! ### TW0 (R523 to R529) -/

/-- The queue a TW0 window serves (R524). -/
def State.twQueue (s : State) (j : Nat) : Option Nat := (s.queuesOf 3)[j]?

/-- Bytes present in a window from offset 0 without a gap (R525). -/
def present : List (Option Byte) → List Byte
  | some b :: r => b :: present r
  | _ => []

/-- A byte at an offset of a window. -/
def putAt (l : List (Option Byte)) (o : Nat) (b : Byte) : List (Option Byte) :=
  if o < l.length then l.set o (some b) else l ++ List.replicate (o - l.length) none ++ [some b]

/-- A byte written into a submission window; `first` tells the first data byte of its transaction (R525). -/
def State.twSubmit (s : State) (a : Nat) (first : Bool) (b : Byte) : State :=
  let j := (a - 0x1000) / 0x400
  let o := a % 0x400
  match s.twQueue j with
  | none => s.portErr 3 1 0
  | some q =>
    let old := tget [] s.tw0.sub j
    let new := first && decide (o = 0)
    let s1 := if new && !old.isEmpty then s.portErr 3 4 q else s
    { s1 with tw0 := { s1.tw0 with sub := tset j (putAt (if new then [] else old) o b) s1.tw0.sub } }

/-- A write shadow of a register that is live (R528). -/
def State.wrLive (s : State) (reg : Nat) : Option WrShadow :=
  match s.tw0.wr with
  | some w => if w.reg = reg ∧ s.clk < w.at0 + 2000000 then some w else none
  | none => none

/-- A byte written to a register over TW0: held in the write shadow until byte 3 comes (R528). -/
def State.twReg (s : State) (a : Nat) (b : Byte) : State :=
  let reg := a - a % 4
  let i := a % 4
  let w := (s.wrLive reg).getD { reg := reg, bytes := [none, none, none], at0 := s.clk }
  if i < 3 then { s with tw0 := { s.tw0 with wr := some { w with bytes := w.bytes.set i (some b) } } }
  else
    let bs := w.bytes ++ [some b]
    let v := (List.range 4).foldl (fun x k => x + ((bs.getD k none).getD 0#8).toNat * 256 ^ k) 0
    let m := (List.range 4).foldl (fun x k => x + b2n (bs.getD k none).isSome * 2 ^ k) 0
    regWrite 3 reg v m { s with tw0 := { s.tw0 with wr := none } }

/-- One data byte of a TW0 write at the pointer, which then wraps in its 64-byte page (R523). -/
def State.twByte (s : State) (first : Bool) (b : Byte) : State :=
  let a := s.tw0.ptr
  let s1 :=
    if a < 0x1000 then s.twReg a b
    else if a < 0x2000 then s.twSubmit a first b
    else if a < 0x3000 then { s with tw0 := { s.tw0 with cmem := mwrite s.tw0.cmem (a - 0x2000) b } }
    else s
  { s1 with tw0 := { s1.tw0 with ptr := a / 64 * 64 + (a + 1) % 64 } }

/-- A complete packet of window j taken at a STOP (R525). -/
def twTake (j : Nat) (s : State) : State :=
  let bs := present (tget [] s.tw0.sub j)
  let len := fieldLe bs 4 2
  match s.twQueue j with
  | none => s
  | some q =>
    if 8 ≤ bs.length ∧ (lenBad len ∨ len ≤ bs.length) then
      ({ s with tw0 := { s.tw0 with sub := tdel j s.tw0.sub } } : State).enqueue
        (packetOf q (if lenBad len then bs else bs.take len))
    else s

def twStop (s : State) : State := forUpto 4 twTake s

/-- TW0's 7-bit address, from the strap as latched (R522). -/
def State.tw0Addr (s : State) : Nat := 0x3C + s.pwr.straps.addr

/-- TW0 acknowledges an address byte: its own address with the direction bit, and no other (R522). -/
def State.tw0Acks (s : State) (a : Byte) (read : Bool) : Bool := decide (a.toNat = 2 * s.tw0Addr + b2n read)

/-- TW0_WRITE, from its address byte on: two pointer bytes, then data (R523); fewer than two leave the pointer (log 22). The bytes of
a transaction with another address are not acknowledged. A STOP takes packets (R525). -/
def tw0WriteStep (data : List Byte) (stop : Bool) (s : State) : State :=
  if !s.tw0On then s
  else
    let s1 : State := match if s.tw0Acks (data.headD 0#8) false then data.tail else [] with
      | h :: l :: ds =>
        let s0 : State := { s with tw0 := { s.tw0 with ptr := h.toNat * 256 + l.toNat } }
        match ds with
        | [] => s0
        | d :: r => r.foldl (fun x b => x.twByte false b) (s0.twByte true d)
      | _ => s
    if stop then twStop s1 else s1

/-- A register byte as TW0 reads it, through the read shadow (R527). -/
def State.twRegByte (s : State) (a : Nat) : State × Byte :=
  let reg := a - a % 4
  let i := a % 4
  let pick (v : Nat) : Byte := BitVec.ofNat 8 (v / 256 ^ i)
  if i = 0 then
    let v := s.regVal 3 reg
    ({ s with tw0 := { s.tw0 with rd := some { reg := reg, val := v, at0 := s.clk } } }, pick v)
  else match s.tw0.rd with
    | some r =>
      if r.reg = reg ∧ s.clk < r.at0 + 2000000 then
        (if i = 3 then { s with tw0 := { s.tw0 with rd := none } } else s, pick r.val)
      else (s, pick (s.regVal 3 reg))
    | none => (s, pick (s.regVal 3 reg))

/-- n bytes read from the pointer on (R523). -/
def twReads : Nat → State → State
  | 0, s => s
  | n + 1, s =>
    let a := s.tw0.ptr
    let (s1, b) : State × Byte :=
      if a < 0x1000 then s.twRegByte a
      else if a < 0x2000 then (s, ((tget [] s.tw0.sub ((a - 0x1000) / 0x400)).getD (a % 0x400) none).getD 0#8)
      else if a < 0x3000 then (s, mread s.tw0.cmem (a - 0x2000))
      else (s, 0#8)
    let next := if 0x2000 ≤ a ∧ a < 0x3000 then a / 0x400 * 0x400 + (a + 1) % 0x400 else (a + 1) % 65536
    twReads n { s1 with tw0 := { s1.tw0 with ptr := next, out := s1.tw0.out ++ [b] } }

/-- TW0_READ: nothing is read at another address, and a repeated START takes no packet (R522, R523, R525). -/
def tw0ReadStep (r : TwRead) (s : State) : State :=
  if !s.tw0On then s
  else
    let s1 : State := { s with tw0 := { s.tw0 with out := [] } }
    let s2 := if s.tw0Acks r.addr true then twReads r.count s1 else s1
    if r.stop then twStop s2 else s2

/-- TW0_STUCK_RELEASE (R529). -/
def tw0StuckStep (s : State) : State :=
  if !s.tw0On then s
  else
    let s1 : State := { s with tw0 := { s.tw0 with rd := none, wr := none },
                               pc := { s.pc with tw0Stuck := satInc 31 s.pc.tw0Stuck } }
    (s1.portErr 3 5 0).raise 0xD03 (le 4 0)

/-- A shadow is 2 ms old (R527, R528). -/
def tw0RdExpire (s : State) : State :=
  match s.tw0.rd with
  | some r => if r.at0 + 2000000 ≤ s.clk then { s with tw0 := { s.tw0 with rd := none } } else s
  | none => s

def tw0WrExpire (s : State) : State :=
  match s.tw0.wr with
  | some r => if r.at0 + 2000000 ≤ s.clk then { s with tw0 := { s.tw0 with wr := none } } else s
  | none => s

/-! ### The rows -/

def execSqTailDoorbell (dt : Nat) (q : Nat) (v : Nat) (s : State) : Host.Outcome State Fault Refusal :=
  run (.sqTailDoorbell dt q v) s (portWrite 1 (0x100 + 4 * q) v)

def execCqHeadRelease (dt : Nat) (port : Nat) (q : Nat) (v : Nat) (s : State) : Host.Outcome State Fault Refusal :=
  run (.cqHeadRelease dt port q v) s (portWrite port (0x280 + 4 * q) v)

def execQStatOvfClear (dt : Nat) (port : Nat) (q : Nat) (v : Nat) (s : State) : Host.Outcome State Fault Refusal :=
  run (.qStatOvfClear dt port q v) s (portWrite port (0x300 + 4 * q) v)

def execIrqStatClear (dt : Nat) (port : Nat) (v : Nat) (s : State) : Host.Outcome State Fault Refusal :=
  run (.irqStatClear dt port v) s (portWrite port 0x010 v)

def execPortErrClear (dt : Nat) (port : Nat) (v : Nat) (s : State) : Host.Outcome State Fault Refusal :=
  run (.portErrClear dt port v) s (portWrite port 0x01C v)

def execSnapLatch (dt : Nat) (port : Nat) (v : Nat) (s : State) : Host.Outcome State Fault Refusal :=
  run (.snapLatch dt port v) s (portWrite port 0x040 v)

def execEngPaceClear (dt : Nat) (v : Nat) (s : State) : Host.Outcome State Fault Refusal :=
  run (.engPaceClear dt v) s (portWrite 1 0x080 v)

def execEngStatDiscClear (dt : Nat) (v : Nat) (s : State) : Host.Outcome State Fault Refusal :=
  run (.engStatDiscClear dt v) s (portWrite 1 0x084 v)

def execEngLateClear (dt : Nat) (v : Nat) (s : State) : Host.Outcome State Fault Refusal :=
  run (.engLateClear dt v) s (portWrite 1 0x088 v)

def execRegisterWrite (dt : Nat) (port : Nat) (addr : Nat) (v : Nat) (s : State) : Host.Outcome State Fault Refusal :=
  run (.registerWrite dt port addr v) s (portWrite port addr v)

def execRead (dt : Nat) (addr : Nat) (n : Nat) (s : State) : Host.Outcome State Fault Refusal :=
  run (.read dt addr n) s (qspiRead addr n)

def execFastRead (dt : Nat) (addr : Nat) (n : Nat) (s : State) : Host.Outcome State Fault Refusal :=
  run (.fastRead dt addr n) s (qspiRead addr n)

def execQuadRead (dt : Nat) (addr : Nat) (n : Nat) (s : State) : Host.Outcome State Fault Refusal :=
  run (.quadRead dt addr n) s (qspiRead addr n)

def execWrite (dt : Nat) (addr : Nat) (data : List Byte) (s : State) : Host.Outcome State Fault Refusal :=
  run (.write dt addr data) s (qspiWrite addr data)

def execQuadWrite (dt : Nat) (addr : Nat) (data : List Byte) (s : State) : Host.Outcome State Fault Refusal :=
  run (.quadWrite dt addr data) s (qspiWrite addr data)

def execReadStatus (dt : Nat) (n : Nat) (s : State) : Host.Outcome State Fault Refusal :=
  run (.readStatus dt n) s fun x => if x.qspiOn then { x with qout := repeated (le 1 x.devStat) n } else x

def execReadId (dt : Nat) (n : Nat) (s : State) : Host.Outcome State Fault Refusal :=
  run (.readId dt n) s fun x => if x.qspiOn then { x with qout := repeated (le 4 (idcodeOf x.part.variant)) n } else x

/-- Another instruction byte: cause 6, and nothing is driven; a byte of R508's table is no unknown instruction. -/
def qspiUnknown (code : Nat) (s : State) : State :=
  if s.qspiOn ∧ !([0x03, 0x0B, 0xEB, 0x02, 0x32, 0x05, 0x9F].contains code) then s.portErr 1 6 0 else s

def execQspiUnknownInstruction (dt : Nat) (code : Nat) (s : State) : Host.Outcome State Fault Refusal :=
  run (.qspiUnknownInstruction dt code) s (qspiUnknown code)

def execTw0Write (dt : Nat) (data : List Byte) (stop : Bool) (s : State) : Host.Outcome State Fault Refusal :=
  run (.tw0Write dt data stop) s (tw0WriteStep data stop)

def execTw0Read (dt : Nat) (r : TwRead) (s : State) : Host.Outcome State Fault Refusal :=
  run (.tw0Read dt r) s (tw0ReadStep r)

def execTw0ReadShadowExpire (dt : Nat) (s : State) : Host.Outcome State Fault Refusal :=
  run (.tw0ReadShadowExpire dt) s tw0RdExpire

def execTw0WriteShadowExpire (dt : Nat) (s : State) : Host.Outcome State Fault Refusal :=
  run (.tw0WriteShadowExpire dt) s tw0WrExpire

def execTw0StuckRelease (dt : Nat) (s : State) : Host.Outcome State Fault Refusal :=
  run (.tw0StuckRelease dt) s tw0StuckStep

end Sys2Proof.Machine
end

