-- ==== Sys2Proof/Machine/Tw1.lean ====
section
/-!
DEFINITION. TW1, the controller of the second two-wire bus, and TW1_XFER (15 R532 to R536).
-/
namespace Sys2Proof.Machine
open Sys2Proof

/-- The transfer that waits longest becomes the present one, with the settings then in force, once the STOP that an earlier one owes the
bus has been sent (R532, R536, R548). -/
def tw1Next (s : State) : State :=
  match s.tw1.waiting with
  | [] => { s with tw1 := { s.tw1 with cur := none } }
  | c :: r =>
    if s.tw1.stopOwed then { s with tw1 := { s.tw1 with cur := none } }
    else
      let d : Tw1Cur := { c with speed := s.pc.tw1Speed, tout := s.pc.tw1Tout,
                                 retry := if c.retry = 0xFF then s.pc.tw1Retry else c.retry }
      { s with tw1 := { s.tw1 with cur := some d, waiting := r } }

/-- The bus is free: a STOP that was owed has been sent, and the transfer that waited for it starts (R536). -/
def tw1Free (s : State) : State :=
  if s.tw1.stopOwed then tw1Next { s with tw1 := { s.tw1 with stopOwed := false } } else s

/-- The present transfer ends early (R536). -/
def tw1Fail (c : Tw1Cur) (status aux detail : Nat) (s : State) : State :=
  tw1Next (s.finishErr c.id { status := status, aux := aux, detail := detail } s.nowNs)

/-- An attempt on a free bus: a bus clear of `pulses` pulses where SDA was low, then the attempt, which may lose arbitration at
a byte and bit (R533, R534). -/
def tw1Attempt (pulses : Nat) (stuck : Bool) (arb : Option (Nat × Nat)) (s : State) : State :=
  match s.tw1.cur with
  | none => s
  | some c =>
    if c.active then s
    else
      let n := if stuck then 9 else min 9 pulses
      let c1 : Tw1Cur := { c with pulses := c.pulses + n }
      let s1 : State := { s with
        tw1 := { s.tw1 with cur := some c1 },
        pc := if n = 0 then s.pc else { s.pc with tw1Clear := satInc 31 s.pc.tw1Clear } }
      if stuck then tw1Fail c1 stBusy 4 c1.pulses s1
      else
        let c2 : Tw1Cur := { c1 with attempts := c1.attempts + 1, active := true }
        match arb with
        | none => { s1 with tw1 := { s1.tw1 with cur := some c2 } }
        | some (byte, bit) =>
          let s2 : State := { s1 with
            tw1 := { s1.tw1 with cur := some { c2 with active := false } },
            pc := { s1.pc with tw1Arb := satInc 31 s1.pc.tw1Arb } }
          if c2.attempts ≤ c2.retry then s2
          else tw1Fail c2 stBusy 5 (c2.attempts % 256 * 2 ^ 24 + byte % 65536 * 256 + bit % 256) s2

/-- TW1_ATTEMPT_START. -/
def tw1AttemptStep (pulses : Nat) (stuck : Bool) (arb : Option (Nat × Nat)) (s : State) : State :=
  tw1Attempt pulses stuck arb (tw1Free s)

/-- TW1_STRETCH_TIMEOUT after `moved` bytes (R536). -/
def tw1StretchStep (moved : Nat) (s : State) : State :=
  match s.tw1.cur with
  | none => s
  | some c =>
    if c.active then tw1Fail c stTimeout 3 moved { s with tw1 := { s.tw1 with stopOwed := true } } else s

/-- TW1_XFER_DONE: the attempt came to its STOP (R535, R536). -/
def tw1DoneStep (acked : Nat) (addrOk : Bool) (data : List Byte) (s : State) : State :=
  match s.tw1.cur with
  | none => s
  | some c =>
    if !c.active then s
    else if !addrOk then tw1Fail c stTimeout 1 0 s
    else if acked < c.wlen then tw1Fail c stTimeout 2 acked s
    else
      tw1Next (s.finishOk c.id (le 2 c.wlen ++ le 2 c.rlen ++ le 1 (min 255 c.attempts) ++ le 1 (min 255 c.pulses) ++ le 2 0 ++
        slice data 0 c.rlen) s.nowNs)

/-! ### TW1_XFER -/

def tw1XferLen (p : Packet) : Option Err := lenIs p ((28 + p.u16 20 + 3) / 4 * 4)

def tw1XferChk (p : Packet) (_s : State) : Option Err :=
  let w := p.u16 20
  let pad := p.bytes (28 + w) ((28 + w + 3) / 4 * 4 - (28 + w))
  firstErr [p.clr 16 1 0x80, p.clr 17 1 0xFE, need (decide (p.u8 18 ≤ 15) || decide (p.u8 18 = 0xFF)) 18 (p.u8 18),
    p.zero 19 1, p.within 20 2 0 996, p.within 22 2 0 992, need (decide (1 ≤ w + p.u16 22)) 20 0, p.zero 24 4,
    need (decide (unle pad = 0)) (28 + w) (unle pad)]

/-- TW1_XFER waits its turn (R532). -/
def tw1XferApply (id : Nat) (p : Packet) (_t : Nat) (s : State) : State :=
  let c : Tw1Cur := { id := id, sr := bit (p.u8 17) 0, taddr := p.u8 16, retry := p.u8 18, wlen := p.u16 20, rlen := p.u16 22,
                      data := p.bytes 28 (p.u16 20) }
  let s1 : State := { s with tw1 := { s.tw1 with waiting := s.tw1.waiting ++ [c] } }
  if s.tw1.cur.isSome then s1 else tw1Next s1

/-- A waiting transfer is removed. -/
def tw1Drop (id : Nat) (s : State) : State :=
  { s with tw1 := { s.tw1 with waiting := s.tw1.waiting.filter fun x => !decide (x.id = id) } }

/-- ABORT of a transfer: a running one stops at a byte boundary, the bytes completed being open (R536); one that waits is
removed. -/
def tw1Abort (id : Nat) (s : State) : State :=
  match s.tw1.cur with
  | some c =>
    if c.id = id then
      let n := if c.active then Config.freeNat s.freeCtr % (c.wlen + c.rlen + 1) else 0
      tw1Next (({ s with tw1 := { s.tw1 with stopOwed := c.active || s.tw1.stopOwed } } : State).finishAborted id n s.nowNs).bump
    else (tw1Drop id s).finishAborted id 0 s.nowNs
  | none => (tw1Drop id s).finishAborted id 0 s.nowNs

/-- RESET_UNIT of TW1 (R87, R536): every transfer ends, and the settings take their reset values. -/
def tw1Reset (s : State) : State :=
  let ids : List Nat := s.tw1.waiting.map (·.id) ++ (match s.tw1.cur with
    | some c => [c.id]
    | none => [])
  let s1 := forEach ids tw1Abort s
  { s1 with pc := { s1.pc with tw1Speed := 1, tw1Tout := 25, tw1Retry := 3 } }

def execTw1AttemptStart (dt : Nat) (pulses : Nat) (stuck : Bool) (arb : Option (Nat × Nat)) (s : State) :
    Host.Outcome State Fault Refusal :=
  run (.tw1AttemptStart dt pulses stuck arb) s (tw1AttemptStep pulses stuck arb)

def execTw1StretchTimeout (dt : Nat) (moved : Nat) (s : State) : Host.Outcome State Fault Refusal :=
  run (.tw1StretchTimeout dt moved) s (tw1StretchStep moved)

def execTw1XferDone (dt : Nat) (acked : Nat) (addrOk : Bool) (data : List Byte) (s : State) : Host.Outcome State Fault Refusal :=
  run (.tw1XferDone dt acked addrOk data) s (tw1DoneStep acked addrOk data)

end Sys2Proof.Machine
end

