-- ==== Sys2Proof/Machine/Pll.lean ====
section
/-!
DEFINITION. Media PLLs, their references, ramps and pulls, relocks, base-rate changes, clock outputs (11 R388 to R423).
PLL 0 and 1 are MPLL0 and MPLL1, 2 the APLL. Frequencies are in ppb; a slope of 1,000 ppm/s is 1 ppb per µs.
-/
namespace Sys2Proof.Machine
open Sys2Proof

/-! ### Events and states (R395, R415) -/

def State.lockEvent (s : State) (m cause : Nat) : State :=
  s.raise 0x901 (le 1 m ++ le 1 (s.pll m).lstate ++ le 1 cause ++ le 1 0 ++ le 4 s.frame32)

def State.refEvent (s : State) (m action : Nat) (phi : Int) : State :=
  s.raise 0x902 (le 1 m ++ le 1 (s.pll m).rstate ++ le 1 action ++ le 1 0 ++
    le 4 (uns 32 (clampI (-0x7FFFFFFF) 0x7FFFFFFF phi)))

/-- RSTATE becomes `st`; MPLL_REF at a change to or from holdover and returning. -/
def State.rstTo (s : State) (m st action : Nat) (phi : Int) : State :=
  let was := (s.pll m).rstate
  if was = st then s
  else
    let a := s.pllPush m
    let s1 := a.setPll m { a.pll m with rstate := st, inBandAt := s.clk }
    if 4 ≤ was ∨ 4 ≤ st then s1.refEvent m action phi else s1

/-! ### Phase (R397 to R400) -/

/-- Length in ns of the slew that removes a phase error (R398). -/
def slewTime (phi : Int) (ppm : Nat) : Nat :=
  let x := phi.natAbs
  if x < ppm * ppm then 2 * isqrt (x * 1000000000000) 60 0 else ceilDiv (x * 1000000) (max 1 ppm) + ppm * 1000000

/-- The phase error that is left after e ns of a slew. -/
def slewLeftPhi (phi : Int) (ppm t e : Nat) : Int :=
  let x := phi.natAbs
  let r := min (t / 2) (ppm * 1000000)
  let left : Nat :=
    if t ≤ e then 0
    else if e ≤ r then x - e * e / 2000000000000
    else if t - r ≤ e then (t - e) * (t - e) / 2000000000000
    else x - r * r / 2000000000000 - ppm * (e - r) / 1000000
  if phi < 0 then -(left : Int) else left

/-- Present phase error (R417). -/
def Pll.phaseNow (p : Pll) (clk : Nat) : Int :=
  if p.rstate = 5 then slewLeftPhi p.phase p.slewPpm p.slewNs (clk - p.slewAt) else 0

/-- Frames in a tick at a base rate (R390). -/
def tickLen (rate : Nat) : Nat := rate / fam1x (famOf rate)

/-- Φ of the last tick against device time, reduced by the tick (R397, R399); the last boundary is the tick or lies some frames
after it. -/
def State.tickPhi (s : State) : Int :=
  let rate := s.tm.rate
  let p := tickLen rate * 1000000000
  let r := (s.tm.frameT * rate + (tickLen rate - s.tm.tick) * 1000000000) % p
  if 2 * r < p then -((r / rate : Nat) : Int) else (((p - r) / rate : Nat) : Int)

/-- Nominal rate of a port in Hz (R428, R432). -/
def State.tpRate (s : State) (t : Tp) : Nat := if t.clk = 1 then t.prate else s.tm.rate

/-- Alignment periods a second of a reference (R394). -/
def State.refHz (s : State) (m : Nat) : Nat :=
  let p := s.pll m
  if p.ref = 6 then 1 else if p.ref = 4 then max 1 p.wmul * fam1x m
  else if p.ref = 5 then max 1 (s.tpRate (s.tp p.refIdx)) else fam1x m

/-- Φ reduced into (-P/2, P/2] for P a `hz`-th of a second (R397). -/
def reducePhi (hz : Nat) (phi : Int) : Int :=
  let y := (phi * hz).emod 1000000000
  Int.tdiv (if 1000000000 < 2 * y then y - 1000000000 else y) hz

/-- A measured Φ: from the last boundary where device time is the reference of the serving MPLL, else open within
(-P/2, P/2] (R397, log 23). -/
def State.measurePhi (s : State) (m : Nat) : Int :=
  let p := s.pll m
  if p.ref = 1 ∧ m = s.serving ∧ s.tm.frameRun then s.tickPhi
  else reducePhi (s.refHz m) (Config.freeNat s.freeCtr)

/-! ### TP ports and ASRC channels change state (R431, R435) -/

/-- Gain of an ASRC channel in units of 2^-62, on its way as a raised cosine (R435). -/
def Asrc.gain (a : Asrc) : Int :=
  let f := a.fade
  if f.n ≤ f.k then f.t else f.m + (f.t - f.m) * rcos f.k f.n / 2 ^ 62

/-- ASTATE of a channel becomes st (R435, R437): on locking its gain rises over RISE_MS, on unlocking it falls over 1 ms,
each from its momentary value. -/
def State.asrTo (s : State) (ch st : Nat) : State :=
  let a := s.asr ch
  if a.st = st then s
  else
    let rise := match a.owner with
      | some o => (s.tp o.1).rise
      | none => 1
    let fade : Fade := if st = 2 then { m := a.gain, t := 2 ^ 62, n := msFrames rise s.tm.rate }
      else if a.st = 2 then { m := a.gain, t := 0, n := msFrames 1 s.tm.rate } else a.fade
    (s.setAsr ch { a with st := st, ratio := if st = 2 then a.ratio else 0, fade := fade }).raise 0xA03
    (le 1 ch ++ le 1 st ++ le 1 a.st ++ le 1 0 ++ le 4 s.frame32)

/-- ASRC channels of a port, ascending. -/
def State.asrOf (s : State) (p : Nat) : List Nat :=
  (s.asrc.filter fun e => match e.2.owner with
    | some o => decide (o.1 = p)
    | none => false).map (·.1)

/-- The MPLL a master port runs from (R428, R432). -/
def State.tpPll (s : State) (p : Nat) : Nat := if (s.tp p).clk = 1 then (s.tp p).msrc else s.serving

/-- A nominal rate in Hz as an MPLL gives it, in mHz (R393). -/
def State.mhzOf (s : State) (m hz : Nat) : Nat := ((hz * 1000 : Nat) * (1000000000 + s.pllPpb m) / 1000000000).toNat

/-- TSTATE of a port becomes st; its ASRC channels lock while it runs (R431, R435, R437). No clock is left where nothing clocks
it; a guarded one keeps the rate before the relock under HOLD (R407). -/
def State.tpTo (s : State) (p st : Nat) : State :=
  let t := s.tp p
  if t.st = st then s
  else
    let none0 := decide (st = 0) || decide (st = 3) || (decide (st = 4) && decide (t.guard = 0))
    let mhz := if none0 then 0 else if st = 4 then s.mhzOf (s.tpPll p) (s.tpRate t) else t.mhz
    let s1 := s.setTp p { t with st := st, clkOk := t.clkOk && !none0, mhz := mhz, frames := [], inAge := none, outAge := none, used := none, inNow := [], outQ := [],
                                 outNow := [], inLag := 0, outLead := 0 }
    let s2 := s1.raise 0xA01 (le 1 p ++ le 1 st ++ le 1 t.st ++ le 1 0 ++ le 4 s.frame32)
    forEach (s2.asrOf p) (fun c a => a.asrTo c (if st = 2 then 1 else 0)) s2

/-- Master ports that run from PLL m are guarded while it relocks (R431). -/
def tpsGuard (m : Nat) (s : State) : State :=
  forUpto 4 (fun p a => if (a.tp p).role = 1 ∧ (a.tp p).st = 2 ∧ a.tpPll p = m then a.tpTo p 4 else a) s

/-- References whose validity the part sees by itself: device time, a held estimate, the frame sync of a running slave port
(R394). -/
def State.refSeen (s : State) (m : Nat) : Bool :=
  let p := s.pll m
  let tp := s.tp p.refIdx
  (decide (p.ref = 2) && s.tt0.est.isSome) || (decide (p.ref = 3) && s.tt1.est.isSome) ||
    (decide (p.ref = 5) && decide (tp.role = 0) && tp.clkOk)

/-- The NCO takes its new word at once: what the reference asks for, with the pull and the ramp as they stand (R406 step 2). -/
def ncoTake (m : Nat) (s : State) : State :=
  let p := s.pll m
  s.setPll m { p with lim := { at0 := s.clk, servo := s.pllCorr m, pull := p.pullAt s.clk s.nowNs, off := p.off s.nowNs } }

/-- RSTATE while a PLL relocks (R395). -/
def State.rstRelock (s : State) (m : Nat) : Nat :=
  let p := s.pll m
  if p.ref = 0 ∨ m = 2 then 0 else if !p.refValid then 4 else if p.following s.nowNs then 3 else 1

/-- A relock begins, or the running one restarts its step 2 with the new word (R405, R406). -/
def relockStart (m cause : Nat) (s : State) : State :=
  let p := s.pll m
  let phi := p.phaseNow s.clk
  match p.relock with
  | some r =>
    let s1 := s.setPll m { p with relock := some { r with at0 := if r.step = 2 then s.clk else r.at0 } }
    (if r.step = 2 then ncoTake m s1 else s1).rstTo m (s1.rstRelock m) 0 phi
  | none =>
    let s1 := s.setPll m { p with lstate := 1, phase := 0, relock := some { cause := cause, at0 := s.clk },
                                  relockCnt := satInc 31 p.relockCnt,
                                  pulling := p.pulling && decide (p.lstate ≠ 0),
                                  lim := if p.lstate = 0 then { p.lim with pull := pullDep p.pull } else p.lim,
                                  refOk := if p.lstate = 0 then s.refSeen m else p.refOk }
    let s2 := s1.rstTo m (s1.rstRelock m) 0 phi
    let s3 := tpsGuard m (s2.lockEvent m cause)
    if m = s.serving then outsRelock true s3 else s3

/-- A phase error is removed: by a slew, or by a realign (R398); `slewOnly` where the spec leaves no choice (R399, R400). -/
def align (m : Nat) (phi : Int) (slewOnly : Bool) (s : State) : State :=
  let p := s.pll m
  let t := slewTime phi p.pullPpm
  if p.lstate ≠ 2 ∨ phi = 0 then s.rstTo m 1 0 phi
  else if !slewOnly && (decide (p.ret = 1) || decide (p.retMax * 1000000000 < t)) then relockStart m 3 (s.rstTo m 1 2 phi)
  else
    let a := s.pllPush m
    let b := a.setPll m { a.pll m with phase := phi, slewNs := t, slewAt := s.clk, slewPpm := p.pullPpm }
    b.rstTo m 5 1 phi

/-- RSTATE after an offset or a pull began or came back to zero, and after a lock (R395, R400, R406). -/
def pllSettle (m : Nat) (s : State) : State :=
  let p := s.pll m
  if p.lstate = 0 ∨ p.ref = 0 then s.rstTo m 0 0 0
  else if !p.refValid then s.rstTo m 4 0 0
  else if p.following s.nowNs then s.rstTo m 3 0 (p.phaseNow s.clk)
  else if p.rstate = 3 then (align m (s.measurePhi m) true s).bump
  else if p.rstate = 0 ∨ p.rstate = 4 then s.rstTo m 1 0 0
  else s

/-- A reference newly selected (R394, R397): device time and a held estimate are valid at once, as is the frame sync of a
running slave port; edges on a ball become valid with MPLL_REF_RETURN. Its time phase-locked or following starts anew (log 143).
A difference of the frequencies above 200 ppm relocks, toward free run too (R405). -/
def refSelect (m : Nat) (before : Int) (s0 : State) : State :=
  let s := s0.pllPush m
  let p := s.pll m
  let s1 := s.setPll m { p with refOk := s.refSeen m, corr := 0, hist := [], histAt := s.clk, freeRan := p.freeRan || decide (p.ref = 0) }
  let phi := p.phaseNow s.clk
  if p.ref ≠ 0 ∧ !(s1.pll m).refValid then s1.rstTo m 4 0 phi
  else if 200000 < (s1.pllCorr m - before).natAbs then relockStart m 1 s1
  else if p.ref = 0 then s1.rstTo m 0 0 phi
  else if p.following s.nowNs then s1.rstTo m 3 0 phi
  else (align m (s1.measurePhi m) false s1).bump

/-- A reference that is set on trackers or ports may be valid. -/
def State.refCould (s : State) (m : Nat) : Bool :=
  let p := s.pll m
  s.refSeen m || decide (p.ref = 4) || decide (p.ref = 6)

/-- MPLL_REF_LOSS (R396). -/
def refLossStep (m : Nat) (s : State) : State :=
  let p := s.pll m
  if p.lstate = 0 ∨ !p.refOk ∨ p.ref < 2 ∨ (s.refCould m ∧ p.ref ≠ 4 ∧ p.ref ≠ 6) then s
  else
    let a := s.pllPush m
    let q := a.pll m
    (a.setPll m { q with refOk := false, corr := avgOver q.hist, refLoss := satInc 31 q.refLoss }).rstTo m 4 0 (q.phaseNow s.clk)

/-- A departure in ppb that the edges of a reference at a ball may have while it is valid (R394). -/
def refInBand (ref : Nat) (x : Int) : Bool :=
  if ref = 4 then decide (x.natAbs ≤ 60000000) else if ref = 6 then decide (-999000 ≤ x) && decide (x ≤ 1001001) else true

/-- MPLL_REF_RETURN with the measured Φ in ns, which is reduced, and frequency difference in ppb (R397); a jump of a
tracker's estimate is handled alike. Edges outside the validity of R394 bring no return. -/
def refReturnStep (m : Nat) (phi0 ppb : Int) (s : State) : State :=
  let p := s.pll m
  let phi := reducePhi (s.refHz m) phi0
  if p.lstate = 0 ∨ p.ref < 2 ∨ !s.refCould m ∨ (p.refOk ∧ p.ref ≠ 2 ∧ p.ref ≠ 3) ∨ !refInBand p.ref (s.pllCorr m + ppb) then s
  else
    let a := s.pllPush m
    let s1 := a.setPll m { a.pll m with refOk := true, corr := s.pllCorr m + ppb, refAt := s.clk }
    if 200000 < ppb.natAbs then relockStart m 1 (s1.rstTo m 1 2 phi)
    else if p.following s.nowNs then s1.rstTo m 3 0 phi
    else align m phi false s1

/-- The serving loop has locked to device time: M is set at the next frame, after a relock or a free run (R310, R400). -/
def mediaAnew (m : Nat) (s : State) : State :=
  if m = s.serving ∧ (s.pll m).ref = 1 then
    { s.setPll m { s.pll m with freeRan := false } with tm := { s.tm with mediaSet := false } }
  else s

/-- MPLL_PHASE_LOCK: within ±50 ns for 1 s (R395). -/
def phaseLockStep (m : Nat) (s : State) : State :=
  let p := s.pll m
  if p.lstate = 2 ∧ p.rstate = 1 ∧ p.inBandAt + 1000000000 ≤ s.clk then
    (if p.freeRan then mediaAnew m (s.rstTo m 2 0 0) else s.rstTo m 2 0 0)
  else s

/-- PHASE_SLEW_END (R398). -/
def phaseSlewEndStep (m : Nat) (s : State) : State :=
  let p := s.pll m
  if p.rstate = 5 ∧ p.slewAt + p.slewNs ≤ s.clk then (s.setPll m { p with phase := 0 }).rstTo m 1 0 0 else s

/-- MPLL_LOSS_OF_LOCK (R405). -/
def lossOfLockStep (m : Nat) (s : State) : State := if (s.pll m).lstate = 2 then relockStart m 5 s else s

/-- MPLL_RELOCK_STEP: every STOP output is low (R406 step 2). -/
def relockStep (m : Nat) (s : State) : State :=
  let p := s.pll m
  match p.relock with
  | some r => if r.step = 1 then ncoTake m (s.setPll m { p with relock := some { r with step := 2, at0 := s.clk } }) else s
  | none => s

/-- R406 step 3. The first lock of the serving MPLL starts the frames (R351). -/
def pllLocked (m : Nat) (s : State) : State :=
  let p := s.pll m
  match p.relock with
  | none => s
  | some r =>
    if r.step ≠ 2 then s
    else
      let s1 := (s.setPll m { p with lstate := 2, relock := none, lockFr := s.frame32, phase := 0, inBandAt := s.clk }).lockEvent m r.cause
      let s2 := if m = 2 then s1 else pllSettle m (if p.rstate = 3 then s1.rstTo m 1 0 0 else s1)
      if m = s.serving then
        let s3 := mediaAnew m s2
        outsRelock false { s3 with tm := { s3.tm with frameRun := true } }
      else s2

/-- Listen or Hibernate is entered: every PLL goes off (R408, R415). -/
def pllsOff (event : Bool) (s : State) : State :=
  forUpto 3 (fun m a =>
    let p := a.pll m
    if p.lstate = 0 then a
    else
      let b := a.setPll m { p with lstate := 0, relock := none, refOk := false, corr := 0, hist := [] }
      if event then (b.rstTo m 0 0 (p.phaseNow s.clk)).lockEvent m 8 else b.setPll m { b.pll m with rstate := 0 }) s

/-- On leaving Listen each enabled PLL relocks (R409); at boot MPLL0 starts its first lock (R566). -/
def pllsOn (cause : Nat) (s : State) : State := forUpto 3 (fun m a => if a.pllEn m then relockStart m cause a else a) s

/-- RESET_UNIT of a media PLL (R87). -/
def pllReset (m : Nat) (s : State) : State := if (s.pll m).lstate = 0 then s else relockStart m 4 s

/-- After a device-time step of e ns a ramp keeps its place, and the remaining fraction is slewed out (R399, R401; log 86). -/
def pllAfterStep (e : Int) (s0 : State) : State :=
  let move (p : Pll) : Pll := { p with ramp := p.ramp.map fun r => { r with at0 := (r.at0 + e).toNat } }
  let s := forUpto 2 (fun m a => a.setPll m (move (a.pll m))) s0
  let m := s.serving
  let p := s.pll m
  if s.framing ∧ p.ref = 1 ∧ p.lstate = 2 ∧ !p.following s.nowNs ∧ s.tickPhi ≠ 0 then align m s.tickPhi true s else s

/-! ### Ramps (R403, R419, R420) -/

/-- Duration in µs of a segment from an offset, and whether it was lengthened (R403). -/
def segUs (f : Int) (x : Int × Nat) : Nat × Bool :=
  let need := (x.1 - f).natAbs
  (max (x.2 * 1000) need, decide (x.2 * 1000 < need))

/-- N_EXT and the length of one pass in µs. -/
def passOf : Int → List (Int × Nat) → Nat × Nat
  | _, [] => (0, 0)
  | f, x :: r => let y := passOf x.1 r
                 ((if (segUs f x).2 then 1 else 0) + y.1, (segUs f x).1 + y.2)

def State.rampDone (s : State) (m cause : Nat) : State :=
  s.raise 0x903 (le 1 m ++ le 1 cause ++ le 2 0 ++ le 4 (uns 32 ((s.pll m).off s.nowNs)))

/-- A profile starts at a device time from the offset of that time. -/
def rampStart (m t : Nat) (segs : List (Int × Nat)) (loop ret : Bool) (s0 : State) : State :=
  let s := s0.pllPush m
  let p := s.pll m
  let o := p.off t
  let d := (segUs o (segs.getD 0 (0, 0))).1
  let y := passOf o segs
  s.setPll m { p with
    offset := o, ramp := some { segs := segs, at0 := t, from0 := o, durUs := d, loop := loop, ret := ret },
    nExt := if ret then p.nExt else y.1, total := if ret then p.total else (y.2 + 500) / 1000,
    startFr := if ret then p.startFr else s.frame32 }

/-- A segment has ended: the next one, the profile again, or its end. -/
def segmentEnd (m : Nat) (s0 : State) : State :=
  match (s0.pll m).ramp with
  | none => s0
  | some r =>
    let t := r.at0 + r.durUs * 1000
    let o := (r.segs.getD r.idx (0, 0)).1
    if s0.nowNs < t then s0
    else
      let s := s0.pllPush m
      let p := s.pll m
      let next := if r.idx + 1 < r.segs.length then some (r.idx + 1) else if r.loop then some 0 else none
      match next with
      | some i => s.setPll m { p with offset := o, ramp := some { r with
          idx := i, at0 := t, from0 := o, durUs := (segUs o (r.segs.getD i (0, 0))).1 } }
      | none => pllSettle m ((s.setPll m { p with offset := o, ramp := none }).rampDone m (if r.ret then 3 else 0))

/-- ROP 0 to 2 of RAMP_LOAD take effect at device time t. -/
def rampDo (m t rop : Nat) (segs : List (Int × Nat)) (loop : Bool) (s : State) : State :=
  let p := s.pll m
  if rop = 0 then pllSettle m (rampStart m t segs loop false (if p.ramp.isSome then s.rampDone m 2 else s))
  else if rop = 1 then
    (if p.ramp.isSome then
      let a := s.pllPush m
      pllSettle m ((a.setPll m { a.pll m with offset := p.off t, ramp := none }).rampDone m 1)
    else s)
  else
    let s1 := rampStart m t [(0, 0)] false true s
    if p.off t = 0 then segmentEnd m s1 else s1

def rampLoadLen (p : Packet) : Option Err := lenIs p (24 + 8 * p.u8 18)

def rampSegs (p : Packet) : List (Int × Nat) := (List.range (p.u8 18)).map fun i => (p.s32 (24 + 8 * i), p.u32 (28 + 8 * i))

def rampLoadChk (p : Packet) (_s : State) : Option Err :=
  let n := p.u8 18
  firstErr ([p.within 16 1 0 1, p.within 17 1 0 3,
    need (if p.u8 17 = 0 then decide (1 ≤ n) && decide (n ≤ 16) else decide (n = 0)) 18 n, p.clr 19 1 0xFE, p.zero 20 4] ++
    (List.range n).flatMap fun i =>
      [p.swithinIf true (24 + 8 * i) 4 (-60000000) 60000000, p.within (28 + 8 * i) 4 0 3600000])

/-- The 24 bytes of R420. -/
def rampRec (s : State) (m : Nat) : List Byte :=
  let p := s.pll m
  let seg := match p.ramp with
    | some r => if r.ret then 0xFF else r.idx
    | none => 0xFF
  let lp := match p.ramp with
    | some r => r.loop
    | none => false
  le 1 (flags [p.ramp.isSome, lp]) ++ le 1 seg ++ le 2 p.nExt ++ le 4 (uns 32 (p.off s.nowNs)) ++ le 4 p.total ++
  le 4 p.startFr ++ le 8 0

def rampLoadApply (id : Nat) (p : Packet) (t : Nat) (s : State) : State :=
  let m := p.u8 16
  let s1 :=
    if p.u8 17 = 3 then s
    else if s.inListen then s.setPll m { s.pll m with rampStored := some (p.u8 17, rampSegs p, bit (p.u8 19) 0) }
    else rampDo m t (p.u8 17) (rampSegs p) (bit (p.u8 19) 0) s
  s1.finishOk id (rampRec s1 m) t

/-- Ramp commands stored in Listen start at the first frame of Idle or Run (R420). -/
def rampsStored (t : Nat) (s : State) : State :=
  forUpto 2 (fun m a => match (a.pll m).rampStored with
    | none => a
    | some (rop, segs, lp) => rampDo m t rop segs lp (a.setPll m { a.pll m with rampStored := none })) s

/-- PULL_RAMP_END (R402). -/
def pullEndStep (m : Nat) (s : State) : State :=
  let p := s.pll m
  if p.pulling ∧ p.pullAt s.clk s.nowNs = pullDep p.pull then
    let a := s.pllPush m
    pllSettle m (a.setPll m { a.pll m with pulling := false })
  else s

/-! ### Base-rate change (R35, R328, R410) -/

/-- What blocks a base rate: AUX and DETAIL of R35. -/
def State.rateBlock (s : State) (rate : Nat) : Option (Nat × Nat) :=
  let src (i : Nat) : Bool := !s.srcAt rate i
  let r1 : Option (Nat × Nat) := (s.routes.find? fun e => s.dstOk e.1 && e.2.configured src (!s.dstAt rate e.1)).map fun e => (1, e.1)
  let r2 : Option (Nat × Nat) := (s.mix.find? fun e =>
    (e.2.configured && decide (s.capAt rate 4096 ≤ e.1)) || src e.2.src || src e.2.ssrc ||
      (match e.2.shadow with
        | some h => src h.src
        | none => false)).map fun e => (2, e.1)
  let r5 : Option (Nat × Nat) := (s.lines.find? fun e =>
    decide (s.capAt rate 128 ≤ e.1) && (e.2.region.isSome || e.2.unbindJob.isSome)).map fun e => (5, e.1)
  let r6 : Option (Nat × Nat) := (s.asrc.find? fun e =>
    e.2.owner.isSome && decide (96000 < rate) && decide (16 ≤ e.1 % 32)).map fun e => (6, e.1)
  [r1, r2, s.txGone rate, s.rxGone rate, r5, r6, s.txBig rate, s.rxBig rate, s.rxNoFit rate].findSome? id

/-- The packet asks for another base rate than the present one. -/
def State.rateNew (s : State) (p : Packet) : Bool := decide (p.u8 16 < 2) && bit (p.u8 17) 6 && decide (rateOf (p.u8 27) ≠ s.tm.rate)

/-- Checks of a RATE by their place in R46: state, running change, capacity (R410). -/
def rateState (p : Packet) (s : State) : Option Err :=
  let f := famOf (rateOf (p.u8 27))
  let enF := if p.u8 16 = f ∧ bit (p.u8 17) 0 then bit (p.u8 18) 0 else s.pllEn f
  stateIf (s.rateNew p && (if s.inListen then !enF else decide ((s.pll f).lstate ≠ 2))) f
def rateBusy (p : Packet) (s : State) : Option Err :=
  match s.rateChg with
  | some c => failIf (s.rateNew p && !c.stored) { status := stBusy }
  | none => none
def rateFull (p : Packet) (s : State) : Option Err :=
  if s.rateNew p then (s.rateBlock (rateOf (p.u8 27))).map fun b => { status := stNoResource, aux := b.1, detail := b.2 } else none

/-- Step 1 of R410, from the boundary of the frame in which the command applies; a change that starts before another has made
its rate takes that one's place, and both commands complete at B(s) (log 90). -/
def rateStart (jobs : List Nat) (rate : Nat) (s : State) : State :=
  let before := (s.rateChg.map (·.jobs)).getD []
  outsRateStart { s with rateChg := some { rate := rate, jobs := before ++ jobs, at0 := s.eng.lastLatch } }

/-- A change stored in Listen starts at the first frame of Idle or Run. -/
def rateStored (s : State) : State :=
  match s.rateChg with
  | some c => if c.stored then rateStart [] c.rate s else s
  | none => s

/-! ### PLL_CFG (R416 to R418) -/

/-- M_OFS (R400). -/
def State.mOfs (s : State) (m : Nat) : Int :=
  if m = s.serving ∧ (s.pll m).ref = 1 ∧ s.tm.mediaSet then
    (s.tm.mediaM : Int) - ((2 * s.tm.frameT * s.tm.rate + 1000000000) / 2000000000 : Nat)
  else 0

/-- The PLL a clock output runs from: 3 the SPLL (R413). -/
def State.ckoPll (s : State) (c : CkoCfg) : Nat := if c.src = 4 then s.serving else if c.src < 3 then c.src else 3

/-- Enabled, and its source is off or relocking (R414). -/
def State.guarded (s : State) (c : CkoCfg) : Bool :=
  let m := s.ckoPll c
  bit c.cfl 0 && decide (m < 3) && decide ((s.pll m).lstate ≠ 2)

/-- PHASE_NS: 0 in free run only (R417). -/
def State.phaseNs (s : State) (m : Nat) : Int :=
  let p := s.pll m
  if p.rstate = 0 ∨ m = 2 then 0
  else if p.rstate = 5 then p.phaseNow s.clk
  else if p.rstate = 2 then clampI (-50) 50 (s.measurePhi m)
  else s.measurePhi m

/-- A guard of an output or of a master port acts for a PLL (R407, R414, R431). -/
def State.guardOn (s : State) (m : Nat) : Bool :=
  s.framing && ((List.range 8).any fun k => s.guarded (s.cko k).now && decide (s.ckoPll (s.cko k).now = m)) ||
  (List.range 4).any fun p => decide ((s.tp p).st = 4) && decide (s.tpPll p = m)

/-- The 40 bytes of R417. -/
def pllRec (s : State) (m : Nat) : List Byte :=
  let p := s.pll m
  let left := if p.rstate = 5 then ceilDiv (p.slewAt + p.slewNs - s.clk) 1000000 else 0
  le 1 p.lstate ++ le 1 (if m = 2 then 0 else p.rstate) ++
  le 1 (flags [decide (m = s.serving), decide (m < 2) && s.ncoClamps m, decide (s.mOfs m ≠ 0), p.ramp.isSome, s.guardOn m]) ++ le 1 (rateCode s.tm.rate) ++
  le 4 (uns 32 (if m = 2 then 0 else s.pllPpb m)) ++ le 4 (uns 32 (clampI (-0x80000000) 0x7FFFFFFF (s.phaseNs m))) ++ le 8 (uns 64 (s.mOfs m)) ++
  le 4 (satWord p.relockCnt) ++ le 4 (satWord p.refLoss) ++ le 4 p.lockFr ++ le 4 (uns 32 (p.off s.nowNs)) ++
  le 4 (min 0xFFFFFFFF left)

def pllCfgLen (p : Packet) : Option Err := lenIs p 44

/-- Fields of the write mask that must be 0 on the named PLL. -/
def pllWrong (p : Packet) (sel : Bool) (fields : List (Nat × Nat)) : List (Option Err) :=
  if sel then fields.map fun f => p.zero f.1 f.2 else []

def pllCfgChk (p : Packet) (s : State) : Option Err :=
  let m := p.u8 16
  let w := p.u8 17
  let media := decide (m < 2)
  let b (i : Nat) : Bool := media && bit w i
  let a (i : Nat) : Bool := decide (m = 2) && bit w i
  let dep := p.u8 41
  let depOk : Bool := if p.u8 40 = 1 then decide (2 ≤ dep) && decide (dep ≤ 16) && decide (dep % 2 = 0)
    else if p.u8 40 = 2 then decide (1 ≤ dep) && decide (dep ≤ 8) else decide (dep ≤ 16)
  let wm := p.u8 21
  firstErr ([p.within 16 1 0 2, p.clr 18 1 0xFE, p.withinIf (b 1) 19 1 0 6,
    failIf (b 1 && !(if p.u8 19 = 5 then decide (p.u8 20 ≤ 3) else decide (p.u8 20 = 0))) (badParam 20 (p.u8 20)),
    failIf (b 1 && !(if p.u8 19 = 4 then [1, 2, 4].contains wm else decide (wm = 0))) (badParam 21 wm),
    p.withinIf (b 2) 22 1 0 2, p.withinIf (b 3) 23 1 0 2, p.withinIf (b 2) 24 2 20 400, p.withinIf (b 4) 26 1 0 1,
    failIf (b 6 && (decide (rateOf (p.u8 27) = 0) || decide (famOf (rateOf (p.u8 27)) ≠ m))) (badParam 27 (p.u8 27)),
    p.withinIf (b 4) 28 2 1 1000, p.withinIf (b 4) 30 2 1 3600, p.swithinIf (b 1) 32 4 (-1000000) 1000000,
    failIf (a 5) (badParam 17 w), p.withinIf (a 7) 36 4 2000000000 3000000000, p.withinIf (a 7) 40 1 0 2,
    failIf (a 7 && !depOk) (badParam 41 dep), p.withinIf (a 7) 42 1 32 64] ++
    pllWrong p (a 1) [(19, 1), (20, 1), (21, 1), (32, 4)] ++ pllWrong p (a 2) [(22, 1), (24, 2)] ++ pllWrong p (a 3) [(23, 1)] ++
    pllWrong p (a 4) [(26, 1), (28, 2), (30, 2)] ++ pllWrong p (a 6) [(27, 1)] ++
    pllWrong p (b 7) [(36, 4), (40, 1), (41, 1), (42, 1)] ++
    [p.zero 43 1,
     stateIf (bit w 0 && !bit (p.u8 18) 0 && decide (m = s.serving)) m,
     rateState p s,
     match (List.range 8).find? (fun k => let c := (s.cko k).cfg
         decide (c.fmt ≠ 3) && (decide (c.src = m) || (decide (c.src = 4) && decide (m = s.serving)))) with
       | some k => errIf (bit w 0 && !bit (p.u8 18) 0) stBusy k
       | none => none,
     match s.rateChg with
       | some c => failIf (bit w 0 && !bit (p.u8 18) 0 && c.stored && decide (famOf c.rate = m)) { status := stBusy }
       | none => none,
     rateBusy p s, rateFull p s])

/-- EN of a PLL. -/
def setPllEn (m : Nat) (en : Bool) (s : State) : State :=
  let was := s.pllEn m
  let s1 := s.setPll m { s.pll m with en := some en }
  if s.inListen ∨ was = en then s1
  else if en then relockStart m 0 s1
  else
    let a := s1.pllPush m
    let b := (a.setPll m { a.pll m with lstate := 0, relock := none, refOk := false, corr := 0, hist := [] }).rstTo m 0 0 ((a.pll m).phaseNow s.clk)
    tpsGuard m (b.lockEvent m 7)

/-- The reference fields. A new REF_OFS_NS alone moves the instant that is aligned to a tick (R394, R398). -/
def setPllRef (p : Packet) (m : Nat) (s : State) : State :=
  let q := s.pll m
  let fresh := decide (q.ref ≠ p.u8 19) || decide (q.refIdx ≠ p.u8 20) || decide (q.wmul ≠ p.u8 21)
  let before := s.pllCorr m
  let s1 := s.setPll m { q with ref := p.u8 19, refIdx := p.u8 20, wmul := p.u8 21, refOfs := p.s32 32 }
  if fresh ∧ q.lstate ≠ 0 then refSelect m before s1
  else if q.refOk ∧ 4 ≤ q.ref ∧ q.refOfs ≠ p.s32 32 ∧ q.rstate ≠ 3 then
    align m (reducePhi (s1.refHz m) (q.phaseNow s.clk + p.s32 32 - q.refOfs)) false s1
  else s1

/-- NDIV and BW_HZ; a change of NDIV relocks. -/
def setPllDiv (p : Packet) (m : Nat) (s : State) : State :=
  let q := s.pll m
  let s1 := s.setPll m { q with ndiv := p.u8 22, bw := p.u16 24 }
  if q.ndiv ≠ p.u8 22 ∧ q.lstate ≠ 0 then relockStart m 2 s1 else s1

/-- PULL: a move at the slope limit (R402); on a PLL that is off it is in force at its next lock. -/
def setPull (code m : Nat) (s : State) : State :=
  if (s.pll m).pull = code then s
  else
    let a := s.pllPush m
    let q := a.pll m
    pllSettle m (a.setPll m (if q.lstate = 0 then { q with pull := code, lim := { q.lim with pull := pullDep code } }
      else { q with pull := code, pulling := true }))

/-- APLL_HZ and spread; a change of APLL_HZ relocks the APLL (R411), with a cause the spec does not name (log 24). -/
def setApll (p : Packet) (s : State) : State :=
  let q := s.pll 2
  let s1 := s.setPll 2 { q with apllHz := p.u32 36, ssMode := p.u8 40, ssDepth := p.u8 41, ssKhz := p.u8 42 }
  if q.apllHz ≠ p.u32 36 ∧ q.lstate ≠ 0 then (relockStart 2 (Config.freeNat s.freeCtr % 256) s1).bump else s1

def pllCfgApply (id : Nat) (p : Packet) (t : Nat) (s : State) : State :=
  let m := p.u8 16
  let w := p.u8 17
  let media := decide (m < 2)
  let s1 := if bit w 0 then setPllEn m (bit (p.u8 18) 0) s else s
  let s2 := if media && bit w 1 then setPllRef p m s1 else s1
  let s3 := if media && bit w 2 then setPllDiv p m s2 else s2
  let s4 := if media && bit w 3 then setPull (p.u8 23) m s3 else s3
  let s5 := if media && bit w 4 then s4.setPll m { s4.pll m with ret := p.u8 26, pullPpm := p.u16 28, retMax := p.u16 30 } else s4
  let s6 := if media && bit w 5 && decide ((s5.pll m).lstate ≠ 0) then relockStart m 3 s5 else s5
  let s7 := if m = 2 ∧ bit w 7 then setApll p s6 else s6
  let r := rateOf (p.u8 27)
  if media && bit w 6 && decide (r ≠ s.tm.rate) then
    if s.inListen then
      let s8 : State := { s7 with rateChg := some { rate := r, stored := true, at0 := s7.clk } }
      (s8.finishOk id (pllRec s8 m) t).bump
    else rateStart [id] r s7
  else (s7.finishOk id (pllRec s7 m) t).bump

/-! ### Clock outputs (R407, R412 to R414, R421 to R423) -/

/-- Frequency of a source in Hz (R390, R411, R413). -/
def State.srcHz (s : State) (src : Nat) : Nat :=
  let m := if src = 4 then s.serving else src
  if m = 0 then 2949120000 else if m = 1 then 2709504000 else if m = 2 then (s.pll 2).apllHz else 250000000

/-- The nominal output frequency as a fraction (R422). -/
def State.ckoFreq (s : State) (src fmt div : Nat) : Nat × Nat :=
  if fmt = 1 then (div * fam1x (if src = 4 then s.serving else src), 1)
  else if fmt = 3 then (1, 1)
  else if fmt = 4 then (s.tm.rate, max 1 div)
  else (s.srcHz src, max 1 div)

def ckoCfgLen (p : Packet) : Option Err := lenIs p 32

def ckoCfgChk (p : Packet) (s : State) : Option Err :=
  let w := p.u8 17
  let sel := bit w 0
  let src := p.u8 19
  let fmt := p.u8 20
  let lvds := decide (p.u8 21 = 1)
  let div := p.u32 24
  let wid := p.u32 28
  let f := s.ckoFreq src fmt div
  let srcOk := ([[0, 1, 2, 3, 4], [0, 1, 4], [0, 1, 2, 3, 4], [3], [4]].getD fmt []).contains src
  let divOk : Bool := if fmt = 0 then decide (4 ≤ div) else if fmt = 1 then [1, 2, 4].contains div
    else if fmt = 3 then decide (div = 0) else decide (1 ≤ div)
  let widOk : Bool := if fmt = 0 ∨ fmt = 1 then decide (wid = 0)
    else decide (10 ≤ wid) && decide (wid * f.1 < 1000000000 * f.2) &&
      (!(decide (src < 2) || decide (src = 4)) || decide (wid ≤ 1000000))
  firstErr [p.within 16 1 0 7, p.clr 17 1 0xFE, p.clr 18 1 0xF8, p.withinIf sel 20 1 0 4, p.withinIf sel 19 1 0 4,
    failIf (sel && !srcOk) (badParam 19 src), p.withinIf sel 21 1 0 1,
    failIf (sel && lvds && decide (p.u8 16 < 6)) (badParam 21 1), p.withinIf sel 22 1 0 2, p.withinIf sel 23 1 0 2,
    failIf (sel && (!divOk || decide ((if lvds then 400000000 else 100000000) * f.2 < f.1))) (badParam 24 div),
    failIf (sel && !widOk) (badParam 28 wid)]

/-- HOLD above 62.5 MHz acts as STOP (R407). -/
def State.holdStops (s : State) (c : CkoCfg) : Bool :=
  let f := s.ckoFreq c.src c.fmt c.div
  decide (c.guard = 1) && decide (62500000 * f.2 < f.1)

/-- The 16 bytes of R422. -/
def ckoRec (s : State) (k : Nat) : List Byte :=
  let o := s.cko k
  let c := o.now
  let g := s.guarded c && s.framing
  let stops := decide (c.guard = 0) || s.holdStops c
  let f := s.ckoFreq o.cfg.src o.cfg.fmt o.cfg.div
  le 1 (flags [s.framing && bit c.cfl 0 && !(g && stops), g, s.holdStops c]) ++ le 1 (b2n s.env.ckBank33) ++ le 2 0 ++
  le 4 ((2 * f.1 + f.2) / (2 * f.2)) ++ le 4 o.applyFr ++ le 4 0

def ckoCfgApply (id : Nat) (p : Packet) (t : Nat) (s : State) : State :=
  let k := p.u8 16
  let c : CkoCfg := { cfl := p.u8 18, src := p.u8 19, fmt := p.u8 20, iostd := p.u8 21, guard := p.u8 22, drive := p.u8 23,
                      div := p.u32 24, width := p.u32 28 }
  let s1 := if bit (p.u8 17) 0 then s.setCko k { s.cko k with cfg := c, dirty := true, applyFr := s.frame32 } else s
  s1.finishOk id (ckoRec s1 k) t

/-- CKO_APPLY: the output's next low phase (R414). -/
def ckoApplyStep (k : Nat) (s : State) : State :=
  let o := s.cko k
  if o.dirty then s.setCko k { o with now := o.cfg, dirty := false } else s

def execMpllRefLoss (dt : Nat) (m : Nat) (s : State) : Host.Outcome State Fault Refusal :=
  run (.mpllRefLoss dt m) s (refLossStep m)

def execMpllRefReturn (dt : Nat) (m : Nat) (phi : Int) (ppb : Int) (s : State) : Host.Outcome State Fault Refusal :=
  run (.mpllRefReturn dt m phi ppb) s (refReturnStep m phi ppb)

def execMpllPhaseLock (dt : Nat) (m : Nat) (s : State) : Host.Outcome State Fault Refusal :=
  run (.mpllPhaseLock dt m) s (phaseLockStep m)

def execPhaseSlewEnd (dt : Nat) (m : Nat) (s : State) : Host.Outcome State Fault Refusal :=
  run (.phaseSlewEnd dt m) s (phaseSlewEndStep m)

def execMpllLossOfLock (dt : Nat) (m : Nat) (s : State) : Host.Outcome State Fault Refusal :=
  run (.mpllLossOfLock dt m) s (lossOfLockStep m)

def execMpllRelockStep (dt : Nat) (m : Nat) (s : State) : Host.Outcome State Fault Refusal :=
  run (.mpllRelockStep dt m) s (relockStep m)

def execRampSegmentEnd (dt : Nat) (m : Nat) (s : State) : Host.Outcome State Fault Refusal :=
  run (.rampSegmentEnd dt m) s (segmentEnd m)

def execPullRampEnd (dt : Nat) (m : Nat) (s : State) : Host.Outcome State Fault Refusal :=
  run (.pullRampEnd dt m) s (pullEndStep m)

def execCkoApply (dt : Nat) (k : Nat) (s : State) : Host.Outcome State Fault Refusal :=
  run (.ckoApply dt k) s (ckoApplyStep k)

end Sys2Proof.Machine
end

