-- ==== Sys2Proof/Machine/Tdm.lean ====
section
/-!
DEFINITION. Serial audio ports, the ASRC, TDM_CFG, ASRC_CFG, and the base-rate change (12 R424 to R441, 11 R410).
-/
namespace Sys2Proof.Machine
open Sys2Proof

/-- Bits of a slot (R438). -/
def slotBits (w : Nat) : Nat := [16, 24, 32].getD w 32

/-- BCLK cycles per frame (R426). -/
def Tp.bpf (t : Tp) : Nat := t.nslot * slotBits t.width

/-- A whole divider makes a master's BCLK from a family (R426). -/
def dividerOk (bpf rate f : Nat) : Bool :=
  let k := rate / fam1x f
  decide (rate = k * fam1x f) && [1, 2, 4].contains k && decide (61440 % max 1 (bpf * k) = 0)

/-- The master clock of a port is possible at the present base rate. -/
def State.tpClockOk (s : State) (t : Tp) : Bool :=
  decide (t.bpf * s.tpRate t ≤ 49152000) &&
  (decide (t.role = 0) || dividerOk t.bpf (s.tpRate t) (if t.clk = 1 then t.msrc else s.serving))

/-- The frame period in ns. -/
def State.frameNs (s : State) : Nat := (2 * 1000000000 + s.tm.rate) / (2 * s.tm.rate)

/-- Where a configured port begins (R431). -/
def State.tpBegin (s : State) (p : Nat) : State :=
  let t := s.tp p
  if t.tfmt = 0 ∨ !s.framing then s.tpTo p 0
  else if t.role = 0 then s.tpTo p 1
  else if !s.tpClockOk t then s.tpTo p 3
  else s.tpTo p (if (s.pll (s.tpPll p)).lstate = 2 then 2 else 4)

/-- Guarded ports run again at the first frame boundary after lock (R431). -/
def tpsUnguard (s : State) : State :=
  forUpto 4 (fun p a => if (a.tp p).st = 4 ∧ (a.pll (a.tpPll p)).lstate = 2 then a.tpTo p 2 else a) s

/-- Listen is entered, where the gains of the ASRC end at 0, and left (R436). -/
def tpsOff (s : State) : State :=
  let s1 := forUpto 4 (fun p a => (a.setTp p { a.tp p with good := 0, bad := 0, clkOk := false, mhz := 0 }).tpTo p 0) s
  { s1 with asrc := tmap (fun a => { a with tail := none, fade := { m := 0, t := 0 } }) s1.asrc }
def tpsOn (s : State) : State := forUpto 4 (fun p a => if (a.tp p).tfmt = 0 then a else a.tpBegin p) s

/-! ### Samples (R425, R428 to R430, R434) -/

/-- A slot's code as a sample, and a sample as a slot's code (R41). -/
def slotIn (w x : Nat) : Int := sgn 32 (x % 2 ^ slotBits w * 2 ^ (32 - slotBits w))
def slotOut (w : Nat) (x : Int) : Int := narrow x (32 - slotBits w)

/-- The slots of a port's frame: driven ones rounded to their width, the others zero (R41, R425, R432). -/
def Tp.outSlots (t : Tp) (x : Nat → Int) : List Int :=
  (List.range 16).map fun i => if bit t.outMask i ∧ i < t.nslot then slotOut t.width (x i) else 0

/-- The slot a channel converts: the one it still falls on, else its own. -/
def Asrc.slot (a : Asrc) : Option (Nat × Nat) := if a.tail.isSome then a.tail else a.owner

/-- The channel of a direction that converts slot i of port p, or falls on it: 0 in, 32 out. -/
def State.asrAt (s : State) (base p i : Nat) : Option (Nat × Asrc) :=
  s.asrc.find? fun e => decide (e.1 / 32 * 32 = base) && decide (e.2.slot = some (p, i))

/-- G_a in ns (R433). -/
def gaNs (prate : Nat) : Nat := 1000000 + (2 * 64000000000 + prate) / (2 * max 1 prate)

/-- A channel's signal at an instant, interpolated between the samples next to it: the conversion itself is open (R434). -/
def Asrc.read (a : Asrc) (at0 : Int) : Int :=
  match a.hist.findIdx? fun e => decide ((e.1 : Int) ≤ at0) with
  | none => 0
  | some i =>
    let t0 := (a.hist.getD i (0, 0)).1
    let t1 := (a.hist.getD (i - 1) (0, 0)).1
    interpQ (at0 - t0).toNat (max 1 (t1 - t0)) (((a.hist.drop (i - 32)).take 64).map (·.2))

/-- The converted sample of a channel at an instant, times its gain (R434, R435). -/
def Asrc.sample (a : Asrc) (at0 : Int) : Int := if a.gain ≤ 0 then 0 else scale62 a.gain.toNat (a.read at0)

/-- The gains of the ASRC move by one performed frame (R30, R435); a released channel is free once its gain is 0. -/
def asrcFrame (s : State) : State :=
  let move (a : Asrc) : Asrc :=
    let f := if a.fade.n ≤ a.fade.k then a.fade else a.fade.adv
    { a with fade := f, tail := if f.n ≤ f.k ∧ f.t = 0 then none else a.tail }
  { s with asrc := tmap move s.asrc }

/-- A port's samples of a direction enter its channels with the clk they stand for; they reach back beyond G_a. -/
def asrcFeed (base p t : Nat) (x : List Int) (s : State) : State :=
  { s with asrc := s.asrc.map fun e => match e.2.slot with
      | some (q, i) => if e.1 / 32 * 32 = base ∧ q = p then (e.1, { e.2 with hist := (t, x.getD i 0) :: e.2.hist.take 511 }) else e
      | none => e }

/-- What SDO of a port carries in a slot: none at high impedance (R425, R431). -/
def State.sdo (s : State) (p i : Nat) : Option Int :=
  let t := s.tp p
  let idle : Option Int := if bit t.tfl 4 then none else some 0
  if t.st = 0 then none
  else if t.st = 4 then some 0
  else if t.st = 2 ∧ bit t.outMask i ∧ i < t.nslot then some (t.outNow.getD i 0)
  else idle

/-- TIN sample of slot i of port p in the input set latched last; a converted one stands for B(n) - G_a (R434). -/
def State.tinSample (s : State) (p i : Nat) : Int :=
  let t := s.tp p
  if t.clk = 0 then t.inNow.getD i 0
  else match s.asrAt 0 p i with
    | some (_, a) => if bit t.inMask i then a.sample ((s.eng.lastLatch : Int) - gaNs t.prate) else 0
    | none => 0

/-- A slip counted; the deadlines of the output are re-centred at the next port frame (R430). -/
def tpSlip (p kind : Nat) (s : State) : State :=
  let t := s.tp p
  let c := satInc 31 t.slip
  (s.setTp p { t with slip := c, outAge := none }).raiseLim 0xA02 p 100000000 (le 1 p ++ le 1 kind ++ le 2 0 ++ le 4 (satWord c))

/-- Input set n of a media-synchronous port: the newest port frame older than the deadline. The deadlines are centred on entry to
running and after a slip, so that the newest port frame half a frame old ends half a frame before its own; what that shift alone
repeats or skips is no further slip (R428 to R430; log 161). -/
def tpLatch (p : Nat) (s : State) : State :=
  let t := s.tp p
  let per := s.frameNs
  let old (d : Nat) : Option (Nat × List Int) := t.frames.find? fun f => decide (f.1 + d ≤ s.clk)
  if t.st ≠ 2 ∨ t.clk = 1 then s
  else if t.role = 1 then
    s.setTp p { t with inNow := ((old (per / 2)).map (·.2)).getD [] }
  else match old (t.inAge.getD (per / 2)) with
    | none => s.setTp p { t with inNow := [] }
    | some (e, smp) =>
      let age := s.clk - e
      let kind : Option Nat := match t.used with
        | none => none
        | some u => if u = e then some 0 else if t.frames.any fun f => decide (u < f.1) && decide (f.1 < e) then some 1 else none
      let mid := ((old (per / 2)).map fun f => s.clk - f.1).getD age
      let s1 := s.setTp p
        (if t.inAge.isNone || kind.isSome then
          { t with inNow := smp, used := if kind.isSome then none else some e, inLag := mid + per, inAge := some (mid - per / 2) }
        else { t with inNow := smp, used := some e, inLag := age + per })
      match kind with
      | some k => tpSlip p k s1
      | none => s1

/-- A frame boundary of port p: inputs latched, the collected output set queued, a master's next port frame begun. -/
def tpFrameOne (p : Nat) (s : State) : State :=
  if (s.tp p).st ≠ 2 then s
  else
    let s1 := tpLatch p s
    let t := s1.tp p
    let set := (List.range 16).map fun i => tget 0 s1.eng.presented (0x220 + 16 * p + i)
    let now : List Int := if t.role = 1 ∧ t.clk = 0 then t.outSlots fun i => (t.outQ.headD (0, [])).2.getD i 0 else t.outNow
    asrcFeed 32 p s1.clk set (s1.setTp p { t with outQ := (s1.clk, set) :: t.outQ.take 3, outNow := now })

/-- All ports at a frame boundary. -/
def tpsFrame (s : State) : State := forUpto 4 tpFrameOne (tpsUnguard s)

/-! ### Port frames (R429 to R431) -/

/-- Rates within a bound in parts per 1000 of a nominal rate in Hz; mHz. -/
def rateNear (mhz hz ppt : Nat) : Bool := decide (((mhz : Int) - (hz * 1000 : Nat)).natAbs ≤ hz * ppt)

/-- A media-synchronous rate within ±0.1 % of the base rate as the serving MPLL gives it (R431). -/
def State.nearBase (s : State) (mhz : Nat) : Bool :=
  let b := s.mhzOf s.serving s.tm.rate
  decide (((mhz : Int) - b).natAbs * 1000 ≤ b)

/-- The port frame that begins carries the newest output set older than its deadline (R429, R432). -/
def tpOutput (p : Nat) (s : State) : State :=
  let t := s.tp p
  if t.clk = 1 then
    s.setTp p { t with outNow := t.outSlots fun i => match s.asrAt 32 p i with
      | some (_, a) => a.sample ((s.clk : Int) - gaNs t.prate)
      | none => 0 }
  else if t.role = 1 then s
  else
    let per := s.frameNs
    match t.outQ.find? fun q => decide (q.1 + t.outAge.getD (per / 2) ≤ s.clk) with
    | none => s
    | some (c, set) =>
      let age := s.clk - c
      s.setTp p { t with outNow := t.outSlots (fun i => set.getD i 0), outLead := age + per,
                         outAge := some (t.outAge.getD (age - per / 2)) }

/-- The samples of a port frame: masked slots, zero where it is not valid (R425, R431). -/
def Tp.samples (t : Tp) (slots : List Nat) (valid : Bool) : List Int :=
  (List.range 16).map fun i =>
    if valid && bit t.inMask i && decide (i < t.nslot) then slotIn t.width (slots.getD i 0) else 0

/-- TP_FRAME: a port frame has ended and the next begins. -/
def tpFrameStep (p : Nat) (slots : List Nat) (valid : Bool) (mhz : Nat) (s : State) : State :=
  let t := s.tp p
  if t.st = 0 ∨ t.st = 3 ∨ t.st = 4 then s
  else
    let ok := valid || decide (t.role = 1)
    let near := decide (t.role = 1) || (if t.clk = 1 then rateNear mhz t.prate 65 else s.nearBase mhz)
    let good := if ok && near then min 8 (t.good + 1) else 0
    let bad := if ok then 0 else min 4 (t.bad + 1)
    let t1 : Tp := { t with good := good, bad := bad, mhz := mhz, clkOk := ok && rateNear mhz s.tm.rate 60,
                            ferr := if ok then t.ferr else satInc 31 t.ferr }
    let s1 := s.setTp p t1
    if t.st = 1 then (if good = 8 then s1.tpTo p 2 else s1)
    else if bad = 4 ∨ (ok ∧ !near) then s1.tpTo p 1
    else
      let x := t1.samples slots ok
      let start := ((t1.frames.head?).map (·.1)).getD (s1.clk - 1000000000000 / max 1 mhz)
      let s2 := s1.setTp p { t1 with frames := (s1.clk, x) :: t1.frames.take 3 }
      tpOutput p (asrcFeed 0 p start x s2)

/-- TP_CLOCK_LOSS (R431). -/
def tpClockLossStep (p : Nat) (s : State) : State :=
  let t := s.tp p
  if t.role = 1 ∨ t.st = 0 then s
  else (s.setTp p { t with good := 0, bad := 0, clkOk := false, mhz := 0 }).tpTo p 1

/-! ### ASRC channels (R433, R435) -/

/-- A ratio within 0.25 to 4, Q8.24. -/
def ratioOk (r : Nat) : Bool := decide (0x400000 ≤ r) && decide (r ≤ 0x4000000)

/-- ASRC_LOCK. -/
def asrcLockStep (ch ratio : Nat) (s : State) : State :=
  let a := s.asr ch
  if a.st = 1 ∧ ratioOk ratio then (s.setAsr ch { a with ratio := ratio }).asrTo ch 2 else s

/-- ASRC_UNLOCK: the ratio left the range, moved too fast, or came back into the range. -/
def asrcUnlockStep (ch ratio : Nat) (s : State) : State :=
  if (s.asr ch).st = 0 then s else s.asrTo ch (if ratioOk ratio then 1 else 3)

/-- RESET_UNIT of a channel (R87). -/
def asrcReset (ch : Nat) (s : State) : State := if (s.asr ch).st = 0 then s else s.asrTo ch 1

/-- A channel released: its gain falls over 1 ms on its slot (R435). -/
def asrcRelease (ch : Nat) (s : State) : State :=
  let s1 := s.asrTo ch 0
  let a := s1.asr ch
  s1.setAsr ch { a with owner := none, tail := if a.fade.n ≤ a.fade.k ∧ a.fade.t = 0 then none else a.slot }

/-- The free channels of a direction: neither allocated nor falling (R435). -/
def State.asrFree (s : State) (base : Nat) : List Nat :=
  ((List.range s.nAsrc).map (· + base)).filter fun c => (s.asr c).owner.isNone && (s.asr c).tail.isNone

/-- The lowest of some channels taken for a slot; one that still falls does so on its old slot. -/
def asrcTake (can : List Nat) (p i : Nat) (s : State) : State :=
  match can.find? fun c => (s.asr c).owner.isNone with
  | none => s
  | some c =>
    let a := s.asr c
    let s1 := s.setAsr c (if a.tail.isSome then { a with owner := some (p, i) } else { owner := some (p, i) })
    if (s.tp p).st = 2 then s1.asrTo c 1 else s1

/-- The mask of a port's allocated slots in a direction. -/
def State.asrMask (s : State) (base p : Nat) : Nat :=
  maskOf ((List.range 16).filter fun i => s.asrc.any fun e => decide (e.1 / 32 * 32 = base) && decide (e.2.owner = some (p, i)))

/-- The allocated slots of a port in a direction become those of a mask; what the command releases counts as free. -/
def asrcSet (base p mask : Nat) (s : State) : State :=
  let old := s.asrMask base p
  let free := s.asrFree base
  let can := ((List.range s.nAsrc).map (· + base)).filter fun c =>
    free.contains c || (match (s.asr c).owner with
      | some (q, i) => decide (q = p) && !bit mask i
      | none => false)
  let s1 := forUpto 16 (fun i a =>
    if bit old i ∧ !bit mask i then
      match a.asrc.find? fun e => decide (e.1 / 32 * 32 = base) && decide (e.2.owner = some (p, i)) with
      | some (c, _) => asrcRelease c a
      | none => a
    else a) s
  forUpto 16 (fun i a => if bit mask i ∧ !bit old i then asrcTake can p i a else a) s1

/-! ### TDM_CFG (R438, R439) -/

def tdmCfgLen (p : Packet) : Option Err := lenIs p 36

/-- The port the packet would make. -/
def tdmOf (p : Packet) (t : Tp) : Tp :=
  { t with tfmt := p.u8 18, role := p.u8 19, clk := p.u8 20, nslot := p.u8 21, width := p.u8 22, tfl := p.u8 23, msrc := p.u8 24,
           guard := p.u8 25, prate := p.u32 28, inMask := p.u16 32, outMask := p.u16 34 }

def tdmCfgChk (p : Packet) (s : State) : Option Err :=
  let sel := bit (p.u8 17) 0
  let t := tdmOf p {}
  let bpfErr : Err := badParam 21 t.bpf
  let rateOk := decide (8000 ≤ t.prate) && decide (t.prate ≤ 192000) && decide (s.tm.rate ≤ 4 * t.prate) &&
    decide (t.prate ≤ 4 * s.tm.rate)
  firstErr [p.within 16 1 0 3, p.clr 17 1 0xFC, p.withinIf sel 18 1 0 3, p.withinIf sel 19 1 0 1, p.withinIf sel 20 1 0 1,
    failIf (sel && (decide (t.nslot < 2) || decide (16 < t.nslot) ||
      ((decide (t.tfmt = 1) || decide (t.tfmt = 2)) && decide (t.nslot ≠ 2)))) (badParam 21 t.nslot),
    p.withinIf sel 22 1 0 2, p.clr 23 1 0xE0,
    failIf (sel && !(if t.clk = 1 ∧ t.role = 1 then decide (t.msrc ≤ 1) else decide (t.msrc = 0))) (badParam 24 t.msrc),
    p.withinIf sel 25 1 0 2, p.zero 26 2, failIf (sel && decide (t.clk = 0) && decide (t.prate ≠ 0)) (badParam 28 t.prate),
    failIf (sel && decide (2 ^ t.nslot ≤ t.inMask)) (badParam 32 t.inMask),
    failIf (sel && decide (2 ^ t.nslot ≤ t.outMask)) (badParam 34 t.outMask),
    failIf (sel && decide (t.clk = 1) && !rateOk) { bpfErr with ofs := 28 },
    failIf (sel && !s.tpClockOk t) bpfErr,
    errIf (sel && decide ((s.tp (p.u8 16)).clk = 1) && decide (t.clk = 0) && !(s.asrOf (p.u8 16)).isEmpty) stBusy (p.u8 16)]

/-- Named as REF 5 by a media PLL. -/
def State.tpRef (s : State) (p : Nat) : Bool := [0, 1].any fun m => decide ((s.pll m).ref = 5) && decide ((s.pll m).refIdx = p)

/-- Measured rate: a master's from its PLL; under OFF a guarded one follows the VCO, up to 15 % away (R406, R407). -/
def State.tpMhz (s : State) (p : Nat) : Nat :=
  let t := s.tp p
  if t.role = 1 then
    (if t.st = 2 then s.mhzOf (s.tpPll p) (s.tpRate t)
     else if t.st = 4 ∧ t.guard = 2 then s.tpRate t * (870 + Config.freeNat s.freeCtr % 281) else t.mhz)
  else t.mhz

/-- The measured ratio of a port's rate to the base rate, Q8.24 (R434, R440). -/
def State.tpRatio (s : State) (p : Nat) : Nat :=
  let b := s.mhzOf s.serving s.tm.rate
  (2 * s.tpMhz p * 2 ^ 24 + b) / (2 * max 1 b)

/-- The 24 bytes of R439; lag and lead of a master port are 2 frames (R429). -/
def tdmRec (s : State) (p : Nat) : List Byte :=
  let t := s.tp p
  let f := decide (t.clk = 1)
  let two := decide (t.role = 1) && decide (t.st = 2)
  let exact := (2000000000 + s.tm.rate / 2) / s.tm.rate
  le 1 t.st ++ le 1 (flags [decide (t.st = 4), t.clkOk, s.tpRef p]) ++ le 2 t.bpf ++ le 4 (s.tpMhz p) ++
  le 4 (if f then 0 else if two then exact else t.inLag) ++ le 4 (if f then 0 else if two then exact else t.outLead) ++ le 4 (satWord t.slip) ++ le 4 (satWord t.ferr)

/-- A reference lost because its port stopped (R436). -/
def tpRefLost (p : Nat) (s : State) : State :=
  forEach [0, 1] (fun m a => if (a.pll m).ref = 5 ∧ (a.pll m).refIdx = p then refLossStep m a else a) s

def tdmCfgApply (id : Nat) (p : Packet) (t : Nat) (s : State) : State :=
  let k := p.u8 16
  let old := s.tp k
  let new := tdmOf p old
  let restart := decide ([new.tfmt, new.role, new.clk, new.nslot, new.width, new.prate] ≠
    [old.tfmt, old.role, old.clk, old.nslot, old.width, old.prate])
  let s1 :=
    if !bit (p.u8 17) 0 then s
    else if restart then
      let a := (s.tpTo k 0)
      let b := a.setTp k { tdmOf p (a.tp k) with good := 0, bad := 0, clkOk := false, mhz := 0 }
      (tpRefLost k b).tpBegin k
    else s.setTp k new
  let data := tdmRec s1 k
  (if bit (p.u8 17) 1 then s1.setTp k { s1.tp k with slip := (0, false), ferr := (0, false) } else s1).bump.finishOk id data t

/-- RESET_UNIT of a TP port (R87). -/
def tpReset (k : Nat) (s : State) : State :=
  let s1 := asrcSet 32 k 0 (asrcSet 0 k 0 (s.tpTo k 0))
  tpRefLost k (s1.setTp k {})

/-! ### ASRC_CFG (R440, R441) -/

def asrcCfgLen (p : Packet) : Option Err := lenIs p 24

/-- Channels free in a direction once the command's releases are counted, and those it needs. -/
def State.asrNeed (s : State) (base p mask : Nat) : Nat × Nat :=
  let old := s.asrMask base p
  ((s.asrFree base).length + (maskBits old 16).length, (maskBits mask 16).length)

def asrcCfgChk (p : Packet) (s : State) : Option Err :=
  let k := p.u8 16
  let w := p.u8 17
  let lack (base o aux : Nat) : Option Err :=
    let n := s.asrNeed base k (p.u16 o)
    let free := n.1 - (maskBits (s.asrMask base k &&& p.u16 o) 16).length
    failIf (bit w 0 && decide (n.1 < n.2)) { status := stNoResource, aux := aux, detail := free }
  firstErr [p.within 16 1 0 3, p.clr 17 1 0xFC,
    failIf (bit w 0 && decide (2 ^ (s.tp k).nslot ≤ p.u16 18)) (badParam 18 (p.u16 18)),
    failIf (bit w 0 && decide (2 ^ (s.tp k).nslot ≤ p.u16 20)) (badParam 20 (p.u16 20)),
    p.withinIf (bit w 1) 22 1 1 50, p.zero 23 1,
    stateIf (decide ((s.tp k).clk = 0)) k, lack 0 18 0, lack 32 20 1]

/-- Result of ASRC_CFG. -/
def asrcRec (s : State) (k : Nat) : List Byte :=
  let list (base : Nat) : List (Nat × Asrc × Nat) := (List.range 16).filterMap fun i =>
    (s.asrc.find? fun e => decide (e.1 / 32 * 32 = base) && decide (e.2.owner = some (k, i))).map fun e => (e.1, e.2, i)
  let all := list 0 ++ list 32
  le 1 all.length ++ le 1 (s.asrFree 0).length ++ le 1 (s.asrFree 32).length ++ le 1 0 ++ le 4 (gaNs (s.tp k).prate) ++
  all.flatMap fun e => le 1 e.1 ++ le 1 (e.2.2 + 128 * (e.1 / 32)) ++ le 1 e.2.1.st ++ le 1 0 ++ le 4 (if e.2.1.st = 2 then s.tpRatio k else 0)

def asrcCfgApply (id : Nat) (p : Packet) (t : Nat) (s : State) : State :=
  let k := p.u8 16
  let w := p.u8 17
  let s1 := if bit w 1 then s.setTp k { s.tp k with rise := p.u8 22 } else s
  let s2 := if bit w 0 then asrcSet 32 k (p.u16 20) (asrcSet 0 k (p.u16 18) s1) else s1
  s2.finishOk id (asrcRec s2 k) t

/-! ### RATE_CHANGE_APPLY (R410 step 2) -/

/-- Ports and ASRC channels at a new base rate (R431, R435). -/
def tpsRate (s : State) : State :=
  let s1 := forUpto 4 (fun p a =>
    let t := a.tp p
    if t.role = 1 ∧ t.st ≠ 0 then a.tpBegin p else a) s
  forEach (s1.asrc.map (·.1)) (fun c a => if (a.asr c).st = 0 then a else a.asrTo c 1) s1

/-- B(s) has come: RATE_CHANGE is raised and the commands complete there (R410). -/
def rateLands (s : State) : State :=
  match s.rateChg with
  | some c =>
    if !c.applied then s
    else
      let s1 := ({ s with rateChg := none }).raise 0x904 (le 4 s.tm.rate ++ le 4 s.frame32)
      (forEach c.jobs (fun id a => a.finishOk id (pllRec s1 s.serving) s1.nowNs) s1).bump
  | none => s

/-- The first qualifying tick at or after t0 + 1 ms: the boundary that follows, B(s), begins the first frame at the new rate and
is a tick; where the family changes, the groups are muted by the new MPLL's relock alone (R284, R410). -/
def rateApplyStep (s : State) : State :=
  match s.rateChg with
  | none => s
  | some c =>
    if c.applied ∨ c.stored ∨ !s.framing ∨ s.clk < c.at0 + 1000000 ∨ (s.pll (famOf c.rate)).lstate ≠ 2 then s
    else
      let old := s.tm.rate
      let s0 := if famOf old = famOf c.rate then s else outsRelock false s
      let s1 : State := { s0 with rateChg := some { c with applied := true },
                                  tm := { s0.tm with rate := c.rate, tick := tickLen c.rate - 1, mediaSet := false } }
      let s2 := forEach (s1.ains.map (·.1)) (fun ch a =>
        let x := a.ain ch
        if x.powered then a.setAin ch (x.sync (a.tm.frame + 1)) else a) (outsRateApply old c.rate s1)
      tpsRate (streamsRate s2)

def execTpFrame (dt : Nat) (p : Nat) (slots : List Nat) (valid : Bool) (mhz : Nat) (s : State) : Host.Outcome State Fault Refusal :=
  run (.tpFrame dt p slots valid mhz) s (tpFrameStep p slots valid mhz)

def execTpClockLoss (dt : Nat) (p : Nat) (s : State) : Host.Outcome State Fault Refusal :=
  run (.tpClockLoss dt p) s (tpClockLossStep p)

def execAsrcLock (dt : Nat) (ch : Nat) (ratio : Nat) (s : State) : Host.Outcome State Fault Refusal :=
  run (.asrcLock dt ch ratio) s (asrcLockStep ch ratio)

def execAsrcUnlock (dt : Nat) (ch : Nat) (ratio : Nat) (s : State) : Host.Outcome State Fault Refusal :=
  run (.asrcUnlock dt ch ratio) s (asrcUnlockStep ch ratio)

def execRateChangeApply (dt : Nat) (s : State) : Host.Outcome State Fault Refusal :=
  run (.rateChangeApply dt) s rateApplyStep

end Sys2Proof.Machine
end

