-- ==== Sys2Proof/Machine/Listen.lean ====
section
/-!
DEFINITION. The Listen path, its history, voice activity, the phrase engine, LST, Privet, LISTEN_CFG, MODEL_LOAD and
HISTORY_READ (13 R442 to R473).
-/
namespace Sys2Proof.Machine
open Sys2Proof

/-- CRC-32 of IEEE 802.3, one bit and one byte at a time. -/
def crcBit (c : Nat) : Nat := if c % 2 = 1 then c / 2 ^^^ 0xEDB88320 else c / 2
def crcByte (c : Nat) (b : Byte) : Nat := (List.range 8).foldl (fun a _ => crcBit a) (c ^^^ b.toNat)
def crc32 (bs : List Byte) : Nat := bs.foldl crcByte 0xFFFFFFFF ^^^ 0xFFFFFFFF

/-! ### Path and history (R442, R445, R446) -/

/-- The Listen path runs. -/
def State.listenRuns (s : State) : Bool :=
  s.alive && (decide (s.pwr.pstate = .listen) || decide (s.pwr.pstate = .idle) || decide (s.pwr.pstate = .run))

/-- First byte of index i's sample of channel n in the Firkin: region 255 begins at bushel 3,013 (R241). -/
def histAt (i n : Nat) : Nat := 3013 * 4096 + i % 40277 * 6 + 3 * n

/-- Sample of index i of channel n as the history holds it, 24 bits. -/
def State.hist (s : State) (i n : Nat) : Int := sgn 24 (unle (mreads s.fk (histAt i n) 3))

/-- Newest and oldest readable index (R446); 0 before the first sample. -/
def State.idxNow (s : State) : Nat := s.ls.idx - 1
def State.idxOld (s : State) : Nat := s.ls.idx - 40000

def State.chEn (s : State) (n : Nat) : Bool := bit s.ls.en n
def Listen.vad (l : Listen) (n : Nat) : Vad := if n = 0 then l.vad0 else l.vad1
def Listen.setVad (l : Listen) (n : Nat) (v : Vad) : Listen := if n = 0 then { l with vad0 := v } else { l with vad1 := v }

/-- The phrase engine runs (R450, R451). -/
def State.phRuns (s : State) : Bool :=
  decide (s.part.variant ≠ .n) && bit s.ls.pfl 0 && decide (s.ls.mstate = 2)

/-- Listen samples that F7 delays the signal by, pin to history: index i was at the pin that many samples before (R133, R445). -/
def f7Delay : Nat := groupDelay 7 / 1024

/-- Modulator samples of a Listen channel with those of one more sample period, newest first; none while it is off or its
clock is gated (R442, R459). -/
def State.f7In (s : State) (n : Nat) (old m : List Int) : List Int :=
  if s.chEn n && !s.priv then m.reverse ++ old.take (64 * (settleCount 7 - 1)) else []

/-- A Listen sample: past F7, held at full scale, exact zero while the channel is off, under Privet or settling (R442). -/
def State.f7Sample (s : State) (n settle : Nat) (mods : List Int) : Int :=
  if s.chEn n && !s.priv && decide (settle = 0) then clampI (-8388608) 8388607 (Config.f7Out mods) else 0

/-- Index i settled: it joins the newest run or begins one; runs that have left the history go (R442). -/
def zerosAdd (i : Nat) (l : List (Nat × Nat)) : List (Nat × Nat) :=
  let old := l.filter fun r => decide (i < r.2 + 41000)
  match old with
  | (a, b) :: r => if b = i then (a, i + 1) :: r else (i, i + 1) :: old
  | [] => [(i, i + 1)]

/-- An index of channel n is flagged SETTLE (R442). -/
def Listen.settled (l : Listen) (n i : Nat) : Bool :=
  (if n = 0 then l.zeros0 else l.zeros1).any fun r => decide (r.1 ≤ i) && decide (i < r.2)

/-- LISTEN_SAMPLE: one sample period of both channels, from 64 modulator samples each (R442, R445, R446). -/
def listenSampleStep (m0 m1 : List Int) (s : State) : State :=
  if !s.listenRuns then s
  else
    let l := s.ls
    let y0 := s.f7In 0 l.mod0 m0
    let y1 := s.f7In 1 l.mod1 m1
    let x0 := s.f7Sample 0 l.settle0 y0
    let x1 := s.f7Sample 1 l.settle1 y1
    let down (n st : Nat) : Nat := if s.chEn n && !s.priv then st - 1 else st
    let acc (n : Nat) (d : Vad) (x : Int) : Vad :=
      if s.chEn n then { d with sum := d.sum + x.natAbs * x.natAbs, cnt := d.cnt + 1 } else d
    { s with
      fk := mwrites s.fk (histAt l.idx 0) (le 3 (uns 24 x0) ++ le 3 (uns 24 x1)),
      ls := { l with idx := l.idx + 1, lastAt := s.clk, mod0 := y0, mod1 := y1,
                     settle0 := down 0 l.settle0, settle1 := down 1 l.settle1,
                     zeros0 := if down 0 l.settle0 = l.settle0 then l.zeros0 else zerosAdd l.idx l.zeros0,
                     zeros1 := if down 1 l.settle1 = l.settle1 then l.zeros1 else zerosAdd l.idx l.zeros1,
                     vad0 := acc 0 l.vad0 x0, vad1 := acc 1 l.vad1 x1,
                     hopCnt := if s.phRuns then l.hopCnt + 1 else l.hopCnt } }

/-- The clock source R443 gives: 0 crystal, 1 MPLL0, 2 MPLL1. -/
def State.listenSrc (s : State) : Nat :=
  if s.framing ∧ (s.pll s.serving).lstate = 2 then s.serving + 1 else 0

/-! ### Candidates (R451) -/

/-- An open candidate closes otherwise than by detection. -/
def candDrop (s : State) : State :=
  if s.ls.cand then { s with ls := { s.ls with cand := false, candLow := none, drop := satInc 31 s.ls.drop } } else s

/-- Without a phrase engine a candidate is open while an onset is held on an enabled channel. -/
def candFollow (s : State) : State :=
  if s.phRuns then s
  else
    let want := (s.chEn 0 && s.ls.vad0.onset) || (s.chEn 1 && s.ls.vad1.onset)
    if want = s.ls.cand then s
    else if want then { s with ls := { s.ls with cand := true, candLow := none } } else candDrop s

/-- The phrase engine stops or starts afresh: its candidate is dropped (R447, R469). -/
def phRestart (s : State) : State :=
  let s1 := candDrop s
  { s1 with ls := { s1.ls with hopCnt := 0, score := 0, phSt := 0, candLow := none } }

/-! ### Voice activity (R449) -/

def State.vadEvent (s : State) (n : Nat) (on : Bool) (idx : Nat) : State :=
  s.raise 0xB01 (le 1 n ++ le 1 (b2n on) ++ le 2 0 ++ le 8 idx)

/-- An onset that is held ends. -/
def vadEnd (n : Nat) (s : State) : State :=
  let d := s.ls.vad n
  if d.onset then
    ({ s with ls := s.ls.setVad n { d with onset := false, voiced := 0, quiet := 0 } } : State).vadEvent n false (s.ls.idx - d.cnt)
  else s

/-- A channel's detector starts again. -/
def vadRestart (n : Nat) (s : State) : State :=
  let s1 := vadEnd n s
  { s1 with ls := s1.ls.setVad n {} }

/-- Energy of a block re full scale, where full-scale DC is 0 dB, in 2^-16 centi-dB (R40, R449). -/
def energyDb (sum : Nat) : Int := (cdbQ sum 46 - cdbQ 160 0) / 2
def blockLevel (sum : Nat) : Int := if sum = 0 then min (energyDb 1 - 1) Config.silentLevel else energyDb sum

/-- One channel's block of 10 ms; under Privet the detector sees zero (R461). -/
def vadOne (n : Nat) (s : State) : State :=
  let l := s.ls
  let d := l.vad n
  if !s.chEn n || decide (d.cnt < 160) then s
  else
    let lvl := blockLevel (if s.priv then 0 else d.sum)
    let est := d.noise.getD (Config.freshNoise s.freeCtr)
    let up := decide (est + 6553600 * l.vadSnr ≤ lvl) && decide (6553600 * l.vadMin ≤ lvl)
    let voiced := if up then min 2 (d.voiced + 1) else 0
    let quiet := if up then 0 else min l.vadHang (d.quiet + 1)
    let on := if d.onset then decide (quiet < l.vadHang) else decide (voiced = 2)
    let d1 : Vad := { noise := some (if lvl < est then lvl else min lvl (est + 196608)), voiced := voiced, quiet := quiet, onset := on }
    let s1 : State := ({ s with ls := l.setVad n d1 } : State).bump
    if on = d.onset then s1 else s1.vadEvent n on (l.idx - d.cnt)

/-- VAD_BLOCK. -/
def vadBlockStep (s : State) : State := if s.listenRuns then candFollow (vadOne 1 (vadOne 0 s)) else s

/-! ### Phrase detection (R450 to R452) -/

/-- PHRASE_HOP up to the detection: the engine takes the hop's samples, zeros under Privet, and its score moves the candidate;
whether it reached DET_THR for the first time (R450 to R452, R461). -/
def phraseHopCore (s : State) : State × Option Nat :=
  let l := s.ls
  if !s.listenRuns || !s.phRuns || decide (l.hopCnt < max 1 l.hop) then (s, none)
  else
    let first := l.idx - l.hopCnt
    let x := (List.range l.hop).map fun k => s.hist (first + k) (b2n (bit l.pfl 1))
    let ph := Config.phraseState l.modelId l.phSt x
    let sc := Config.phraseScore l.modelId ph % 65536
    let s1 : State := { s with ls := { l with hopCnt := l.hopCnt - max 1 l.hop, phSt := ph, score := sc } }
    if l.detThr ≤ sc ∧ l.score < l.detThr then
      ({ s1 with ls := { s1.ls with cand := false, candLow := none, det := satInc 31 l.det } }, some sc)
    else if l.candThr ≤ sc then
      ({ s1 with ls := { s1.ls with cand := l.cand || decide (l.score < l.candThr), candLow := none } }, none)
    else
      let low := if l.cand then some (l.candLow.getD s.clk) else none
      ({ s1 with ls := { s1.ls with candLow := low } }, none)

/-- The PHRASE event; the ends of the phrase are the model's. Its last sample was at the pin no more than 200 ms before, and
END_IDX lies within 160 samples of it (R445, R452). -/
def State.phraseEvent (s : State) (action score : Nat) : State :=
  let b := s.idxNow - Config.phraseSpan s.freeCtr 1 % (3200 - f7Delay + 161)
  let a := b - Config.phraseSpan s.freeCtr 0 % 40000
  (s.raise 0xB02 (le 1 (b2n (bit s.ls.pfl 1)) ++ le 1 action ++ le 2 score ++ le 8 a ++ le 8 b ++ le 4 s.ls.modelId)).bump

/-- CANDIDATE_TIMEOUT: the score has stayed below CAND_THR for 200 ms. -/
def candTimeoutStep (s : State) : State :=
  match s.ls.candLow with
  | some t => if s.ls.cand ∧ t + 200000000 ≤ s.clk then candDrop s else s
  | none => s

/-! ### LST (R456, R457) -/

def State.lst (s : State) (n : Nat) : Lst := if n = 0 then s.ls.l0 else s.ls.l1
def State.setLst (s : State) (n : Nat) (v : Lst) : State :=
  { s with ls := if n = 0 then { s.ls with l0 := v } else { s.ls with l1 := v } }

/-- LST n starts from the oldest readable index. -/
def lstStart (n : Nat) (s : State) : State :=
  if s.framing ∧ bit s.ls.lstEn n ∧ !(s.lst n).on then
    (s.setLst n { on := true }).raise 0xB04 (le 1 n ++ le 3 0 ++ le 8 s.idxOld)
  else s

/-- The first frame of Idle or Run, and the entry to Listen. -/
def lstsOn (s : State) : State := lstStart 1 (lstStart 0 s)
def lstsOff (s : State) : State := (s.setLst 0 {}).setLst 1 {}

/-- Indices that came in by the boundary the engine works on, and the part in ns of a sample period since the newest of them. -/
def State.lstPlace (s : State) : Nat × Nat :=
  let b := s.eng.lastLatch
  if s.ls.lastAt ≤ b then (s.ls.idx, b - s.ls.lastAt) else (s.ls.idx - 1, b + 62500 - s.ls.lastAt)

/-- LST n's sample in a performed frame, zero while it is off, flagged PRIV under Privet (R459): the signal 40,000 indices behind
the newest and the interpolator's 16 more, between the samples around that place, rising over 1 ms; exact zero where they are
zero, with the flags of the index that enters the interpolator (R442, R456, R457, R461). -/
def lstWork (n : Nat) (s : State) : State × Smp :=
  let l := s.lst n
  if !l.on then (s, { priv := s.priv })
  else
    let k := max 1 (msFrames 1 s.tm.rate)
    let (cnt, part) := s.lstPlace
    let enters := cnt - 40001
    let w := (List.range 32).map fun i => if i + 40001 ≤ cnt then s.hist (enters - i) n * 256 else 0
    let priv := s.priv || decide (enters < s.ls.zeroTo)
    let x : Int := if s.priv || !s.chEn n then 0 else scale62 (rcos l.rise k) (interpQ part 62500 w)
    (s.setLst n { l with rise := min k (l.rise + 1) },
      { v := x, settle := decide (x = 0) && decide (40001 ≤ cnt) && s.ls.settled n enters, priv := priv && decide (x = 0) })

/-! ### Privet (R459, R461 to R463) -/

def State.privEvent (s : State) (on : Bool) : State :=
  s.raise 0xB03 (le 1 (b2n on) ++ le 1 (b2n s.pwr.straps.privScope) ++ le 2 0 ++ le 8 s.ls.idx)

/-- A waiting HISTORY_READ ends with PRIV (R472). -/
def waitsCut (st : Nat) (s : State) : State :=
  s.ls.waits.foldl (fun a w => a.finishErr w.1 { status := st } a.nowNs) { s with ls := { s.ls with waits := [] } }

/-- Privet asserts: the path is cut, the history zeroed, candidate and onsets end, the mic biases fall. A pad change of an input
that PRIV_SCOPE mutes goes on with its search (R121; log 102). -/
def privAssertStep (s : State) : State :=
  if s.priv then s
  else
    let s1 : State := { s with pins := { s.pins with privN := false } }
    if !s1.listenRuns then s1
    else
      let zero (d : Vad) : Vad := { d with sum := 0 }
      let s2 : State := { s1 with fk := mclear s1.fk (3013 * 4096) (3072 * 4096),
                                  ls := { s1.ls with vad0 := zero s1.ls.vad0, vad1 := zero s1.ls.vad1 } }
      let s3 := candDrop (vadEnd 1 (vadEnd 0 s2))
      (jacksCut (waitsCut stPriv s3)).privEvent true

/-- Privet releases: settle periods run, the biases rise, muted AIN channels are reset. -/
def privReleaseStep (s : State) : State :=
  if !s.priv then s
  else
    let s1 : State := { s with pins := { s.pins with privN := true } }
    if !s1.listenRuns then s1
    else
      let n := settleCount 7
      let s2 : State := { s1 with ls := { s1.ls with settle0 := n, settle1 := n, zeroTo := s1.ls.idx + n } }
      let s3 := if s2.pwr.straps.privScope then
        forEach (s2.ains.map (·.1)) (fun c a => let x := a.ain c
          if x.powered then a.setAin c (x.sync a.nextFrame) else a) s2
        else s2
      (jacksUncut s3).privEvent false

/-! ### LISTEN_CFG (R465 to R467) -/

def listenCfgLen (p : Packet) : Option Err := lenIs p 32

def listenCfgChk (p : Packet) (s : State) : Option Err :=
  let w := p.u8 16
  let ph := bit w 2 && bit (p.u8 22) 0
  let cand := if bit w 2 then p.u16 26 else s.ls.candThr
  firstErr [absentIf (ph && decide (s.part.variant = .n)) 22 0, p.clr 16 1 0xC0, p.clr 17 1 0xFC, p.clr 18 1 0xF0,
    failIf (bit w 0 && (decide (p.u8 18 % 4 = 3) || decide (p.u8 18 / 4 % 4 = 3))) (badParam 18 (p.u8 18)),
    p.withinIf (bit w 1) 19 1 3 30, p.swithinIf (bit w 1) 20 1 (-90) (-20), p.withinIf (bit w 1) 21 1 5 200,
    p.clr 22 1 0xFC, p.withinIf (bit w 3) 23 1 0 2, p.withinIf (bit w 2) 26 2 1 65535,
    p.withinIf (bit w 2) 24 2 (max 1 cand) 65535, p.clr 28 1 0xFC, p.zero 29 3,
    stateIf (ph && decide (s.ls.mstate ≠ 2)) 0]

/-- LCH_EN of one channel: an enabled one settles, a disabled one's onset ends (R442, R451). -/
def setChEn (n : Nat) (on : Bool) (s : State) : State :=
  if s.chEn n = on then s
  else if on then
    let l := { s.ls with en := s.ls.en + 2 ^ n, settle0 := if n = 0 then settleCount 7 else s.ls.settle0,
                         settle1 := if n = 1 then settleCount 7 else s.ls.settle1 }
    { s with ls := l.setVad n {} }
  else vadRestart n { s with ls := { s.ls with en := s.ls.en - 2 ^ n } }

/-- The settings a LISTEN_CFG writes. -/
def listenSet (p : Packet) (s : State) : State :=
  let w := p.u8 16
  let s1 := if bit w 0 then
      let a := setChEn 1 (bit (p.u8 17) 1) (setChEn 0 (bit (p.u8 17) 0) s)
      { a with ls := { a.ls with gain := p.u8 18 } }
    else s
  let s2 : State := if bit w 1 then
      { s1 with ls := { s1.ls with vadSnr := p.u8 19, vadMin := p.s8 20, vadHang := p.u8 21 } }
    else s1
  let s3 : State := if bit w 2 then
      let b : State := { s2 with ls := { s2.ls with pfl := p.u8 22, detThr := p.u16 24, candThr := p.u16 26 } }
      if s2.ls.pfl ≠ p.u8 22 ∧ (s2.phRuns ∨ b.phRuns) then phRestart b else b
    else s2
  let s4 : State := if bit w 3 then { s3 with ls := { s3.ls with detAct := p.u8 23 } } else s3
  let s5 : State := if bit w 4 then
      let a : State := { s4 with ls := { s4.ls with lstEn := p.u8 28 } }
      let b := forEach [0, 1] (fun n x => if bit (p.u8 28) n then x else x.setLst n {}) a
      lstsOn b
    else s4
  candFollow s5

/-- The 40 bytes of R466. -/
def listenRec (s : State) : List Byte :=
  let l := s.ls
  let run (n : Nat) : Bool := s.listenRuns && s.chEn n
  le 1 (flags [run 0 || run 1, s.priv, s.phRuns, l.cand, l.vad0.onset, l.vad1.onset]) ++
  le 1 (if s.part.variant = .n then 3 else l.mstate) ++ le 2 0 ++ le 8 s.idxNow ++ le 8 s.idxOld ++ le 4 (satWord l.det) ++
  le 4 (satWord l.drop) ++ le 4 (if s.inListen then 0 else s.frame32) ++
  le 8 (if l.l0.on || l.l1.on then s.idxOld else 0xFFFFFFFFFFFFFFFF)

def listenCfgApply (id : Nat) (p : Packet) (t : Nat) (s : State) : State :=
  let s1 := listenSet p s
  let data := listenRec s1
  let s2 : State := if bit (p.u8 16) 5 then { s1 with ls := { s1.ls with det := (0, false), drop := (0, false) } } else s1
  s2.finishOk id data t

/-! ### MODEL_LOAD (R468 to R470) -/

def modelLoadLen (p : Packet) : Option Err := lenIs p (if p.u8 16 = 1 then (24 + p.u16 18 + 3) / 4 * 4 else 24)

def modelLoadChk (p : Packet) (s : State) : Option Err :=
  let op := p.u8 16
  let got := s.ls.mdata.length
  let loading := decide (s.ls.mstate = 1)
  firstErr [absentIf (decide (s.part.variant = .n)) 0xFFFF 0, p.within 16 1 0 4, p.zero 17 1,
    need (if op = 1 then decide (1 ≤ p.u16 18) && decide (p.u16 18 ≤ 992) else decide (p.u16 18 = 0)) 18 (p.u16 18),
    need (if op = 0 then decide (64 ≤ p.u32 20) && decide (p.u32 20 ≤ 270336) else decide (op = 1) || decide (p.u32 20 = 0)) 20 (p.u32 20),
    failIf (decide (op = 1) && loading && decide (p.u32 20 ≠ got)) (badParam 20 got),
    failIf (decide (op = 1) && loading && decide (s.ls.mlen < p.u32 20 + p.u16 18)) (badParam 18 (p.u16 18)),
    stateIf ((decide (op = 1) || decide (op = 2)) && !loading) s.ls.mstate,
    errIf (decide (op ≠ 4) && s.ls.commitJob.isSome) stBusy 0]

/-- The 16 bytes of R469. -/
def modelRec (s : State) : List Byte :=
  le 1 s.ls.mstate ++ le 3 0 ++ le 4 s.ls.mdata.length ++ le 4 s.ls.modelId ++ le 4 s.ls.mcrc

/-- The model emptied; a begin then loads `len` bytes. A begin drops any candidate; otherwise only the engine's own falls with it
(R451, R469). -/
def modelEmpty (st len : Nat) (s : State) : State :=
  let s1 := if st = 1 ∨ s.phRuns then phRestart s else s
  candFollow { s1 with ls := { s1.ls with mstate := st, mlen := len, mdata := [], modelId := 0, hop := 0, commitJob := none } }

def modelLoadApply (id : Nat) (p : Packet) (t : Nat) (s : State) : State :=
  let op := p.u8 16
  if op = 2 then { s with ls := { s.ls with commitJob := some id } }
  else
    let s1 : State :=
      if op = 0 then modelEmpty 1 (p.u32 20) s
      else if op = 1 then { s with ls := { s.ls with mdata := s.ls.mdata ++ p.bytes 24 (p.u16 18) } }
      else if op = 3 then modelEmpty 0 0 s else s
    s1.finishOk id (modelRec s1) t

/-- What a commit finds wrong (R468, R470); the CRC it computes. -/
def modelFault (l : Listen) : Nat × Nat :=
  let d := l.mdata
  let crc := crc32 (d.drop 28)
  if d.length < l.mlen then (5, crc)
  else if fieldLe d 0 4 ≠ 0x434D5048 then (1, crc)
  else if fieldLe d 4 2 ≠ 1 then (2, crc)
  else if fieldLe d 8 4 ≠ l.mlen ∨ 262144 < fieldLe d 12 4 ∨ 65536 < fieldLe d 16 4 ∨ fieldLe d 20 4 < 80 ∨ 1600 < fieldLe d 20 4 then
    (3, crc)
  else if fieldLe d 24 4 ≠ crc then (4, crc)
  else (0, crc)

/-- MODEL_COMMIT_DONE. -/
def modelCommitStep (s : State) : State :=
  match s.ls.commitJob with
  | none => s
  | some id =>
    let (f, crc) := modelFault s.ls
    if f = 0 then
      let d := s.ls.mdata
      let a : State := { s with ls := { s.ls with
        commitJob := none, mstate := 2, mcrc := crc, modelId := fieldLe d 28 4, hop := fieldLe d 20 4 } }
      let s1 := if a.phRuns then phRestart a else a
      s1.finishOk id (modelRec s1) s1.nowNs
    else
      let s1 := modelEmpty 0 0 { s with ls := { s.ls with mcrc := crc } }
      s1.finishErr id { status := stBadParam, aux := f } s1.nowNs

/-- ABORT of a commit: the model is empty (R469). -/
def modelAbort (id : Nat) (s : State) : State := (modelEmpty 0 0 s).finishAborted id 0 s.nowNs

/-! ### HISTORY_READ (R471 to R473) -/

def historyReadLen (p : Packet) : Option Err := lenIs p 32
def historyReadRight (p : Packet) (port : Nat) : Option Err := failIf (bit (p.u8 17) 0 && decide (port ≠ 1)) { status := stDenied, ofs := 17, detail := 1 }

/-- Channels a mask names. -/
def hChans (p : Packet) : List Nat := maskBits (p.u8 16) 2

def historyReadChk (p : Packet) (s : State) : Option Err :=
  let bulk := bit (p.u8 17) 0
  let n := 3 * (hChans p).length * p.u16 18
  firstErr [need (decide (1 ≤ p.u8 16) && decide (p.u8 16 ≤ 3)) 16 (p.u8 16), p.clr 17 1 0xF8,
    need (decide (1 ≤ p.u16 18) && decide (n ≤ if bulk then 131072 else 976)) 18 (p.u16 18),
    need (if bit (p.u8 17) 2 then decide (p.u 20 8 = 0) else decide (p.u 20 8 ≤ s.ls.idx)) 20 (p.u 20 8),
    need (if bulk then decide (p.u32 28 % 4 = 0) && decide (p.u32 28 + n ≤ 0x20000) else decide (p.u32 28 = 0)) 28 (p.u32 28),
    match (hChans p).find? fun c => !s.chEn c with
      | some c => stateIf true c
      | none => none,
    errIf s.priv stPriv 0]

/-- The read completes from first index `from0` on. -/
def historyDone (id : Nat) (p : Packet) (from0 t : Nat) (s : State) : State :=
  let first := max from0 s.idxOld
  let n := min (p.u16 18) (s.ls.idx - first)
  let data := (List.range n).flatMap fun i => (hChans p).flatMap fun c => mreads s.fk (histAt (first + i) c) 3
  let zt := if 0 < n ∧ first < s.ls.zeroTo then min (first + n) s.ls.zeroTo - 1 else 0
  let head := le 8 first ++ le 4 n ++ le 4 (min 0xFFFFFFFF (first - from0)) ++ le 8 (first + n) ++ le 8 zt
  if bit (p.u8 17) 0 then ({ s with mem := mwrites s.mem (0x1C0000 + p.u32 28) data } : State).finishOk id head t
  else s.finishOk id (head ++ data) t

def historyReadApply (id : Nat) (p : Packet) (t : Nat) (s : State) : State :=
  let from0 := if bit (p.u8 17) 2 then s.idxOld else p.u 20 8
  if bit (p.u8 17) 1 ∧ s.ls.idx < from0 + p.u16 18 then { s with ls := { s.ls with waits := s.ls.waits ++ [(id, from0)] } }
  else historyDone id p from0 t s

/-- HISTORY_WAIT_DONE: the first waiting read whose indices exist. -/
def historyWaitStep (s : State) : State :=
  let ready (w : Nat × Nat) : Bool := match s.flightOf w.1 with
    | some f => decide (w.2 + f.pkt.u16 18 ≤ s.ls.idx)
    | none => false
  match s.ls.waits.find? ready with
  | none => s
  | some w =>
    match s.flightOf w.1 with
    | none => s
    | some f => historyDone w.1 f.pkt w.2 s.nowNs { s with ls := { s.ls with waits := s.ls.waits.erase w } }

/-- ABORT of a waiting read (R472). -/
def historyAbort (id : Nat) (s : State) : State :=
  ({ s with ls := { s.ls with waits := s.ls.waits.filter fun w => !decide (w.1 = id) } } : State).finishAborted id 0 s.nowNs

/-! ### RESET_UNIT of a Listen path (R448) -/

/-- RESET_UNIT of Listen path n; a HISTORY_READ that waits on it ends with ABORTED (R87, R448, R472). -/
def listenReset (n : Nat) (s0 : State) : State :=
  let lo := 3013 * 4096
  let mine (w : Nat × Nat) (a : State) : Bool := match a.flightOf w.1 with
    | some f => bit (f.pkt.u8 16) n
    | none => false
  let s := forEach s0.ls.waits (fun w a => if mine w a then historyAbort w.1 a else a) s0
  let s1 : State := { s with fk := s.fk.filter fun c =>
    !(decide (lo ≤ c.1) && decide (c.1 < lo + 40277 * 6) && decide ((c.1 - lo) % 6 / 3 = n)) }
  let s2 := vadRestart n s1
  if s2.phRuns then (if b2n (bit s2.ls.pfl 1) = n then phRestart s2 else s2) else candFollow s2

def execListenSample (dt : Nat) (m0 m1 : List Int) (s : State) : Host.Outcome State Fault Refusal :=
  run (.listenSample dt m0 m1) s (listenSampleStep m0 m1)

def execListenClockSwitch (dt : Nat) (s : State) : Host.Outcome State Fault Refusal :=
  run (.listenClockSwitch dt) s fun x => if x.listenRuns then { x with ls := { x.ls with clkSrc := x.listenSrc } } else x

def execHistoryWaitDone (dt : Nat) (s : State) : Host.Outcome State Fault Refusal := run (.historyWaitDone dt) s historyWaitStep

end Sys2Proof.Machine
end

