-- ==== Sys2Proof/Machine/Gauge.lean ====
section
/-!
DEFINITION. The Gauge (14 R474 to R506): sequences and passes, urgent conversions, results and FIFO, windows, plausibility,
calibration, and the GAUGE opcodes.
-/
namespace Sys2Proof.Machine
open Sys2Proof

/-! ### Codes (R475, R477) -/

/-- An input ID of R475. -/
def gInputOk (i : Nat) : Bool :=
  decide (i < 0x18) || i == 0x20 || i == 0x21 || (decide (0x28 ≤ i) && decide (i ≤ 0x33)) ||
  (decide (0x38 ≤ i) && decide (i ≤ 0x3B)) || i == 0x3E || i == 0x3F

/-- A gain code of R474; internal inputs accept 0 only (R475). -/
def gGainOk (i g : Nat) : Bool := decide (g ≤ 6) && (decide (i < 0x18) || decide (g = 0))

/-- A calibration holds converter c (R482, R496). -/
def Gauge.calHolds (g : Gauge) : Bool := g.urg.any fun u => u.cal.isSome && u.started.isSome

/-! ### Passes (R479 to R481) -/

/-- A pass begins at entry 0. -/
def gaugeBegin (c : Nat) (s : State) : State :=
  let g := s.gg c
  gaugeResume c (s.setGg c { g with inPass := true, passAt := s.clk, nextEnt := 0, cur := none, held := false })

/-- A pass falls due: it begins, is held while a pass runs or a calibration holds the converter, or counts in OVERRUN
(R481, R495). -/
def gaugeFalls (c : Nat) (s : State) : State :=
  let g := s.gg c
  if !(g.inPass || g.calHolds) then gaugeBegin c s
  else if g.held then s.setGg c { g with overrun := satInc 31 g.overrun }
  else s.setGg c { g with held := true }

/-- GAUGE_PASS_DUE: a grid point of a scheduled sequence is reached, or a trigger has come (R480); none counts before the first
frame of Idle or Run (R483). -/
def gaugePassDueStep (c : Nat) (s : State) : State :=
  let g := s.gg c
  if !(s.framing && g.running) || s.eng.first then s
  else if g.mode = 2 then
    if 0 ≤ nsDiff s.nowNs g.grid then gaugeFalls c (s.setGg c { g with grid := (g.grid + g.period * 1000) % 2 ^ 64 }) else s
  else if g.mode = 3 ∧ 0 < g.trigPend then gaugeFalls c (s.setGg c { g with trigPend := g.trigPend - 1 })
  else s

/-- A pass ends (R480, R493): the duration, GAUGE_DONE, the other converter's trigger, a held pass, the next pass. -/
def gaugePassEnd (c : Nat) (s : State) : State :=
  let g := s.gg c
  let g1 : Gauge := { g with inPass := false, passNs := s.clk - g.passAt, running := g.running && !decide (g.mode = 0) }
  let s1 := gaugeTrig 0x12 (s.setGg c g1)
  let own := s.gg c
  -- the trigger is the other converter's end only
  let s2 := if own.mode = 3 ∧ own.trig = 0x12 then s1.setGg c { s1.gg c with trigPend := own.trigPend } else s1
  let s3 := if g.mode = 0 then s2.raise 0xC05 (le 1 c ++ le 3 0 ++ le 4 s.frame32) else s2
  if g.held ∨ g.mode = 1 then gaugeBegin c s3 else s3

/-- The stop of R495: the running conversion is abandoned, held passes and triggers are cleared, urgent ones stay. -/
def gaugeStop (c : Nat) (s : State) : State :=
  let g := s.gg c
  s.setGg c { g with running := false, cur := none, inPass := false, held := false, trigPend := 0 }

/-- The start of R495 with S for the grid (R480): no effect on a running converter; in Listen no pass begins (R483), and a
scheduled one not before S. -/
def gaugeStart (c grid : Nat) (s : State) : State :=
  let g := s.gg c
  if g.running then s
  else
    let s1 := s.setGg c { g with running := true, grid := grid, trigPend := 0 }
    if !s1.framing || decide (g.mode = 3) then s1
    else if g.mode = 2 then gaugePassDueStep c s1
    else gaugeFalls c s1

/-! ### Quantities and raw codes (R475, R476, R487) -/

/-- A single-ended GIN ball outside -0.10 V to 3.00 V, in nV (R476, R487). -/
def gBallOut (input : Nat) (v : Int) : Bool := decide (input < 16) && (decide (v < -100000000) || decide (3000000000 < v))

/-- The raw code of a measured quantity: nV of the voltage inputs, 10^-6 degrees of the temperatures, pA of the mic biases
(R475, R476; log 100). -/
def gRaw (input gain : Nat) (v : Int) : Int :=
  if input = 0x20 ∨ input = 0x21 then roundAway (v * 32768) 1000000
  else if 0x30 ≤ input ∧ input ≤ 0x33 then roundAway (v * 8388608) 10000000000
  else roundAway (v * (8388608 * 2 ^ gain : Nat)) 2500000000

/-- The input lies beyond the full scale of its gain, or a ball outside its range (R487). -/
def gOver (input gain : Nat) (v : Int) (ball : Bool) : Bool :=
  ball || gBallOut input v || decide (gRaw input gain v < -8388608) || decide (8388607 < gRaw input gain v)

/-! ### Results (R484 to R491) -/

/-- The calibration slot that a conversion matches (R491). -/
def State.calMatch (s : State) (c input gain : Nat) : Option GCal :=
  (s.cal.find? fun e => decide (e.2.st ≠ 0) && decide (e.2.conv = c) && decide (e.2.input = input) &&
    decide (e.2.gain = gain)).map (·.2)

/-- The code of a conversion of a quantity and its OVR flag (R476, R487, R491). -/
def State.gaugeCode (s : State) (c input gain : Nat) (rawOnly : Bool) (x : Int) (ball : Bool) : Int × Bool :=
  if gOver input gain x ball then (if x < 0 then -8388608 else 8388607, true)
  else
    let raw := gRaw input gain x
    let v : Int := if rawOnly then raw else match s.calMatch c input gain with
      | some k => if k.st = 1 then raw - k.ofs else roundEven ((raw - k.ofs) * k.gcor) (2 ^ 30)
      | none => raw
    (clampI (-8388608) 8388607 v, decide (v < -8388608) || decide (8388607 < v))

/-- The FIFO word of R484. -/
def gWord (mid ent input : Nat) (urg plaus win ovr : Bool) (v : Int) : Nat :=
  uns 24 v + input * 2 ^ 32 + b2n ovr * 2 ^ 40 + b2n win * 2 ^ 41 + b2n plaus * 2 ^ 42 + b2n urg * 2 ^ 43 + ent * 2 ^ 44 +
  mid / 1000 % 65536 * 2 ^ 48

/-- A result enters the FIFO or is dropped (R486). -/
def gaugePush (c word mid : Nat) (s : State) : State :=
  let g := s.gg c
  if 64 ≤ g.fifo.length then
    let d := satInc 16 g.dropCnt
    (s.setGg c { g with dropCnt := d }).raiseLim 0xC04 c 100000000 (le 1 c ++ le 1 0 ++ le 2 d.1)
  else
    let s1 := s.setGg c { g with fifo := g.fifo ++ [{ word := word, mid := mid }] }
    if g.fifo.length + 1 = g.wmark then s1.raise 0xC03 (le 1 c ++ le 1 g.wmark ++ le 2 0) else s1

/-- The state of R488 that a result speaks for; 3 for none. -/
def GWin.speaks (w : GWin) (v : Int) : Nat :=
  if w.high < v then 1 else if v < w.low then 2
  else if w.low + w.hyst ≤ v ∧ v ≤ w.high - w.hyst then 0 else 3

/-- A result is compared with the window its entry names (R488, R489). -/
def gaugeCompare (c k : Nat) (v : Int) (mid : Nat) (s : State) : State :=
  let w := s.win k
  if !w.wen then s
  else
    let st1 := w.speaks v
    let run := if st1 = 3 then 0 else if st1 = w.toward then min 8 (w.run + 1) else 1
    let w1 : GWin := { w with last := v, toward := st1, run := run }
    if st1 = 3 ∨ run < w.ncons ∨ st1 = w.st then s.setWin k w1
    else if st1 ≠ 0 ∨ w.reentry then
      let s1 := (s.setWin k { w1 with st := st1, evt := satInc 31 w.evt }).raiseAt 0xC01
        (le 1 k ++ le 1 st1 ++ le 1 w.st ++ le 1 c ++ le 4 (uns 32 v)) mid
      gaugeTrig k s1
    else s.setWin k { w1 with st := st1 }

/-- The latest result of the plausibility entry of a converter (R490, R506). -/
def State.plausLast (s : State) (c : Nat) : Option (Int × Nat) :=
  tget? (s.gg c).last (if c = 0 then s.plaus.entA else s.plaus.entB)

/-- A result of a plausibility entry meets the latest one of the other entry (R490); whether it failed. -/
def gaugePlaus (c ent : Nat) (v : Int) (mid : Nat) (s : State) : State × Bool :=
  let p := s.plaus
  let g := s.gg c
  let s1 := s.setGg c { g with last := tset ent (v, mid) g.last }
  if ent ≠ (if c = 0 then p.entA else p.entB) ∨ !(p.pen && s.ga.running && s.gb.running) then (s1, false)
  else
    let tc := max s.ga.passNs s.gb.passNs
    match s.plausLast (1 - c) with
    | some (w, m) =>
      if !(decide (m ≤ mid) && decide (mid ≤ m + tc)) then ({ s1 with plaus := { p with stale := satInc 31 p.stale } }, false)
      else if (v - w).natAbs ≤ p.tol then ({ s1 with plaus := { p with failed := false } }, false)
      else
        let a := if c = 0 then v else w
        let b := if c = 0 then w else v
        (({ s1 with plaus := { p with failed := true, fail := satInc 31 p.fail } } : State).raiseLimAt 0xC02 0 100000000
          (le 4 (uns 32 a) ++ le 4 (uns 32 b)) mid, true)
    | none => ({ s1 with plaus := { p with stale := satInc 31 p.stale } }, false)

/-- A conversion of a sequence entry ends. -/
def gaugeEntryEnd (c : Nat) (v : GConv) (e : GEntry) (raw : Int) (ovr : Bool) (s : State) : State :=
  let (r, o) := s.gaugeCode c e.input e.gain e.raw raw ovr
  let mid := s.nowNs - ctimeNs e.ctime / 2
  let out : Bool := match e.win with
    | some k => decide ((s.win k).high < r) || decide (r < (s.win k).low)
    | none => false
  let s1 := match e.win with
    | some k => gaugeCompare c k r mid s
    | none => s
  let (s2, bad) := gaugePlaus c v.ent r mid s1
  let s3 := gaugePush c (gWord mid v.ent e.input false bad out o r) mid s2
  let g := s3.gg c
  let s4 := s3.setGg c { g with cur := none, nextEnt := v.ent + 1, freeAt := s3.clk }
  gaugeResume c (if g.seq.length ≤ v.ent + 1 then gaugePassEnd c s4 else s4)

/-- An urgent conversion ends: its result completes the command, with the wait since the command started (R504). -/
def gaugeUrgEnd (c : Nat) (u : GUrg) (st : Nat) (raw : Int) (ovr : Bool) (s : State) : State :=
  let (r, o) := s.gaugeCode c u.input u.gain u.raw raw ovr
  let mid := s.nowNs - ctimeNs u.ctime / 2
  let s1 := if u.fifo then gaugePush c (gWord mid 0 u.input true false false o r) mid s else s
  let g := s1.gg c
  let s2 := s1.setGg c { g with urg := g.urg.filter fun x => !decide (x.id = u.id), freeAt := s1.clk }
  let from0 := ((s.flightOf u.id).map (·.startClk)).getD u.at0
  gaugeResume c (s2.finishOk u.id (le 4 (uns 32 r) ++ le 1 (b2n o) ++ le 3 0 ++ le 4 ((st - from0) / 1000) ++ le 4 0) s.nowNs)

/-- GAUGE_CONVERSION_END: the settle and the conversion of a quantity have passed; `ovr` tells of a ball outside its range. -/
def gaugeConvEnd (c : Nat) (raw : Int) (ovr : Bool) (s : State) : State :=
  let g := s.gg c
  match g.urg with
  | ⟨id, input, gain, ctime, settle, fifo, rw, at0, none, some st, ex⟩ :: _ =>
    if st + settle * 1000 + ctimeNs ctime ≤ s.clk then
      gaugeUrgEnd c ⟨id, input, gain, ctime, settle, fifo, rw, at0, none, some st, ex⟩ st raw ovr s
    else s
  | _ =>
    match g.cur with
    | some v => match g.seq[v.ent]? with
      | some e =>
        if v.at0 + e.settle * 1000 + ctimeNs e.ctime ≤ s.clk ∧ !(decide (c = 1) && s.gbJack) then gaugeEntryEnd c v e raw ovr s
        else s
      | none => s
    | none => s

/-- URGENT_CONVERSION_START: the first waiting one begins, cutting a settle short; on GB after what the jack unit requested before
it (R482). -/
def gaugeUrgStart (c : Nat) (s : State) : State :=
  let g := s.gg c
  match g.urg with
  | u :: us =>
    let jackFirst := decide (c = 1) && (s.gbJack || s.jackBy (min s.clk u.at0))
    if s.framing ∧ u.started.isNone ∧ s.gaugeFree c ∧ !jackFirst then
      s.setGg c { g with cur := none, nextEnt := (g.cur.map (·.ent)).getD g.nextEnt, urg := { u with started := some s.clk } :: us }
    else s
  | [] => s

/-! ### Calibration (R491, R492) -/

/-- The 16 bytes of R501. -/
def calRec (s : State) (k : Nat) : List Byte :=
  let x := s.calS k
  le 1 k ++ le 1 x.st ++ le 1 x.conv ++ le 1 x.input ++ le 1 x.gain ++ le 3 0 ++ le 4 (uns 32 x.ofs) ++ le 4 x.gcor

/-- GCOR limits: 0.8 to 1.25 in Q2.30. -/
def gcorOk (v : Nat) : Bool := decide (858993460 ≤ v) && decide (v ≤ 1342177280)

/-- What a calibration step leaves or is refused with (R492, R502). A FULL step whose slot was cleared or bound anew while it
ran finds no zero to keep. -/
def calResult (u : GUrg) (j : GCalJob) (c : Nat) (raws : List Int) (ovrAt : Option Nat) (s : State) : State :=
  let mean := roundAway ((raws.map (gRaw u.input u.gain)).foldl (· + ·) 0) (max 1 j.navg)
  let md := uns 32 mean
  match ovrAt with
  | some i => s.finishErr u.id { status := stBadParam, aux := 3, detail := i } s.nowNs
  | none =>
    if !j.full then
      if 0x100000 < mean.natAbs then s.finishErr u.id { status := stBadParam, aux := 1, detail := md } s.nowNs
      else
        let s1 := s.setCal j.slot { st := 1, conv := c, input := u.input, gain := u.gain, ofs := mean, gcor := 2 ^ 30 }
        s1.finishOk u.id (calRec s1 j.slot) s.nowNs
    else
      let x := s.calS j.slot
      let d := mean - x.ofs
      if x.st = 0 ∨ (x.conv, x.input, x.gain) ≠ (c, u.input, u.gain) then
        s.finishErr u.id { status := stState, detail := j.slot } s.nowNs
      else if !(decide (0 < d * j.value) && decide (4 * d.natAbs ≤ 5 * j.value.natAbs) && decide (4 * j.value.natAbs ≤ 5 * d.natAbs)) then
        s.finishErr u.id { status := stBadParam, aux := 2, detail := md } s.nowNs
      else
        let s1 := s.setCal j.slot { x with st := 2, gcor := (roundAway ((j.value.natAbs * 2 ^ 30 : Nat) : Int) d.natAbs).toNat }
        s1.finishOk u.id (calRec s1 j.slot) s.nowNs

/-- A calibration releases its converter: a held pass begins, or the sequence goes on (R495). -/
def calRelease (c id : Nat) (s : State) : State :=
  let g := s.gg c
  let u := g.urg.find? fun x => decide (x.id = id)
  let s1 := s.setGg c { g with urg := g.urg.filter fun x => !decide (x.id = id), freeAt := if u.any (·.started.isSome) then s.clk else g.freeAt }
  if !g.inPass ∧ g.held ∧ g.running ∧ !(s1.gg c).calHolds then gaugeBegin c s1 else gaugeResume c s1

/-- The first conversion of a calibration step that was overranged: by its quantity, or by a ball outside its range (R487). -/
def calOver (u : GUrg) (raws : List Int) (ovrAt : Option Nat) : Option Nat :=
  (List.range raws.length).find? fun i => gOver u.input u.gain (raws.getD i 0) (decide (ovrAt = some i))

/-- GAUGE_CAL_STEP_DONE: the step's conversions have been made, with those of the jack unit between them (R492). -/
def gaugeCalDone (c : Nat) (raws : List Int) (ovrAt : Option Nat) (s : State) : State :=
  match (s.gg c).urg with
  | u :: _ => match u.cal, u.started with
    | some j, some st =>
      let ovrI := calOver u raws ovrAt
      let n := match ovrI with
        | some i => i + 1
        | none => j.navg
      let fits : Bool := decide (n ≤ j.navg) && decide (n ≤ raws.length) && decide (raws.length ≤ j.navg)
      if fits ∧ st + 100000 + u.extra + n * ctimeNs u.ctime ≤ s.clk ∧ !(decide (c = 1) && s.gbJack) then
        calRelease c u.id (calResult u j c raws ovrI s)
      else s
    | _, _ => s
  | [] => s

/-- Conversions a calibration step has completed. -/
def calMade (u : GUrg) (j : GCalJob) (clk : Nat) : Nat :=
  match u.started with
  | some st => min j.navg ((clk - st - 100000 - u.extra) / max 1 (ctimeNs u.ctime))
  | none => 0

/-- A waiting or running urgent entry by its command: converter and entry. -/
def State.urgOf (s : State) (id : Nat) : Option (Nat × GUrg) :=
  match s.ga.urg.find? (fun u => decide (u.id = id)) with
  | some u => some (0, u)
  | none => (s.gb.urg.find? (fun u => decide (u.id = id))).map (1, ·)

/-- ABORT of a ZERO or FULL step, or of a GAUGE_URGENT whose settle has not begun, which otherwise finishes
(R492, R502, R504). One that finishes counts in N_FINISHED, and the ABORT's record waits for its own in the order of R74, which may
be later than the 250 µs of R73 (log 136). -/
def gaugeAbort (id : Nat) (s : State) : State :=
  match s.urgOf id with
  | some (c, u) =>
    match u.cal with
    | some j => calRelease c id (s.finishAborted id (calMade u j s.clk) s.nowNs)
    | none => if u.started.isSome then s else calRelease c id (s.finishAborted id 0 s.nowNs)
  | none => s

/-- Whether an ABORT removes or stops it now. -/
def State.gaugeAbortable (s : State) (id : Nat) : Bool :=
  match s.urgOf id with
  | some (_, u) => u.cal.isSome || u.started.isNone
  | none => false

/-- Every urgent command of converter c ends with a status (R483, R502, R504). -/
def gaugeUrgCut (c st : Nat) (s : State) : State :=
  let g := s.gg c
  let s1 := g.urg.foldl (fun a u => a.finishErr u.id
    { status := st, detail := match u.cal with
        | some j => if st = stAborted then calMade u j s.clk else j.slot
        | none => 0 } a.nowNs) s
  s1.setGg c { s1.gg c with urg := [] }

/-- RESET_UNIT of a converter (R87, R494): its settings, FIFO and counters at reset, every slot kept. -/
def gaugeReset (c : Nat) (s : State) : State := (gaugeUrgCut c stAborted s).setGg c {}

/-- Listen is entered: both converters are off (R483). -/
def gaugesOff (s : State) : State :=
  forEach [0, 1] (fun c a =>
    let b := gaugeUrgCut c stState a
    b.setGg c { b.gg c with cur := none, inPass := false, held := false, trigPend := 0 }) s

/-- The first frame of Idle or Run: every running sequence begins a new pass at entry 0 (R483). -/
def gaugesOn (s : State) : State :=
  forEach [0, 1] (fun c a =>
    let g := a.gg c
    if !g.running || g.inPass then a
    else
      let late := nsDiff a.nowNs g.grid
      let g1 : Gauge := if g.mode = 2 ∧ 0 ≤ late then
          { g with grid := (g.grid + (late.toNat / (max 1 (g.period * 1000)) + 1) * (g.period * 1000)) % 2 ^ 64 } else g
      gaugeBegin c (a.setGg c g1)) s

/-! ### GAUGE_SEQ (R494 to R497) -/

def gaugeSeqLen (p : Packet) : Option Err :=
  failIf (!decide (p.len = if p.u8 17 = 0 then 28 + 8 * p.u8 18 else 28)) { status := stBadLen, ofs := 4, detail := p.u8 18 }

/-- An entry at packet offset o. -/
def gEntryAt (p : Packet) (o : Nat) : GEntry :=
  { input := p.u8 o, gain := p.u8 (o + 1), ctime := p.u8 (o + 2), win := if p.u8 (o + 3) = 0xFF then none else some (p.u8 (o + 3)),
    settle := p.u16 (o + 4), raw := bit (p.u8 (o + 6)) 0 }

/-- The loaded entries. -/
def gEntries (p : Packet) : List GEntry := (List.range (p.u8 18)).map fun i => gEntryAt p (28 + 8 * i)

/-- An input that is present; HPJ1 is absent on LF9256-A (R1, R4). -/
def State.gInput (s : State) (i : Nat) : Bool := gInputOk i && !(decide (i = 0x39) && s.isSmall)

def gEntryErr (s : State) (p : Packet) (i : Nat) : Option Err :=
  let o := 28 + 8 * i
  firstErr [need (s.gInput (p.u8 o)) o (p.u8 o), need (gGainOk (p.u8 o) (p.u8 (o + 1))) (o + 1) (p.u8 (o + 1)),
    p.within (o + 2) 1 0 11, need (decide (p.u8 (o + 3) ≤ 15) || decide (p.u8 (o + 3) = 0xFF)) (o + 3) (p.u8 (o + 3)),
    p.within (o + 4) 2 0 10000, p.clr (o + 6) 1 0xFE, p.zero (o + 7) 1]

/-- GW14 or GW15 serves the jack unit (R292, R489). -/
def State.winClaimed (s : State) (k : Nat) : Bool := (decide (k = 14) || decide (k = 15)) && (s.jack (k - 14)).btn

/-- A claimed window that an entry names. -/
def gClaimErr (p : Packet) (s : State) : Option Err :=
  (List.range (p.u8 18)).findSome? fun i => match (gEntryAt p (28 + 8 * i)).win with
    | some k => failIf (s.winClaimed k) { status := stBusy, ofs := 31 + 8 * i, detail := k }
    | none => none

/-- What an entry measures. -/
def GEntry.key (e : GEntry) : Nat × Nat := (e.input, e.gain)

/-- The load would change the input or gain of a plausibility entry (R490). -/
def gPlausErr (p : Packet) (s : State) : Option Err :=
  let k := if p.u8 16 = 0 then s.plaus.entA else s.plaus.entB
  failIf (s.plaus.pen && !decide (((s.gg (p.u8 16)).seq[k]?).map GEntry.key = ((gEntries p)[k]?).map GEntry.key))
    { status := stBusy, ofs := 28 + 8 * k, detail := k }

def gaugeSeqChk (p : Packet) (s : State) : Option Err :=
  let op := p.u8 17
  let ld := decide (op = 0)
  firstErr [p.within 16 1 0 1, p.within 17 1 0 4,
    need (if ld then decide (1 ≤ p.u8 18) && decide (p.u8 18 ≤ 16) else if op = 3 then decide (1 ≤ p.u8 18) && decide (p.u8 18 ≤ 64)
      else decide (p.u8 18 = 0)) 18 (p.u8 18),
    p.clr 19 1 0xFC, p.withinIf ld 20 1 0 3,
    need (if ld && decide (p.u8 20 = 3) then decide (p.u8 21 ≤ 0x12) else decide (p.u8 21 = 0)) 21 (p.u8 21),
    p.withinIf ld 22 1 1 64, p.zero 23 1,
    need (if ld && decide (p.u8 20 = 2) then decide (100 ≤ p.u32 24) && decide (p.u32 24 ≤ 60000000) else decide (p.u32 24 = 0))
      24 (p.u32 24),
    firstErr (if ld then (List.range (p.u8 18)).map (gEntryErr s p) else []),
    if ld then firstErr [gClaimErr p s, gPlausErr p s]
    else stateIf ((decide (op = 1) || decide (op = 3)) && (s.gg (p.u8 16)).seq.isEmpty) (p.u8 16)]

/-- An urgent conversion that waits or is made: of GAUGE_URGENT, a calibration that waits, or the jack unit's (R482, R496). -/
def State.gaugeUrgent (s : State) (c : Nat) : Bool :=
  ((s.gg c).urg.any fun u => u.cal.isNone || u.started.isNone) || decide (c = 1) && (s.gbJack || s.jackBy s.clk)

/-- The header of R496 over what a read removed. -/
def gaugeHead (s : State) (c : Nat) (got : List GRes) (t : Nat) : List Byte :=
  let g := s.gg c
  le 1 got.length ++ le 1 g.fifo.length ++ le 2 g.dropCnt.1 ++
  le 1 (flags [g.running, g.inPass, g.dropCnt.2, g.calHolds, s.gaugeUrgent c, g.held]) ++
  le 1 ((g.cur.map (·.ent)).getD 0xFF) ++ le 2 0 ++ le 8 ((got.head?.map (·.mid)).getD 0) ++ le 4 (g.passNs / 1000) ++
  le 4 (satWord g.overrun) ++ le 8 t

def gaugeSeqApply (id : Nat) (p : Packet) (t : Nat) (s : State) : State :=
  let c := p.u8 16
  let op := p.u8 17
  let grid := match s.flightOf id with
    | some f => if f.pkt.sched then f.pkt.whenNs else t
    | none => t
  let s1 : State :=
    if op = 0 then
      let a := gaugeStop c s
      let same (k : Nat) : Bool := decide (((a.gg c).seq[k]?).map GEntry.key = ((gEntries p)[k]?).map GEntry.key)
      let b := a.setGg c { a.gg c with last := (a.gg c).last.filter fun e => same e.1, seq := gEntries p, mode := p.u8 20, trig := p.u8 21, wmark := p.u8 22, period := p.u32 24 }
      if bit (p.u8 19) 1 then gaugeStart c grid b else b
    else if op = 1 then gaugeStart c grid s
    else if op = 2 then gaugeStop c s else s
  let n := if op = 3 then p.u8 18 else 0
  let g := s1.gg c
  let got := g.fifo.take n
  let s2 := s1.setGg c { g with fifo := g.fifo.drop n }
  let data := gaugeHead s2 c got t ++ got.flatMap fun e => le 8 e.word
  let g2 := s2.gg c
  let s3 := if bit (p.u8 19) 0 then s2.setGg c { g2 with dropCnt := (0, false), overrun := (0, false) } else s2
  s3.finishOk id data t

/-! ### GAUGE_WINDOW (R498, R499) -/

def gaugeWindowLen (p : Packet) : Option Err := lenIs p 32

def gaugeWindowChk (p : Packet) (s : State) : Option Err :=
  let w := bit (p.u8 17) 0
  firstErr [p.within 16 1 0 15, p.clr 17 1 0xFC, p.clr 18 1 0xFC, p.withinIf w 19 1 1 8,
    p.swithinIf w 20 4 (-8388608) 8388607, p.swithinIf w 24 4 (max (-8388608) (p.s32 20)) 8388607,
    need (!w || (decide (p.u32 28 ≤ 4194304) && decide (p.s32 20 + p.u32 28 ≤ p.s32 24 - p.u32 28))) 28 (p.u32 28),
    failIf (w && s.winClaimed (p.u8 16)) { status := stBusy, ofs := 16, detail := p.u8 16 }]

def gaugeWindowApply (id : Nat) (p : Packet) (t : Nat) (s : State) : State :=
  let k := p.u8 16
  let w := s.win k
  let w1 : GWin := if bit (p.u8 17) 0 then { w with
      wen := bit (p.u8 18) 0, reentry := bit (p.u8 18) 1, ncons := p.u8 19, low := p.s32 20, high := p.s32 24, hyst := p.u32 28,
      st := 3, toward := 3, run := 0 } else w
  let data := le 1 w1.st ++ le 1 (flags [w1.wen, w1.reentry]) ++ le 2 0 ++ le 4 (uns 32 w1.last) ++ le 4 (satWord w1.evt)
  (s.setWin k (if bit (p.u8 17) 1 then { w1 with evt := (0, false) } else w1)).finishOk id data t

/-! ### GAUGE_CAL (R500 to R502) -/

def gaugeCalLen (p : Packet) : Option Err := lenIs p 32

/-- The slot other than k that holds a binding, or that a ZERO step under way gives it (R491). -/
def State.boundBy (s : State) (k c input gain : Nat) : Option Nat :=
  match (s.cal.find? fun e => !decide (e.1 = k) && decide (e.2.st ≠ 0) && decide (e.2.conv = c) && decide (e.2.input = input) &&
      decide (e.2.gain = gain)).map (·.1) with
  | some o => some o
  | none => (s.gg c).urg.findSome? fun u => match u.cal with
    | some j => if !j.full && decide (u.input = input) && decide (u.gain = gain) && decide (j.slot ≠ k) then some j.slot else none
    | none => none

def gaugeCalChk (p : Packet) (s : State) : Option Err :=
  let k := p.u8 16
  let st := p.u8 17
  let bind := decide (st = 0) || decide (st = 4)
  let run := decide (st < 2)
  let conv := if st = 1 then (s.calS k).conv else p.u8 18
  firstErr [p.within 16 1 0 63, p.within 17 1 0 4,
    need (decide (p.u8 18 ≤ b2n bind)) 18 (p.u8 18), need (if bind then s.gInput (p.u8 19) else decide (p.u8 19 = 0)) 19 (p.u8 19),
    need (if bind then gGainOk (p.u8 19) (p.u8 20) else decide (p.u8 20 = 0)) 20 (p.u8 20),
    need (decide (p.u8 21 ≤ if run then 11 else 0)) 21 (p.u8 21),
    need (if run then decide (1 ≤ p.u8 22) && decide (p.u8 22 ≤ 64) else decide (p.u8 22 = 0)) 22 (p.u8 22), p.zero 23 1,
    need (if st = 1 then decide (0x100000 ≤ (p.s32 24).natAbs) else decide (st = 4) || decide (p.u32 24 = 0)) 24 (p.u32 24),
    need (if st = 4 then gcorOk (p.u32 28) else decide (p.u32 28 = 0)) 28 (p.u32 28),
    failIf (decide (st = 4) && decide (0x100000 < (p.s32 24).natAbs)) { status := stBadParam, ofs := 24, aux := 1, detail := p.u32 24 },
    stateIf (decide (st = 1) && decide ((s.calS k).st = 0)) k,
    stateIf (run && s.inListen) k,
    match (if bind then s.boundBy k (p.u8 18) (p.u8 19) (p.u8 20) else none) with
      | some o => errIf true stBusy o
      | none => none,
    errIf (run && ((s.gg conv).urg.any fun u => u.cal.isSome)) stBusy conv]

def gaugeCalApply (id : Nat) (p : Packet) (t : Nat) (s : State) : State :=
  let k := p.u8 16
  let st := p.u8 17
  let x := s.calS k
  if st < 2 then
    let c := if st = 1 then x.conv else p.u8 18
    let g := s.gg c
    let j : GCalJob := { slot := k, full := decide (st = 1), navg := p.u8 22, value := p.s32 24 }
    let u : GUrg := { id := id, input := if st = 1 then x.input else p.u8 19, gain := if st = 1 then x.gain else p.u8 20,
                      ctime := p.u8 21, at0 := s.clk, cal := some j }
    s.setGg c { g with urg := g.urg ++ [u] }
  else
    let s1 := if st = 2 then s.setCal k {}
      else if st = 4 then
        s.setCal k { st := 2, conv := p.u8 18, input := p.u8 19, gain := p.u8 20, ofs := p.s32 24, gcor := p.u32 28 }
      else s
    s1.finishOk id (calRec s1 k) t

/-! ### GAUGE_URGENT (R503, R504) -/

def gaugeUrgentLen (p : Packet) : Option Err := lenIs p 24

def gaugeUrgentChk (p : Packet) (s : State) : Option Err :=
  firstErr [p.within 16 1 0 1, need (s.gInput (p.u8 17)) 17 (p.u8 17),
    need (gGainOk (p.u8 17) (p.u8 18)) 18 (p.u8 18), p.within 19 1 0 11, p.within 20 2 0 10000, p.clr 22 1 0xFC, p.zero 23 1,
    stateIf s.inListen (p.u8 16),
    errIf (decide (4 ≤ ((s.gg (p.u8 16)).urg.filter fun u => u.cal.isNone).length)) stNoResource 4]

def gaugeUrgentApply (id : Nat) (p : Packet) (_t : Nat) (s : State) : State :=
  let g := s.gg (p.u8 16)
  let u : GUrg := { id := id, input := p.u8 17, gain := p.u8 18, ctime := p.u8 19, settle := p.u16 20,
                    fifo := bit (p.u8 22) 0, raw := bit (p.u8 22) 1, at0 := s.clk }
  s.setGg (p.u8 16) { g with urg := g.urg ++ [u] }

/-! ### GAUGE_PLAUS (R505, R506) -/

def gaugePlausLen (p : Packet) : Option Err := lenIs p 28

/-- An entry of converter c that measures the input at the gain. -/
def State.measures (s : State) (c ent input gain : Nat) : Bool :=
  match (s.gg c).seq[ent]? with
  | some e => decide (e.input = input) && decide (e.gain = gain)
  | none => false

def gaugePlausChk (p : Packet) (s : State) : Option Err :=
  let w := bit (p.u8 16) 0
  let on := w && bit (p.u8 17) 0
  firstErr [p.clr 16 1 0xFC, p.clr 17 1 0xFE,
    need (!w || s.gInput (p.u8 18)) 18 (p.u8 18), need (!w || gGainOk (p.u8 18) (p.u8 19)) 19 (p.u8 19),
    p.withinIf w 20 1 0 15, p.withinIf w 21 1 0 15, p.zero 22 2, p.withinIf w 24 4 1 8388607,
    stateIf (on && !s.measures 0 (p.u8 20) (p.u8 18) (p.u8 19)) 0, stateIf (on && !s.measures 1 (p.u8 21) (p.u8 18) (p.u8 19)) 1]

def gaugePlausApply (id : Nat) (p : Packet) (t : Nat) (s : State) : State :=
  let q := s.plaus
  let q1 : GPlaus := if bit (p.u8 16) 0 then { q with
      pen := bit (p.u8 17) 0, input := p.u8 18, gain := p.u8 19, entA := p.u8 20, entB := p.u8 21, tol := p.u32 24 } else q
  let s1 : State := { s with plaus := q1 }
  let last (c : Nat) : Int := ((s1.plausLast c).map (·.1)).getD 0
  let data := le 4 (uns 32 (last 0)) ++ le 4 (uns 32 (last 1)) ++ le 4 (satWord q1.fail) ++ le 4 (satWord q1.stale) ++ le 1 (flags [q1.pen, q1.failed]) ++ le 3 0
  ({ s1 with plaus := if bit (p.u8 16) 1 then { q1 with fail := (0, false), stale := (0, false) } else q1 } : State).finishOk id data t

def execGaugePassDue (dt : Nat) (c : Nat) (s : State) : Host.Outcome State Fault Refusal :=
  run (.gaugePassDue dt c) s (gaugePassDueStep c)

def execUrgentConversionStart (dt : Nat) (c : Nat) (s : State) : Host.Outcome State Fault Refusal :=
  run (.urgentConversionStart dt c) s (gaugeUrgStart c)

def execGaugeConversionEnd (dt : Nat) (c : Nat) (raw : Int) (ovr : Bool) (s : State) : Host.Outcome State Fault Refusal :=
  run (.gaugeConversionEnd dt c raw ovr) s (gaugeConvEnd c raw ovr)

def execGaugeCalStepDone (dt : Nat) (c : Nat) (raws : List Int) (ovrAt : Option Nat) (s : State) : Host.Outcome State Fault Refusal :=
  run (.gaugeCalStepDone dt c raws ovrAt) s (gaugeCalDone c raws ovrAt)

end Sys2Proof.Machine
end

