-- ==== Sys2Proof/Machine/Scan.lean ====
section
/-!
DEFINITION. The boundary register: its cells, which ball and which use each has, and what they capture (17 R587 to R594).
-/
namespace Sys2Proof.Machine
open Sys2Proof

/-- The balls of the boundary chain (R591); a CKO pair is one, a receive leg is a lane's port and leg. -/
inductive Ball where
  | rstN | wakeN | pgIn | addr (k : Nat) | privScope | bootsel (k : Nat) | qspiSck | qspiCsN | wclkIn | ppsIn | tpSdi (p : Nat)
  | privN | pwrEn | irqN (k : Nat) | tw0Scl | tw0Sda | tw1Scl | tw1Sda | qspiIo (k : Nat) | tpBclk (p : Nat) | tpFsync (p : Nat)
  | tpSdo (p : Nat) | cko (k : Nat) | laneTx (p : Nat) | laneRx (p : Nat) (leg : Nat) | jack (j : Nat)
deriving DecidableEq, Repr

/-- What a cell does: an input cell and an observe-only one capture and drive nothing (R591). -/
inductive CellKind where
  | input | observe | driveLow | output | control
deriving DecidableEq, Repr

structure BsCell where
  ball : Ball
  kind : CellKind
deriving DecidableEq, Repr

def cellsOf (kinds : List CellKind) (balls : List Ball) : List BsCell := balls.flatMap fun b => kinds.map (BsCell.mk b)

/-- The 98 cells on the engine die, in the order of R591's table. -/
def engineCells : List BsCell :=
  cellsOf [.input] [.rstN, .wakeN, .pgIn, .addr 0, .addr 1, .privScope, .bootsel 0, .bootsel 1, .qspiSck, .qspiCsN, .wclkIn, .ppsIn,
    .tpSdi 0, .tpSdi 1, .tpSdi 2, .tpSdi 3] ++
  cellsOf [.observe] [.privN, .pwrEn] ++
  cellsOf [.driveLow, .input] [.irqN 0, .irqN 1, .tw0Scl, .tw0Sda, .tw1Scl, .tw1Sda] ++
  cellsOf [.output, .control, .input] [.qspiIo 0, .qspiIo 1, .qspiIo 2, .qspiIo 3, .tpBclk 0, .tpBclk 1, .tpBclk 2, .tpBclk 3,
    .tpFsync 0, .tpFsync 1, .tpFsync 2, .tpFsync 3] ++
  cellsOf [.output, .control] [.tpSdo 0, .tpSdo 1, .tpSdo 2, .tpSdo 3, .cko 0, .cko 1, .cko 2, .cko 3, .cko 4, .cko 5, .cko 6, .cko 7,
    .laneTx 0, .laneTx 1] ++
  cellsOf [.input] [.laneRx 0 0, .laneRx 0 1, .laneRx 1 0, .laneRx 1 1]

/-- The four cells on the converter die: the comparators of HPJ0, HPJ1, JD0 and JD1. -/
def converterCells : List BsCell := cellsOf [.observe] [.jack 0, .jack 1, .jack 2, .jack 3]

/-- A list in the order that `f` picks: of n elements left, the next is the one numbered f n. -/
def ordered {α : Type} (f : Nat → Nat) : Nat → List α → List α
  | 0, _ => []
  | n + 1, l => match l[f (n + 1) % (n + 1)]? with
    | some x => x :: ordered f n (l.eraseIdx (f (n + 1) % (n + 1)))
    | none => []

/-- The boundary register by cell number: cells 0 to 3 on the converter die, nearest TDO, cells 4 to 101 on the engine die (R591). Which
cell of a die stands for which ball is free. -/
def bsCells : List BsCell :=
  ordered Config.bsPlace 4 converterCells ++ ordered (fun n => Config.bsPlace (n + 4)) 98 engineCells

/-- A ball the variant does not have: the lanes of P1 and HPJ1 on LF9256-A (R4, R591). -/
def Ball.absent (v : Variant) (b : Ball) : Bool :=
  match v, b with
  | .small, .laneTx p => decide (p = 1)
  | .small, .laneRx p _ => decide (p = 1)
  | .small, .jack j => decide (j = 1)
  | _, _ => false

/-- What cell k captures: the level of a ball whose level the part's state holds, a comparator, 0 for an absent ball; else a free bit
(R591, R593, log 119). -/
def State.cellIn (s : State) (k : Nat) (c : BsCell) : Bool :=
  if c.ball.absent s.part.variant then false
  else match c.ball with
    | .jack j => !s.pins.jackLow.getD j false
    | .privN => s.pins.privN
    | .pwrEn => s.pwr.pwrEn
    | .rstN => s.pins.rstN
    | .pgIn => s.pins.pgIn
    | .irqN j => !(decide (c.kind = .input) && s.irqLow (1 + 2 * j)) && Config.bsCell s.clk k
    | _ => Config.bsCell s.clk k

/-- What the 102 cells capture, cell 0 first. -/
def State.bsCapture (s : State) : List Bool := (List.range bsCells.length).zipWith (fun k c => s.cellIn k c) bsCells

/-- An instruction that selects the boundary register (R589). -/
def boundaryIr (ir : Nat) : Bool := decide (ir ≤ 1) || decide (ir = 5) || decide (ir = 6)

/-- What the data register selected by a TAP instruction captures, the bit nearest TDO first: the device identification, the boundary
cells, the bypass bit 0, or with TMODE high a test data register of Holras (R8, R588 to R591). -/
def State.tapCapture (s : State) (ir : Nat) : List Bool :=
  if ir = 2 then (List.range 32).map (bit (idcodeOf s.part.variant))
  else if boundaryIr ir then s.bsCapture
  else if s.pins.tmode ∧ 7 ≤ ir ∧ ir < 0xFF then Config.testReg s.clk ir
  else [false]

/-- What TDO drives while an instruction is shifted in: 0b00000001, bit 0 first (R589). -/
def irCapture : List Bool := [true, false, false, false, false, false, false, false]

/-- The TAP in Test-Logic-Reset: IDCODE is selected (R587, R589). -/
def State.tapAtReset (s : State) : Jtag :=
  { s.jtag with tap := .testLogicReset, ir := 2, dr := s.tapCapture 2, tdo := [], train := false }

end Sys2Proof.Machine
end

