-- ==== Sys2Proof/Machine/Power.lean ====
section
/-!
DEFINITION. Power states and their transitions, reset and wake causes, the boot up to its configuration section, thermal
and VCORE limits (16 R553 to R574), and the steps of other units that can begin a transition.
-/
namespace Sys2Proof.Machine
open Sys2Proof

/-! ### Reset causes and the start of a boot (R562 to R566) -/

/-- A reset cause holds: RST_N low, the power-on reset, the crystal, a brown-out, a thermal trip, or a test hold. -/
def State.held (s : State) : Bool :=
  !s.pins.rstN || s.pwr.vaonLow || s.pwr.crystalStopped || s.pwr.brownOut || s.pwr.tripped || s.jtag.hold

/-- A cause that loses the settings on VAON holds, and PWR_EN is high with it or waits for VAON. -/
def State.fullHeld (s : State) : Bool :=
  !s.pins.rstN || s.pwr.vaonLow || s.pwr.crystalStopped || s.jtag.hold

/-- The boot starts when PG_IN is high and no cause holds; the TAP enters Test-Logic-Reset (R566, R587). -/
def tryBoot (s : State) : State :=
  if s.pins.pgIn ∧ s.pwr.pwrEn ∧ !s.held ∧ s.pwr.boot = .off then
    { s with jtag := s.tapAtReset,
             pwr := { s.pwr with boot := .released, bootT0 := s.clk, stepAt := s.clk, pgTries := 0, pstate := .idle } }
  else s

/-- The straps are latched (R564). -/
def latchStraps (st : Straps) (s : State) : State := { s with pwr := { s.pwr with straps := st } }

def setPwrEn (on : Bool) (s : State) : State := { s with pwr := { s.pwr with pwrEn := on, pwrEnAt := s.clk } }

/-- RST_N_ASSERT: it takes the place of a thermal trip, whose 10 s it does not wait for (R562). -/
def rstAssertStep (s : State) : State :=
  ({ s with pins := { s.pins with rstN := false }, pwr := { s.pwr with tripped := false } } : State).resetPart 1 true (!s.pwr.vaonLow)

/-- RST_N_RELEASE. -/
def rstReleaseStep (st : Straps) (s : State) : State :=
  if s.pins.rstN then s
  else
    let s1 : State := { s with pins := { s.pins with rstN := true } }
    tryBoot (if s1.pwr.vaonLow then s1 else latchStraps st s1)

/-- POWER_ON_RESET: the part is off. -/
def powerOnResetStep (s : State) : State :=
  let s1 := ({ s with pwr := { s.pwr with vaonLow := true } } : State).resetPart 0 true false
  { s1 with pwr := { s1.pwr with crystalStopped := false, brownOut := false, tripped := false }, jtag := {} }

/-- VAON_VALID. -/
def vaonValidStep (st : Straps) (s : State) : State :=
  if !s.pwr.vaonLow then s
  else
    let s1 := setPwrEn true { s with pwr := { s.pwr with vaonLow := false, pstate := .idle } }
    tryBoot (if s1.pins.rstN then latchStraps st s1 else s1)

/-- CRYSTAL_STOP acts as RST_N while the part is powered (R389). -/
def crystalStopStep (s : State) : State :=
  if s.pwr.pwrEn ∧ s.pins.pgIn then ({ s with pwr := { s.pwr with crystalStopped := true } } : State).resetPart 2 true true else s

/-- CRYSTAL_RESTART. -/
def crystalRestartStep (st : Straps) (s : State) : State :=
  if s.pwr.crystalStopped then tryBoot (latchStraps st { s with pwr := { s.pwr with crystalStopped := false } }) else s

/-- PG_IN_RISE. -/
def pgRiseStep (s : State) : State :=
  tryBoot { s with pins := { s.pins with pgIn := true }, pwr := { s.pwr with pgTries := if s.pwr.pwrEn then 0 else s.pwr.pgTries } }

/-- PG_IN_LOST: with PWR_EN high, PWR_EN falls for 100 ms; a full reset that holds keeps it high (R562, R563). -/
def pgLostStep (s : State) : State :=
  let s1 : State := { s with pins := { s.pins with pgIn := false } }
  if !s.pins.pgIn || !s.pwr.pwrEn || s.fullHeld then s1
  else
    let s2 := s1.resetPart 3 false false
    { s2 with pwr := { s2.pwr with raiseDue := true, brownOut := false } }

/-- PWR_EN_RETRY: PG_IN has not risen within 50 ms; after the third failed try PWR_EN stays low (R563). -/
def pwrRetryStep (s : State) : State :=
  if s.pwr.pwrEn ∧ !s.pins.pgIn ∧ !s.fullHeld ∧ s.pwr.pwrEnAt + 50000000 ≤ s.clk then
    let n := s.pwr.pgTries + 1
    setPwrEn false { s with pwr := { s.pwr with pgTries := n, raiseDue := decide (n < 3) } }
  else s

/-- PWR_EN_RAISE: low for 100 ms. -/
def pwrRaiseStep (s : State) : State :=
  if s.pwr.raiseDue ∧ s.pwr.pwrEnAt + 100000000 ≤ s.clk then
    tryBoot (setPwrEn true { s with pwr := { s.pwr with raiseDue := false } })
  else s

/-- VCORE_BROWN_OUT, while VCORE is switched on: it resets a part that runs, and holds one that another cause resets already, whose
cause and kind of boot stay (R563). -/
def brownOutStep (mv : Nat) (s : State) : State :=
  let s1 : State := { s with env := { s.env with vcoreMv := mv } }
  if 680 ≤ mv ∨ !s1.pwr.pwrEn ∨ !s1.pins.pgIn then s1
  else
    let s2 : State := { s1 with pwr := { s1.pwr with brownOut := true } }
    if s1.alive then s2.resetPart 4 false true else s2

/-- VCORE_RECOVERY: 1 ms after 0.72 V. -/
def vcoreRecoveryStep (mv : Nat) (s : State) : State :=
  let s1 : State := { s with env := { s.env with vcoreMv := mv } }
  if s1.pwr.brownOut ∧ 720 ≤ mv then tryBoot { s1 with pwr := { s1.pwr with brownOut := false } } else s1

/-- VCORE_LOW: LOWV follows 0.76 V (R22, R553). -/
def vcoreLowStep (mv : Nat) (s : State) : State :=
  let s1 : State := { s with env := { s.env with vcoreMv := mv } }
  let low := decide (mv < 760)
  if !s1.alive || decide (low = s1.eng.lowv) then s1
  else ({ s1 with eng := { s1.eng with lowv := low } } : State).raiseLim 0x031 0 100000000
    (le 1 (b2n low) ++ le 1 0 ++ le 2 (min 0xFFFF mv) ++ le 4 s1.frame32)

/-! ### Heat (R573, R574) -/

/-- The hotter die, the E-die when equal: code and temperature. -/
def State.hotDie (s : State) : Nat × Int := if s.env.tjE < s.env.tjC then (0, s.env.tjC) else (1, s.env.tjE)

def State.thermalEvent (s : State) (lvl : Nat) : State :=
  let (die, t) := s.hotDie
  let data := le 1 die ++ le 1 lvl ++ le 2 (uns 16 (max (-32768) (min 32767 t))) ++ le 4 s.frame32
  if lvl = 1 then s.raiseLim 0x030 die 10000000000 data else s.raise 0x030 data

def setTherm (lvl : Nat) (s : State) : State := { s with pwr := { s.pwr with thermLevel := lvl } }

/-- What the part does at the temperatures it has sensed. -/
def thermalAct (s : State) : State :=
  let t := s.hotDie.2
  if !s.alive then s
  else if 17280 ≤ t then ({ s with pwr := { s.pwr with tripped := true } } : State).resetPart 5 false false
  else if 16000 ≤ t then
    if s.pwr.thermLevel = 2 then s else (thermalTripOutputs (setTherm 2 s)).thermalEvent 2
  else if t < 12160 then (if s.pwr.thermLevel = 0 then s else (setTherm 0 s).thermalEvent 0)
  else if s.pwr.thermLevel = 2 then setTherm 1 s
  else if s.pwr.thermLevel = 0 ∧ 12800 ≤ t then (setTherm 1 s).thermalEvent 1
  else s

/-- THERMAL: the sensors read tjC and tjE in 1/128 °C. -/
def thermalStep (tjC tjE : Int) (s : State) : State :=
  thermalAct (pairsHot { s with env := { s.env with tjC := tjC, tjE := tjE } })

/-- THERMAL_RESTART: 10 s after the trip. -/
def thermalRestartStep (s : State) : State :=
  if s.pwr.tripped ∧ s.pwr.pwrEnAt + 10000000000 ≤ s.clk then
    tryBoot (setPwrEn true { s with pwr := { s.pwr with tripped := false } })
  else s

/-! ### Wakes (R531, R560) -/

/-- A wake cause is acted on: PWR_EN rises and a short boot follows. -/
def wakeNow (cause : Nat) (s : State) : State := tryBoot (s.resetPart cause false true)

/-- PWR_EN has stayed low for 10 ms. -/
def State.discharged (s : State) : Bool := decide (s.pwr.pwrEnAt + 10000000 ≤ s.clk)

/-- The part waits for a wake cause: in Hibernate, or after three failed tries of PWR_EN (R554, R563). -/
def State.asleep (s : State) : Bool :=
  decide (s.pwr.pstate = .hibernate) || (decide (3 ≤ s.pwr.pgTries) && !s.pwr.pwrEn && !s.held)

/-- A cause is held; the transactions after a held TW0 match are not acknowledged until TW0 runs (R531, R560). -/
def holdWake (cause : Nat) (s : State) : State :=
  { s with pwr := { s.pwr with heldWake := some (s.pwr.heldWake.getD cause) },
           tw0 := { s.tw0 with nackUntilRun := s.tw0.nackUntilRun || decide (cause = 7) } }

/-- WAKE_N. -/
def wakeNStep (s : State) : State :=
  if s.asleep then (if s.discharged then wakeNow 6 s else holdWake 6 s)
  else if 2 ≤ s.hibStep then holdWake 6 s else s

/-- TW0_WAKE_MATCH: acknowledged with SCL held low, or not, by NACK_WAKE (R531). -/
def tw0WakeStep (s : State) : State :=
  let nack := bit s.pc.tw0Fl 1
  if !bit s.pc.tw0Fl 0 then s
  else if s.asleep then
    if s.discharged then
      let s1 := wakeNow 7 s
      { s1 with tw0 := { s1.tw0 with stretch := !nack, nackUntilRun := nack } }
    else holdWake 7 s
  else if 2 ≤ s.hibStep then holdWake 7 s else s

/-- HELD_WAKE. -/
def heldWakeStep (s : State) : State :=
  match s.pwr.heldWake with
  | some c =>
    if s.asleep ∧ s.discharged then
      let s1 := wakeNow c s
      { s1 with tw0 := { s1.tw0 with nackUntilRun := s.tw0.nackUntilRun } }
    else s
  | none => s

/-! ### Changes among Run, Idle and Listen (R557, R558, R561) -/

/-- A transition reaches its target: the event, and the record of its command. -/
def powerDone (t : PTrans) (s : State) : State :=
  let s1 : State := { s with pwr := { s.pwr with pstate := t.target, trans := none } }
  let s2 := s1.raise 0x041 (le 1 t.old.code ++ le 1 t.target.code ++ le 1 (b2n t.job.isNone) ++ le 1 0)
  match t.job with
  | some id => s2.finishOk id (le 1 t.old.code ++ le 1 t.target.code ++ le 2 0) s2.nowNs
  | none => s2

/-- Run is left: the outputs shut down and the front-ends lose power (R283, R123). -/
def leaveRun (s : State) : State := if s.inRun then ainsOff (outsLeave s) else s

/-- A base-rate change under way when frames end is stored, and its commands complete; one whose rate is made already lands at once, since
no B(s) comes (R410, log 63). -/
def rateShelve (s : State) : State :=
  match s.rateChg with
  | some c =>
    if c.applied then rateLands s
    else
      let s1 : State := { s with rateChg := some { c with stored := true, jobs := [] } }
      c.jobs.foldl (fun a id => a.finishOk id (pllRec a (famOf c.rate)) a.nowNs) s1
  | none => s

/-- Frames end: Listen is entered (R351, R408, R436, R483, R306). -/
def framesOff (s : State) : State :=
  let s1 := gaugesOff (measuresSleep (rateShelve s))
  let s2 : State := { s1 with pwr := { s1.pwr with pstate := .listen }, tm := { s1.tm with frameRun := false },
                              eng := { s1.eng with pendSet := none, working := none, applyQ := [], first := true } }
  ttChecks (pllsOff true (lstsOff (tpsOff (linkDown 1 (linkDown 0 (jobsClose s2).switchDue)))))

/-- A transition among Listen, Idle and Run begins; Listen, and Idle from Run, are reached at once (log 25). -/
def powerGo (job : Option Nat) (target : PState) (s : State) : State :=
  let t : PTrans := { job := job, target := target, old := s.pwr.pstate, at0 := s.clk }
  if s.inListen then pllsOn 6 { s with pwr := { s.pwr with trans := some t } }
  else if target = .run then { s with pwr := { s.pwr with trans := some { t with step := 1 } } }
  else if target = .listen then powerDone t (framesOff (leaveRun s))
  else powerDone t (leaveRun s)

/-- The serving MPLL has locked on the way out of Listen: frames run in Idle; Run goes on with step 1 of R558. -/
def listenUp (s : State) : State :=
  match s.pwr.trans with
  | some t =>
    if s.inListen ∧ t.target ≠ .hibernate ∧ (s.pll s.serving).lstate = 2 then
      if t.target = .idle then powerDone t s
      else { s with pwr := { s.pwr with pstate := .idle, trans := some { t with step := 1, at0 := s.clk } } }
    else s
  | none => s

/-- RUN_ENTRY_STEP: the first frame of Run; then the enabled front-ends are powered; then their first valid samples
(R558). -/
def runEntry (s : State) : State :=
  match s.pwr.trans with
  | some t =>
    if t.target = .run ∧ t.step = 1 ∧ s.framing ∧ s.tm.frameRun then outsRunStart (powerDone t s) else s
  | none =>
    if !s.inRun then s
    else
      let cold := (List.range s.nAin).filter fun c => (s.ain c).en && !(s.ain c).powered
      if cold.isEmpty then forUpto s.nAin settleEndStep s else forEach cold frontEndPoweredStep s

/-! ### Hibernate (R454, R559) -/

/-- The request takes effect: an open candidate is dropped, and output groups that are not off shut down. -/
def hibStart (t : PTrans) (s : State) : State :=
  let ms := min 2000 ((s.clk - t.at0) / 1000000)
  let s1 := candDrop s
  let s2 : State := { s1 with pwr := { s1.pwr with deferral := none, trans := some { t with step := 1, at0 := s.clk, deferMs := ms } } }
  if s2.inRun then outsLeave s2 else s2

/-- A request for Hibernate (R454). -/
def hibRequest (id : Nat) (force : Bool) (s : State) : State :=
  let t : PTrans := { job := some id, target := .hibernate, old := s.pwr.pstate, at0 := s.clk }
  if s.ls.cand && !force then { s with pwr := { s.pwr with deferral := some t } } else hibStart t s

/-- A deferred request takes effect when the candidate has closed. -/
def deferCheck (s : State) : State :=
  match s.pwr.deferral with
  | some t => if s.ls.cand then s else hibStart t s
  | none => s

/-- HIBERNATE_DEFERRAL_EXPIRE. -/
def deferExpireStep (s : State) : State :=
  match s.pwr.deferral with
  | some t => if t.at0 + 2000000000 ≤ s.clk then hibStart t s else s
  | none => s

/-- Every command but one ends with ABORTED: those in flight, then those not started (R90). -/
def abortAll (keep : Option Nat) (s : State) : State :=
  let s0 := s.flushOf (·.isEnded)
  let others := s0.flight.filter fun f => !decide (some f.id = keep)
  let mine := s0.flight.filter fun f => decide (some f.id = keep)
  let s1 := others.foldl (fun a f => a.finishAborted f.id 0 a.nowNs) { s0 with flight := others ++ mine }
  let s2 := s1.flushOf (·.isEnded)
  forUpto 32 (fun q a =>
    let qu := a.queue q
    let b := a.setQueue q { qu with unstarted := [] }
    qu.unstarted.foldl (fun x p => x.postRec q
      { tag := p.tag, status := stAborted, queue := q, doneNs := x.nowNs, data := errData { status := stAborted }, origin := p.origin }) b) s2

/-- Hibernate is reached: what VAON holds is all that stays (R559 step 4). -/
def hibernated (s : State) : State :=
  let s1 := s.resetPart s.pwr.cause false false
  { s1 with pwr := { s1.pwr with pstate := .hibernate, heldWake := s.pwr.heldWake },
            tw0 := { s1.tw0 with nackUntilRun := s.tw0.nackUntilRun } }

/-- HIBERNATE_ENTRY_STEP (R559). -/
def hibernateEntry (s : State) : State :=
  match s.pwr.trans with
  | some t =>
    if t.target ≠ .hibernate then s
    else if t.step = 1 then
      if s.outsOff ∨ t.at0 + 402000000 ≤ s.clk then
        let s1 := abortAll t.job s
        let s2 : State := { s1 with pwr := { s1.pwr with trans := some { t with step := 2, at0 := s.clk } } }
        match t.job with
        | some id => s2.finishOk id (le 1 t.old.code ++ le 1 1 ++ le 2 t.deferMs) s2.nowNs
        | none => s2
      else s
    else if t.step = 2 then
      if t.at0 + 500000 ≤ s.clk then { s with pwr := { s.pwr with trans := some { t with step := 3 } } } else s
    else if t.at0 + 1000000 ≤ s.clk then hibernated s else s
  | none => s

/-! ### POWER_STATE (R88, R89) -/

def powerStateLen (p : Packet) : Option Err := lenIs p 20

/-- POWER_STATE is BUSY while a transition or a deferral runs, whether a command or a detection began it (R88, log 137). -/
def powerStateChk (p : Packet) (s : State) : Option Err :=
  firstErr [p.within 16 1 1 4, p.clr 17 1 0xFE, p.zero 18 2, errIf (s.pwr.trans.isSome || s.pwr.deferral.isSome) stBusy 0]

/-- A state by its code. -/
def PState.ofCode (n : Nat) : PState := if n = 1 then .hibernate else if n = 2 then .listen else if n = 3 then .idle else .run

def powerStateApply (id : Nat) (p : Packet) (t : Nat) (s : State) : State :=
  let target := PState.ofCode (p.u8 16)
  let c := s.pwr.pstate.code
  if target = s.pwr.pstate then s.finishOk id (le 1 c ++ le 1 c ++ le 2 0) t
  else if target = .hibernate then hibRequest id (bit (p.u8 17) 0) s
  else powerGo (some id) target s

/-- ABORT of a deferred request (R89). -/
def deferAbort (id : Nat) (s : State) : State := ({ s with pwr := { s.pwr with deferral := none } } : State).finishAborted id 0 s.nowNs

/-! ### Detection (R452) -/

/-- PHRASE_HOP: a detection raises PHRASE and may request Idle or Run. -/
def phraseHopStep (s : State) : State :=
  match phraseHopCore s with
  | (s1, none) => deferCheck s1
  | (s1, some sc) =>
    if s1.pwr.deferral.isSome then deferCheck (s1.phraseEvent 3 sc)
    else
      let act := if s1.inListen then s1.ls.detAct else if s1.inRun || decide (s1.ls.detAct < 2) then 0 else 2
      if act = 0 then s1.phraseEvent 0 sc
      else if s1.pwr.trans.isSome then s1.phraseEvent 3 sc
      else powerGo none (if act = 1 then .idle else .run) (s1.phraseEvent act sc)

/-! ### Boot (R566 to R572) -/

/-- The packets of a configuration section, each of its own LEN; a LEN that cannot be takes what is left (R570). -/
def cfgPackets : Nat → List Byte → List Packet
  | 0, _ => []
  | n + 1, bs =>
    if bs.isEmpty then []
    else
      let len := fieldLe bs 4 2
      let k := if lenBad len || decide (bs.length < len) then bs.length else len
      { packetOf 2 (bs.take k) with config := true } :: cfgPackets n (bs.drop k)

/-- A section that an image has lies within its length. -/
def sectionIn (has : Bool) (len ofs n : Nat) : Bool := !has || decide (ofs + n ≤ len)

/-- Result 2 or 3 of an image that is not used, none of one that is: the fields' ranges hold whatever BFL says, the places of the
sections for those that BFL names (R568, R572). -/
def imageErr (d : List Byte) : Option Nat :=
  let len := fieldLe d 8 4
  let fl := fieldLe d 6 2
  let po := fieldLe d 12 4
  let pl := fieldLe d 16 4
  let co := fieldLe d 20 4
  let cl := fieldLe d 24 4
  if fieldLe d 0 4 ≠ 0x49424C48 then some 2
  else if fieldLe d 4 2 ≠ 1 ∨ fl / 4 ≠ 0 ∨ len < 32 ∨ 131072 < len ∨ len % 4 ≠ 0 ∨ d.length < len ∨ 65536 < pl ∨ 65536 < cl ∨ cl % 4 ≠ 0 ∨
      !sectionIn (bit fl 0) len po pl ∨ !sectionIn (bit fl 1) len co cl ∨
      (bit fl 0 ∧ bit fl 1 ∧ 0 < pl ∧ 0 < cl ∧ po < co + cl ∧ co < po + pl) then some 3
  else if crc32 (slice d 4 24 ++ slice d 32 (len - 32)) ≠ fieldLe d 28 4 then some 3
  else none

/-- Step 5 ends with a result (R572). -/
def loadEnd (result : Nat) (s : State) : State :=
  { s with pwr := { s.pwr with boot := .image, loaded := true, stepAt := s.clk, result := result, cfgRest := [] } }

/-- An image is applied: its patch, then its configuration (R568 to R570). -/
def imageApply (d : List Byte) (s : State) : State :=
  match imageErr d with
  | some r => loadEnd r s
  | none =>
    let fl := fieldLe d 6 2
    let patch : Option Nat := if bit fl 0 then Config.patchVersion (slice d (fieldLe d 12 4) (fieldLe d 16 4)) s.part.romVer else some 0
    match patch with
    | none => loadEnd 4 s
    | some v =>
      let s1 : State := { s with pwr := { s.pwr with patched := bit fl 0, patchVer := v % 2 ^ 32 } }
      let c := fieldLe d 24 4
      if bit fl 1 ∧ 0 < c then
        { s1 with pwr := { s1.pwr with boot := .config, cfgRest := cfgPackets 4096 (slice d (fieldLe d 20 4) c), cfgAt := s.clk,
                                       cfgRun := 0, cfgStatus := 0 } }
      else loadEnd 1 s1

/-- Step 6 of R566: READY. -/
def bootReady (s : State) : State :=
  let w := s.pwr
  let s1 : State := { s with
    pwr := { w with ready := true, boot := .done, bootErr := decide (1 < w.result) },
    pr1 := { s.pr1 with stickyBoot := true }, pr3 := { s.pr3 with stickyBoot := true } }
  let s2 := s1.raise 0x040 (le 1 w.cause ++ le 1 w.straps.bootsel ++ le 1 w.result ++ le 1 0 ++ le 2 w.cfgRun ++
    le 2 (if w.result = 5 then w.cfgStatus else 0) ++ le 4 w.patchVer)
  jacksPowerUp s2

/-- Step 4 of R566: the trims are loaded, every RAM but the boot window reads zero (log 64), MPLL0 starts its first lock; without an image
step 5 is empty. -/
def bootLoaded (s : State) : State :=
  relockStart 0 0 { s with
    mem := s.mem.filter fun c => decide (0x1E0000 ≤ c.1), tw0 := { s.tw0 with cmem := [] },
    pwr := { s.pwr with boot := .image, stepAt := s.clk, loaded := decide (s.pwr.straps.bootsel = 0), trims := true } }

/-- The bus clear that R533 asks for before the EEPROM is read counts where one was made. -/
def bootBus (bus : BusClear) (s : State) : State :=
  if bus = .idle then s else { s with pc := { s.pc with tw1Clear := satInc 31 s.pc.tw1Clear } }

/-- BOOT_STEP: the next step of R566; `image` is what the EEPROM holds, none when it does not acknowledge, `bus` what R533 found on
TW1 before. -/
def bootStepGo (image : Option (List Byte)) (bus : BusClear) (s : State) : State :=
  let w := s.pwr
  match w.boot with
  | .off => s
  | .released => if w.bootT0 + 1000000 ≤ s.clk then { s with pwr := { w with boot := .qspi, stepAt := s.clk } } else s
  | .qspi =>
    { s with pwr := { w with boot := .tw0, stepAt := s.clk }, tw0 := { s.tw0 with stretch := false, nackUntilRun := false } }
  | .tw0 => bootLoaded s
  | .image =>
    if w.loaded then (if w.stepAt + 1000000 ≤ s.clk then bootReady s else s)
    else if w.straps.bootsel < 2 then s
    else if bus = .stuck then loadEnd 6 (bootBus bus s)
    else match image with
      | none => loadEnd 2 (bootBus bus s)
      | some d => imageApply d (bootBus bus s)
  | .config =>
    if w.cfgJob.isSome then s
    else if w.cfgStatus ≠ stOk ∧ w.cfgStatus ≠ stLate then loadEnd 5 s
    else if w.cfgRest.isEmpty then loadEnd 1 s else s
  | .done => s

/-- BOOT_WINDOW_POLL: after step 4 the image is taken when its magic is in the window, or given up after 1 s (R567). -/
def bootPoll (s : State) : State :=
  let w := s.pwr
  if w.boot = .image ∧ !w.loaded ∧ w.straps.bootsel = 1 then
    if fieldLe (mreads s.mem 0x1E0000 4) 0 4 = 0x49424C48 then
      imageApply (mreads s.mem 0x1E0000 (min 0x20000 (max 32 (fieldLe (mreads s.mem 0x1E0008 4) 0 4)))) s
    else if w.stepAt + 1000000000 ≤ s.clk then loadEnd 7 s else s
  else s

/-! ### The rows -/

def execRstNAssert (dt : Nat) (s : State) : Host.Outcome State Fault Refusal := run (.rstNAssert dt) s rstAssertStep

def execRstNRelease (dt : Nat) (straps : Straps) (s : State) : Host.Outcome State Fault Refusal :=
  run (.rstNRelease dt straps) s (rstReleaseStep straps)

def execPowerOnReset (dt : Nat) (s : State) : Host.Outcome State Fault Refusal := run (.powerOnReset dt) s powerOnResetStep

def execVaonValid (dt : Nat) (straps : Straps) (s : State) : Host.Outcome State Fault Refusal :=
  run (.vaonValid dt straps) s (vaonValidStep straps)

def execCrystalStop (dt : Nat) (s : State) : Host.Outcome State Fault Refusal := run (.crystalStop dt) s crystalStopStep

def execCrystalRestart (dt : Nat) (straps : Straps) (s : State) : Host.Outcome State Fault Refusal :=
  run (.crystalRestart dt straps) s (crystalRestartStep straps)

def execPgInRise (dt : Nat) (s : State) : Host.Outcome State Fault Refusal := run (.pgInRise dt) s pgRiseStep

def execPgInLost (dt : Nat) (s : State) : Host.Outcome State Fault Refusal := run (.pgInLost dt) s pgLostStep

def execPwrEnRetry (dt : Nat) (s : State) : Host.Outcome State Fault Refusal := run (.pwrEnRetry dt) s pwrRetryStep

def execPwrEnRaise (dt : Nat) (s : State) : Host.Outcome State Fault Refusal := run (.pwrEnRaise dt) s pwrRaiseStep

def execVcoreBrownOut (dt : Nat) (mv : Nat) (s : State) : Host.Outcome State Fault Refusal :=
  run (.vcoreBrownOut dt mv) s (brownOutStep mv)

def execVcoreRecovery (dt : Nat) (mv : Nat) (s : State) : Host.Outcome State Fault Refusal :=
  run (.vcoreRecovery dt mv) s (vcoreRecoveryStep mv)

def execVcoreLow (dt : Nat) (mv : Nat) (s : State) : Host.Outcome State Fault Refusal := run (.vcoreLow dt mv) s (vcoreLowStep mv)

def execThermal (dt : Nat) (tjC : Int) (tjE : Int) (s : State) : Host.Outcome State Fault Refusal :=
  run (.thermal dt tjC tjE) s (thermalStep tjC tjE)

def execThermalRestart (dt : Nat) (s : State) : Host.Outcome State Fault Refusal := run (.thermalRestart dt) s thermalRestartStep

def execWakeN (dt : Nat) (s : State) : Host.Outcome State Fault Refusal := run (.wakeN dt) s wakeNStep

def execTw0WakeMatch (dt : Nat) (s : State) : Host.Outcome State Fault Refusal := run (.tw0WakeMatch dt) s tw0WakeStep

def execHeldWake (dt : Nat) (s : State) : Host.Outcome State Fault Refusal := run (.heldWake dt) s heldWakeStep

def execRunEntryStep (dt : Nat) (s : State) : Host.Outcome State Fault Refusal := run (.runEntryStep dt) s runEntry

def execHibernateEntryStep (dt : Nat) (s : State) : Host.Outcome State Fault Refusal := run (.hibernateEntryStep dt) s hibernateEntry

def execHibernateDeferralExpire (dt : Nat) (s : State) : Host.Outcome State Fault Refusal :=
  run (.hibernateDeferralExpire dt) s deferExpireStep

def execMpllLock (dt : Nat) (m : Nat) (s : State) : Host.Outcome State Fault Refusal :=
  run (.mpllLock dt m) s fun x => listenUp (pllLocked m x)

def execModelCommitDone (dt : Nat) (s : State) : Host.Outcome State Fault Refusal :=
  run (.modelCommitDone dt) s fun x => deferCheck (modelCommitStep x)

def execVadBlock (dt : Nat) (s : State) : Host.Outcome State Fault Refusal := run (.vadBlock dt) s fun x => deferCheck (vadBlockStep x)

def execPhraseHop (dt : Nat) (s : State) : Host.Outcome State Fault Refusal := run (.phraseHop dt) s phraseHopStep

def execCandidateTimeout (dt : Nat) (s : State) : Host.Outcome State Fault Refusal :=
  run (.candidateTimeout dt) s fun x => deferCheck (candTimeoutStep x)

def execPrivNAssert (dt : Nat) (s : State) : Host.Outcome State Fault Refusal :=
  run (.privNAssert dt) s fun x => deferCheck (privAssertStep x)

def execPrivNRelease (dt : Nat) (s : State) : Host.Outcome State Fault Refusal := run (.privNRelease dt) s privReleaseStep

def execBootStep (dt : Nat) (image : Option (List Byte)) (bus : BusClear) (s : State) : Host.Outcome State Fault Refusal :=
  run (.bootStep dt image bus) s (bootStepGo image bus)

def execBootWindowPoll (dt : Nat) (s : State) : Host.Outcome State Fault Refusal := run (.bootWindowPoll dt) s bootPoll

end Sys2Proof.Machine
end

