-- ==== Sys2Proof/Machine/Jtag.lean ====
section
/-!
DEFINITION. The test access port: its controller, instructions, boundary register, test hold, TMODE, and what drives the balls
(17 R577, R587 to R594).
-/
namespace Sys2Proof.Machine
open Sys2Proof

/-- The TAP runs (R587). -/
def State.tapRuns (s : State) : Bool := s.pins.pgIn && !decide (s.pwr.pstate = .hibernate) && !s.pwr.vaonLow

/-- An instruction loaded, and cells shifted through the data register it selects and latched in the boundary register, which keeps what
it holds without a scan. -/
def State.tapLoad (s : State) (ir : Nat) (sc : Scan) : Jtag :=
  let n := sc.cells.length
  let r := s.tapCapture ir ++ sc.cells
  { s.jtag with tap := sc.rest, ir := ir, dr := r.drop n, tdo := irCapture ++ r.take n, train := decide (sc.edges % 2 = 1),
                cells := if n = 0 then s.jtag.cells else r.drop n }

/-- The test hold ends: a full boot with cause 1, which latches the straps, unless another cause of a full reset still holds (R563, R592). -/
def holdEnd (st : Straps) (s : State) : State :=
  if !s.jtag.hold then s
  else
    let s1 : State := { s with jtag := { s.jtag with hold := false }, pwr := { s.pwr with cause := 1, fullBoot := true } }
    tryBoot (if s1.fullHeld then s1 else latchStraps st s1)

/-- Test-Logic-Reset: IDCODE is selected, a hold ends (R587, R589, R592). -/
def tapToReset (st : Straps) (s : State) : State := holdEnd st { s with jtag := s.tapAtReset }

/-- The TAP goes on to the state a load leaves it in. -/
def tapRest (sc : Scan) (s : State) : State := if sc.rest = .testLogicReset then tapToReset sc.straps s else s

/-- Update-IR loads a test instruction: the hold begins, every unit held as by RST_N low and PWR_EN high (R592). -/
def testLoad (ir : Nat) (sc : Scan) (s : State) : State :=
  if !s.tapRuns then s
  else
    let j : Jtag := { s.tapLoad ir sc with hold := true }
    tapRest sc (if s.jtag.hold then { s with jtag := j } else ({ s with jtag := j } : State).resetPart 1 true true)

/-- Update-IR loads any other instruction. -/
def plainLoad (ir : Nat) (sc : Scan) (s : State) : State :=
  if !s.tapRuns then s else tapRest sc (holdEnd sc.straps { s with jtag := s.tapLoad ir sc })

/-- TAP_RESET: TRST_N low, or five cycles of TCK with TMS high, while the TAP runs. -/
def tapResetStep (st : Straps) (s : State) : State := if s.tapRuns then tapToReset st s else s

/-! ### What drives the balls (R577, R587, R589, R591, R594) -/

/-- TDO is driven (R587). -/
def State.tdoDriven (s : State) : Bool := s.tapRuns && (decide (s.jtag.tap = .shiftIr) || decide (s.jtag.tap = .shiftDr))

/-- A ball is driven low or high, at high impedance (an open-drain one released), or its unit drives it as that unit's rules say. -/
inductive Drive where
  | low | high | highZ | unit
deriving DecidableEq, Repr

def driveOf (level : Bool) : Drive := if level then .high else .low

/-- The value latched in the cell of a ball and kind, with its number. -/
def Jtag.cellOf (j : Jtag) (b : Ball) (k : CellKind) : Nat × Bool :=
  let n := bsCells.findIdx fun c => decide (c = ⟨b, k⟩)
  (n, j.cells.getD n false)

/-- A control or drive-low cell enables its ball's driver. -/
def Jtag.enables (j : Jtag) (b : Ball) (k : CellKind) : Bool :=
  let (n, v) := j.cellOf b k
  decide (v = Config.bsEnable n)

/-- What the boundary register drives on a ball: a transmit pair its value, inverted while EXTEST_PULSE, or after an odd count of TCK
edges EXTEST_TRAIN, stays in Run-Test/Idle (R591, R594). -/
def Jtag.drives (j : Jtag) (b : Ball) : Drive :=
  match b with
  | .laneTx _ =>
    driveOf (xor (j.cellOf b .output).2 (decide (j.tap = .runTestIdle) && (decide (j.ir = 5) || (decide (j.ir = 6) && j.train))))
  | .irqN _ | .tw0Scl | .tw0Sda | .tw1Scl | .tw1Sda => if j.enables b .driveLow then .low else .highZ
  | .qspiIo _ | .tpBclk _ | .tpFsync _ | .tpSdo _ | .cko _ => if j.enables b .control then driveOf (j.cellOf b .output).2 else .highZ
  | _ => .highZ

/-- The drive of a ball of the chain. PWR_EN keeps its functional level in every instruction; a test hold gives the others to the boundary
register, HIGHZ to none; in reset and in Hibernate they are at high impedance or released, and QSPI's outputs from step 3 of R559 on
(R507, R559, R577, R589, R591). -/
def State.drive (s : State) (b : Ball) : Drive :=
  if b = .pwrEn then driveOf s.pwr.pwrEn
  else if b.absent s.part.variant then .highZ
  else if s.jtag.hold then (if s.jtag.ir = 4 then .highZ else s.jtag.drives b)
  else match b with
    | .irqN k => if s.irqLow (1 + 2 * k) then .low else .highZ
    | .qspiIo _ => if s.qspiOn then .unit else .highZ
    | .tw0Scl | .tw0Sda | .tw1Scl | .tw1Sda | .tpBclk _ | .tpFsync _ | .tpSdo _ | .cko _ | .laneTx _ =>
      if s.alive && !decide (s.pwr.pstate = .hibernate) then .unit else .highZ
    | _ => .highZ

/-- The input of a ball is enabled: those of the TP ports, WCLK_IN and PPS_IN are off in reset, in Hibernate and while their function is
off (R577, R584). -/
def State.inputOn (s : State) (b : Ball) : Bool :=
  let runs := s.alive && !decide (s.pwr.pstate = .hibernate)
  match b with
  | .tpBclk p | .tpFsync p | .tpSdi p => runs && decide ((s.tp p).tfmt ≠ 0)
  | .wclkIn => runs && (decide ((s.pll 0).ref = 4) || decide ((s.pll 1).ref = 4))
  | .ppsIn => runs && (decide ((s.pll 0).ref = 6) || decide ((s.pll 1).ref = 6))
  | _ => true

/-! ### The rows -/

def execExtest (dt : Nat) (sc : Scan) (s : State) : Host.Outcome State Fault Refusal :=
  run (.extest dt sc) s (testLoad 0 sc)

def execSamplePreload (dt : Nat) (sc : Scan) (s : State) : Host.Outcome State Fault Refusal :=
  run (.samplePreload dt sc) s (plainLoad 1 sc)

def execIdcode (op : TapOp) (s : State) : Host.Outcome State Fault Refusal :=
  run (.idcode op) s (plainLoad 2 { straps := op.straps })

def execClamp (dt : Nat) (s : State) : Host.Outcome State Fault Refusal := run (.clamp dt) s (testLoad 3 {})

def execHighz (dt : Nat) (s : State) : Host.Outcome State Fault Refusal := run (.highz dt) s (testLoad 4 {})

def execExtestPulse (dt : Nat) (sc : Scan) (s : State) : Host.Outcome State Fault Refusal :=
  run (.extestPulse dt sc) s (testLoad 5 sc)

def execExtestTrain (dt : Nat) (sc : Scan) (s : State) : Host.Outcome State Fault Refusal :=
  run (.extestTrain dt sc) s (testLoad 6 sc)

def execBypass (op : TapOp) (s : State) : Host.Outcome State Fault Refusal :=
  run (.bypass op) s (plainLoad op.code { straps := op.straps })

def execTapReset (op : TapOp) (s : State) : Host.Outcome State Fault Refusal := run (.tapReset op) s (tapResetStep op.straps)

def execTmodeChange (dt : Nat) (level : Bool) (s : State) : Host.Outcome State Fault Refusal :=
  run (.tmodeChange dt level) s fun x => { x with pins := { x.pins with tmode := level } }

end Sys2Proof.Machine
end

