-- ==== Sys2Proof/Machine/Interp.lean ====
section
/-!
DEFINITION. The interpreter: checks of a packet, which command starts next, how a started command runs or waits, its
application at a frame, ABORT and RESET_UNIT, and the system opcodes (02 R43 to R93).
-/
namespace Sys2Proof.Machine
open Sys2Proof

/-! ### NOP, CAPS, EVENT_MASK, QUEUE_CONFIG, TIME_READ (R85, R86, R91 to R93) -/

def noErr (_p : Packet) (_s : State) : Option Err := none

/-- Any length (R85). -/
def nopLen (_p : Packet) : Option Err := none

/-- NOP returns its parameters, all of them also behind the INFO of LATE, where RLEN then passes 1,008 (log 122). -/
def nopApply (id : Nat) (p : Packet) (t : Nat) (s : State) : State := s.finishOk id (p.bytes 16 (p.len - 16)) t

/-- Codes of VARIANT (R86). -/
def variantCode (v : Variant) : Nat :=
  match v with
  | .a => 1
  | .n => 2
  | .small => 3

/-- The 64 bytes of CAPS. -/
def capsData (s : State) : List Byte :=
  le 2 (variantCode s.part.variant) ++ le 1 (if s.part.gradeI then 2 else 1) ++ le 1 0xA1 ++ le 4 (idcodeOf s.part.variant) ++
  le 4 s.part.romVer ++ le 4 s.pwr.patchVer ++ le 8 s.part.uid ++ le 4 s.tm.rate ++ le 1 s.nAin ++ le 1 s.nLout ++
  le 1 (2 ^ s.nHp - 1) ++ le 1 3 ++ le 1 (2 ^ s.nPort - 1) ++
  le 1 (flags [decide (s.part.variant ≠ .n), s.pwr.straps.privScope]) ++ le 2 s.nNch ++ le 2 s.nStream ++ le 2 s.nBus ++
  le 2 s.nMix ++ le 2 s.nDelay ++ le 1 s.nAsrc ++ le 1 s.nAsrc ++ le 2 3072 ++ le 2 256 ++ le 1 32 ++ le 1 64 ++ le 2 512 ++
  le 2 256 ++ le 2 2048 ++ le 1 64 ++ le 1 0 ++ le 2 s.nodeId ++ le 2 0

def capsLen (p : Packet) : Option Err := lenIs p 16
def capsApply (id : Nat) (_p : Packet) (t : Nat) (s : State) : State := s.finishOk id (capsData s) t

def eventMaskLen (p : Packet) : Option Err := lenIs p 20

def eventMaskChk (p : Packet) (_s : State) : Option Err :=
  firstErr [p.within 16 2 0x4000 0x4FFF, p.within 18 1 1 255, need (decide (p.u16 16 + p.u8 18 ≤ 0x5000)) 18 (p.u8 18),
            p.within 19 1 0 1]

def State.setMask (s : State) (port : Nat) (l : List Nat) : State :=
  if port = 1 then { s with evMask1 := l } else if port = 2 then { s with evMask2 := l } else { s with evMask3 := l }

/-- Codes masked off after a run of codes is enabled or disabled; EVENT_LOST stays enabled (R91). -/
def maskRun (l : List Nat) (first n : Nat) (on : Bool) : List Nat :=
  let run := (List.range n).map fun i => first % 0x1000 + i
  if on then l.filter fun c => !run.contains c
  else l ++ run.filter fun c => decide (c ≠ 1) && !l.contains c

def eventMaskApply (id : Nat) (p : Packet) (t : Nat) (s : State) : State :=
  let port := s.flightPort id
  (s.setMask port (maskRun (s.evMask port) (p.u16 16) (p.u8 18) (decide (p.u8 19 = 1)))).finishOk id [] t

def queueConfigLen (p : Packet) : Option Err := lenIs p 20

/-- Another queue of the port has the class (R61). -/
def State.roleTaken (s : State) (q port : Nat) (cls : QClass) : Bool :=
  (List.range 32).any fun k => decide (k ≠ q) && decide ((s.queue k).port = port) && decide ((s.queue k).cls = cls)

def queueConfigChk (p : Packet) (s : State) : Option Err :=
  let q := p.u8 16
  let port := p.u8 17
  let cls := QClass.ofCode (p.u8 18)
  firstErr [p.within 16 1 0 31, p.within 17 1 0 3, p.within 18 1 0 3, p.zero 19 1,
    failIf (decide (port ≠ 0) && (decide (cls = .urgent) || decide (cls = .event)) && s.roleTaken q port cls)
      (badParam 18 port),
    failIf (decide (0 < s.level q) || s.hasRec q || decide (q = p.queue)) { status := stBusy, ofs := 16, detail := q }]

/-- The queue is bound anew; drops of a port that gains an event queue are reported (R92). -/
def queueConfigApply (id : Nat) (p : Packet) (t : Nat) (s : State) : State :=
  let q := p.u8 16
  let s1 := s.setQueue q { s.queue q with port := p.u8 17, cls := QClass.ofCode (p.u8 18) }
  let s2 := if p.u8 17 ≠ 0 ∧ p.u8 18 = 3 then s1.flushLost (p.u8 17) else s1
  s2.finishOk id [] t

def timeReadLen (p : Packet) : Option Err := lenIs p 16

/-- TIME_READ: the instant is the boundary for a scheduled command where frames run, else now (R93). -/
def timeReadApply (id : Nat) (p : Packet) (t : Nat) (s : State) : State :=
  let d := if p.sched && s.framing && s.tm.begun then s.eng.latchT else s.tm.devT
  s.finishOk id (le 6 (d / secT) ++ le 2 0 ++ le 4 (d % secT / 65536) ++ le 2 (d % 65536) ++ le 2 0 ++ le 8 s.tm.frame ++
    le 8 s.tm.frameT ++ le 4 s.tm.rate ++ le 1 s.ttActive ++ le 1 s.tstat ++ le 2 0) t

/-! ### ABORT (R73 to R75) -/

/-- The status a flight ended with in this step. -/
def State.endedWith (s : State) (id : Nat) : Option Nat :=
  match s.flightOf id with
  | some f => match f.phase with
    | .ended st _ _ => some st
    | _ => none
  | none => none

/-- ERR_AUX and ERR_DETAIL of a removed ROUTE_SET: its lowest destination and its number of entries (R181). -/
def routeGone (p : Packet) : Err :=
  let n := min 250 (p.u16 16)
  { status := stAborted, aux := (List.range n).foldl (fun a i => min a (rsDst p i)) 0xFFFF, detail := n }

/-- The result data of a command removed before it took effect. -/
def removedErr (p : Packet) : Err := if p.opc = 0x0101 then routeGone p else { status := stAborted }

/-- A command that waits for its WHEN or its frame is removed with no effect. -/
def removeFlight (f : Flight) (s : State) : State :=
  ({ s with routeJobs := tdel f.id s.routeJobs }).finishErr f.id (removedErr f.pkt) s.nowNs

/-- A commit in fade completes at once; its fades run on (R74, R234). -/
def mixAbort (id : Nat) (s : State) : State :=
  match s.mixJobs.find? fun j => decide (j.id = id) with
  | some j => ({ s with mixJobs := s.mixJobs.filter fun x => !decide (x.id = id) }).finishOk id
      (j.data 0 (if j.left = 0 then j.endFr % 2 ^ 32 else s.frame32)) (if j.left = 0 then j.endT else s.nowNs)
  | none => s

/-- A held delay change is removed; an unbind that fades completes at once (R253, R254). -/
def delayAbort (id : Nat) (s : State) : State :=
  forEach (s.lines.map (·.1)) (fun k a =>
    let l := a.line k
    let b := match l.held with
      | some h => if h.job = id then (a.setLine k { l with held := none }).finishAborted id 0 a.nowNs else a
      | none => a
    let l1 := b.line k
    if l1.unbindJob = some id then (b.setLine k { l1 with unbindJob := none }).finishOk id (lineData b k) b.nowNs else b) s

/-- A load of device time whose step is on its way completes at once (R74). -/
def loadAbort (id : Nat) (s : State) : State :=
  match s.tm.step with
  | some x =>
    if x.jobs.contains id then
      ({ s with tm := { s.tm with step := some { x with jobs := x.jobs.erase id } } }).finishOk id (policyData s) s.nowNs
    else s
  | none => s

/-- What an ABORT does to a command that runs, by its opcode (R74). A ROUTE_SET that has no open entry left thereby completes at the
present moment (R181, R184, log 165). -/
def abortRunning (f : Flight) (s : State) : State :=
  let id := f.id
  let o := f.pkt.opc
  if o = 0x0101 then forEach ((s.job id).ents.map (·.1)) (routeRemove (fun j => decide (j = id)) s.nowNs) s
  else if o = 0x0202 then mixAbort id s
  else if o = 0x0402 then padAbort id s
  else if o = 0x0603 then delayAbort id s
  else if o = 0x0601 ∨ o = 0x0604 ∨ o = 0x0605 then xferAbort id s
  else if o = 0x0704 then hostSendAbort id s
  else if o = 0x0803 then loadAbort id s
  else if o = 0x0B02 then modelAbort id s
  else if o = 0x0B03 then historyAbort id s
  else if o = 0x0C03 ∨ o = 0x0C04 then gaugeAbort id s
  else if o = 0x0D01 then tw1Abort id s
  else if o = 0x0005 then
    match s.pwr.deferral with
    | some t => if t.job = some id then deferAbort id s else s
    | none => s
  else s

/-- A running command that an ABORT ends is a long operation stopped at its safe point, not a waiting one removed. -/
def State.isLong (s : State) (f : Flight) : Bool :=
  let o := f.pkt.opc
  [0x0402, 0x0601, 0x0604, 0x0605, 0x0B02, 0x0B03, 0x0C03].contains o ||
  (decide (o = 0x0D01) && (match s.tw1.cur with
    | some c => decide (c.id = f.id)
    | none => false))

/-- Counts of an ABORT: removed, stopped, finished (R75). -/
structure AbortCnt where
  removed : Nat := 0
  stopped : Nat := 0
  finished : Nat := 0
deriving DecidableEq, Repr

/-- What an ABORT did to a running target whose effect on it led to state t: a ROUTE_SET is finished if an entry had begun
(R184), another by the status it ended with. -/
def AbortCnt.ran (c : AbortCnt) (f : Flight) (s t : State) : AbortCnt :=
  let gone := if f.pkt.opc = 0x0101 then decide ((s.job f.id).begun = 0) else decide (t.endedWith f.id = some stAborted)
  if !gone then { c with finished := c.finished + 1 }
  else if s.isLong f then { c with stopped := c.stopped + 1 }
  else { c with removed := c.removed + 1 }

/-- One target in flight. A command whose boundary has come has taken effect, even while it waits for a late engine, and so has
one that has completed (R74). Any other that has not applied is removed, a RESET_UNIT with WHEN among them (log 123). -/
def abortOne (f : Flight) (a : State × AbortCnt) : State × AbortCnt :=
  let (s, c) := a
  if s.eng.applyQ.contains f.id then (s, { c with finished := c.finished + 1 })
  else
    match f.phase with
    | .ended _ _ _ => (s, { c with finished := c.finished + 1 })
    | .running => (abortRunning f s, c.ran f s (abortRunning f s))
    | _ => (removeFlight f s, { c with removed := c.removed + 1 })

/-- A packet not started is removed: its record is written (R74). -/
def dropPacket (p : Packet) (s : State) : State :=
  s.postRec p.queue { tag := p.tag, status := stAborted, queue := p.queue, doneNs := s.nowNs, data := errData (removedErr p),
                      origin := p.origin }

/-- The packets of queue q that `hit` names, other than ABORT, are removed. -/
def abortQueue (hit : Packet → Bool) (q : Nat) (a : State × AbortCnt) : State × AbortCnt :=
  let (s, c) := a
  let qu := s.queue q
  let gone := qu.unstarted.filter fun p => hit p && decide (p.opc ≠ 0x0003)
  let s1 := s.setQueue q { qu with unstarted := qu.unstarted.filter fun p => !(hit p && decide (p.opc ≠ 0x0003)) }
  (gone.foldl (fun x p => dropPacket p x) s1, { c with removed := c.removed + gone.length })

/-- The targets of an ABORT on queues `qs`. -/
def abortTargets (qs : List Nat) (hit : Packet → Bool) (s : State) : State × AbortCnt :=
  let fl := s.flight.filter fun f => qs.contains f.pkt.queue && !f.pkt.config && hit f.pkt && decide (f.pkt.opc ≠ 0x0003)
  let a := fl.foldl (fun x f => abortOne f x) (s, {})
  qs.foldl (fun x q => abortQueue hit q x) a

/-- The targets of an ABORT whose records come before its own although they have not ended: all but a RESET_UNIT, a power-state
transition and a base-rate change (R74). -/
def State.stillRuns (s : State) (qs : List Nat) (hit : Packet → Bool) : List Nat :=
  (s.flight.filter fun f => qs.contains f.pkt.queue && !f.pkt.config && hit f.pkt && !f.isEnded &&
    !(List.contains [0x0003, 0x0004, 0x0005, 0x0901] f.pkt.opc)).map (·.id)

/-- The ABORT's record waits for the flights `l`. -/
def State.setAfter (s : State) (id : Nat) (l : List Nat) : State :=
  { s with flight := modFlight id (fun f => { f with after := l }) s.flight }

def abortLen (p : Packet) : Option Err := lenIs p 24
def abortRight (p : Packet) (s : State) (port : Nat) : Option Err := failIf (decide (p.u8 16 = 3) && !s.hasRight port) { status := stDenied, ofs := 16, detail := 3 }

def abortChk (p : Packet) (_s : State) : Option Err :=
  firstErr [failIf (p.sched || p.fence) (badParam 6 p.flags), p.within 16 1 0 3, p.within 17 1 0 31,
            need (decide (p.u16 18 ≠ 0xFFFF)) 18 (p.u16 18), p.zero 20 4]

def abortApply (id : Nat) (p : Packet) (t : Nat) (s : State) : State :=
  let sc := p.u8 16
  let qs := if sc < 2 then [p.u8 17] else if sc = 2 then s.queuesOf (s.flightPort id) else List.range 32
  let hit (x : Packet) : Bool := decide (sc ≠ 0) || decide (x.tag = p.u16 18)
  let (s1, c) := abortTargets qs hit s
  (s1.setAfter id (s1.stillRuns qs hit)).finishOk id (le 2 c.removed ++ le 2 c.stopped ++ le 2 c.finished ++ le 2 0) t

/-! ### RESET_UNIT (R87) -/

/-- Largest INDEX of a unit code, none outside the table. -/
def unitMax (u : Nat) : Option Nat := ([none, some 31, some 0, some 0, some 0, some 0, some 1, some 1, some 1, some 3, some 63,
  some 1, some 1, some 0] : List (Option Nat)).getD u none

def State.unitAbsent (s : State) (u i : Nat) : Bool :=
  if u = 1 then decide (s.nAin ≤ i) else if u = 6 then decide (s.nPort ≤ i) else if u = 10 then decide (s.nAsrc ≤ i % 32) else false

def resetUnitLen (p : Packet) : Option Err := lenIs p 20

def resetUnitChk (p : Packet) (s : State) : Option Err :=
  let u := p.u16 16
  let i := p.u16 18
  match unitMax u with
  | none => some (badParam 16 u)
  | some m => firstErr [absentIf (decide (i ≤ m) && s.unitAbsent u i) 18 i, need (decide (i ≤ m)) 18 i]

/-- A command names the unit (log 40). -/
def targets (u i : Nat) (p : Packet) (s : State) : Bool :=
  let o := p.opc
  let g := o / 256
  if u = 1 then ([0x0401, 0x0402, 0x0404, 0x0405].contains o && bit (p.u32 16) i) || (decide (o = 0x0403) && decide (p.u8 16 = i))
  else if u = 2 then decide (g = 1)
  else if u = 3 then decide (g = 2)
  else if u = 4 then decide (g = 3)
  else if u = 5 then decide (g = 6) && !([0x0604, 0x0605].contains o && (match s.region (p.u8 16) with
    | some r => !decide (r.owner = .host)
    | none => false))
  else if u = 6 then ([0x0701, 0x0704].contains o && decide (p.u8 16 = i)) ||
    ([0x0702, 0x0703].contains o && decide (p.u8 17 = 0) && bit (p.u8 18) i)
  else if u = 7 then decide (o = 0x0801) && decide (p.u8 16 = i)
  else if u = 8 then [0x0901, 0x0902].contains o && decide (p.u8 16 = i)
  else if u = 9 then decide (g = 10) && decide (p.u8 16 = i)
  else if u = 10 then decide (o = 0x0A02) && decide ((s.asr i).owner.map (·.1) = some (p.u8 16))
  else if u = 11 then decide (o = 0x0B01) || (decide (o = 0x0B03) && bit (p.u8 16) i)
  else if u = 12 then ([0x0C01, 0x0C04].contains o && decide (p.u8 16 = i)) ||
    (decide (o = 0x0C03) && (if p.u8 17 = 1 then decide ((s.calS (p.u8 16)).conv = i)
      else (decide (p.u8 17 = 0) || decide (p.u8 17 = 4)) && decide (p.u8 18 = i)))
  else if u = 13 then decide (o = 0x0D01)
  else false

/-- What a RESET_UNIT restores. -/
def unitRestore (u i : Nat) (s : State) : State :=
  if u = 1 then ainUnitReset i s
  else if u = 2 then routeReset s
  else if u = 3 then mixReset s
  else if u = 4 then metersReset s
  else if u = 5 then firkinReset s
  else if u = 6 then netPortReset i s
  else if u = 7 then ttRestart i s
  else if u = 8 then pllReset i s
  else if u = 9 then tpReset i s
  else if u = 10 then asrcReset i s
  else if u = 11 then deferCheck (listenReset i s)
  else if u = 12 then gaugeReset i s
  else tw1Reset s

/-- RESET_UNIT starts: waiting scheduled commands that target the unit end with ABORTED, and the unit is restored; the
command completes by RESET_UNIT_DONE. -/
def resetUnitApply (id : Nat) (p : Packet) (_t : Nat) (s : State) : State :=
  let u := p.u16 16
  let i := p.u16 18
  let hit := s.flight.filter fun f => decide (f.phase = .waitWhen) && targets u i f.pkt s
  let s1 := unitRestore u i (hit.foldl (fun a f => removeFlight f a) s)
  { s1 with rsts := s1.rsts ++ [{ id := id, unit := u, index := i, at0 := s.clk }] }

/-- A media PLL's reset ends at its lock, or when the PLL is off; every other has ended. -/
def State.rstReady (s : State) (r : RstUnit) : Bool := !decide (r.unit = 8) || !decide ((s.pll r.index).lstate = 1)

/-- RESET_UNIT_DONE: the first reset that can end completes. -/
def resetUnitDoneStep (s : State) : State :=
  match s.rsts.find? s.rstReady with
  | some r => ({ s with rsts := s.rsts.erase r }).finishOk r.id [] s.nowNs
  | none => s

/-! ### The opcodes (R83) -/

/-- A command that waits for the boundary of its frame (R180). -/
def Flight.isTied (f : Flight) : Bool :=
  match f.phase with
  | .waitFrame _ => true
  | _ => false

/-- What the checks of an unscheduled command see: the state that the commands of its opcode leave which have started before it
and wait for their frame, since what those have been granted is no longer to be had (R46, log 140). -/
def State.foresee (s : State) (opc : Nat) (f : Nat → Packet → Nat → State → State) (p : Packet) : State :=
  if p.sched then s
  else (s.flight.filter fun g => g.isTied && decide (g.pkt.opc = opc)).foldl (fun a g => f g.id g.pkt a.nowNs a) s

/-- What an opcode is: check 3, check 4, checks 5 to 10, its effect, and whether it applies at a frame boundary. -/
structure OpDef where
  len : Packet → Option Err
  chk : Packet → State → Option Err
  apply : Nat → Packet → Nat → State → State
  right : Packet → State → Nat → Option Err := fun _ _ _ => none
  tied : Bool := true

/-- An opcode that needs the supervisory right (R84). -/
def supervisory (_p : Packet) (s : State) (port : Nat) : Option Err := s.needRight port

def opsSystem (lo : Nat) : Option OpDef :=
  if lo = 1 then some { len := nopLen, chk := noErr, apply := nopApply, tied := false }
  else if lo = 2 then some { len := capsLen, chk := noErr, apply := capsApply, tied := false }
  else if lo = 3 then some { len := abortLen, chk := abortChk, apply := abortApply, right := abortRight, tied := false }
  else if lo = 4 then some { len := resetUnitLen, chk := resetUnitChk, apply := resetUnitApply, right := supervisory, tied := false }
  else if lo = 5 then some { len := powerStateLen, chk := powerStateChk, apply := powerStateApply, right := supervisory, tied := false }
  else if lo = 6 then some { len := eventMaskLen, chk := eventMaskChk, apply := eventMaskApply, tied := false }
  else if lo = 7 then some { len := queueConfigLen, chk := queueConfigChk, apply := queueConfigApply, right := supervisory, tied := false }
  else if lo = 8 then some { len := timeReadLen, chk := noErr, apply := timeReadApply, tied := false }
  else none

def opsRoute (lo : Nat) : Option OpDef :=
  if lo = 1 then some { len := routeSetLen, chk := routeSetChk, apply := routeSetApply }
  else if lo = 2 then some { len := routeGetLen, chk := routeGetChk, apply := routeGetApply }
  else if lo = 3 then some { len := routeFadeCfgLen, chk := routeFadeCfgChk, apply := routeFadeCfgApply, tied := false }
  else none

def opsMix (lo : Nat) : Option OpDef :=
  if lo = 1 then some { len := mixStageLen, chk := mixStageChk, apply := mixStageApply, tied := false }
  else if lo = 2 then some { len := mixCommitLen, chk := mixCommitChk, apply := mixCommitApply }
  else if lo = 3 then some { len := busCfgLen, chk := busCfgChk, apply := busCfgApply }
  else if lo = 4 then some { len := limiterCfgLen, chk := limiterCfgChk, apply := limiterCfgApply }
  else none

def opsMeter (lo : Nat) : Option OpDef :=
  if lo = 1 then some { len := meterCfgLen, chk := meterCfgChk, apply := meterCfgApply, tied := false }
  else if lo = 2 then some { len := meterReadLen, chk := meterReadChk, apply := meterReadApply }
  else if lo = 3 then some { len := meterResetLen, chk := meterResetChk, apply := meterResetApply }
  else none

def opsAin (lo : Nat) : Option OpDef :=
  if lo = 1 then some { len := ainCfgLen, chk := ainCfgChk, apply := ainCfgApply }
  else if lo = 2 then some { len := ainPadLen, chk := ainPadChk, apply := ainPadApply }
  else if lo = 3 then some { len := mergeStatusLen, chk := mergeStatusChk, apply := mergeStatusApply, tied := false }
  else if lo = 4 then some { len := chainCfgLen, chk := chainCfgChk, apply := chainCfgApply }
  else if lo = 5 then some { len := chainSyncLen, chk := chainSyncChk, apply := chainSyncApply }
  else none

def opsOut (lo : Nat) : Option OpDef :=
  if lo = 1 then some { len := outCfgLen, chk := outCfgChk, apply := outCfgApply }
  else if lo = 2 then some { len := jackCfgLen, chk := jackCfgChk, apply := jackCfgApply }
  else none

def opsFirkin (lo : Nat) : Option OpDef :=
  if lo = 1 then some { len := firkinAllocLen, chk := firkinAllocChk, apply := firkinAllocApply, tied := false }
  else if lo = 2 then some { len := firkinFreeLen, chk := firkinFreeChk, apply := firkinFreeApply,
                             right := fun p _ _ => firkinFreeRight p, tied := false }
  else if lo = 3 then some { len := delayCfgLen, chk := fun p s => delayCfgChk p (s.foresee 0x0603 delayCfgApply p), apply := delayCfgApply }
  else if lo = 4 then some { len := firkinMoveLen false, chk := firkinMoveChk false, apply := fun id p t s => firkinMoveApply false id p t s.landed,
                             right := fun p _ port => firkinMoveRight p port, tied := false }
  else if lo = 5 then some { len := firkinMoveLen true, chk := firkinMoveChk true, apply := firkinMoveApply true,
                             right := fun p _ port => firkinMoveRight p port, tied := false }
  else none

def opsNet (lo : Nat) : Option OpDef :=
  if lo = 1 then some { len := netPortCfgLen, chk := netPortCfgChk, apply := netPortCfgApply }
  else if lo = 2 then some { len := txCfgLen, chk := fun p s => txCfgChk p (s.foresee 0x0702 txCfgApply p), apply := txCfgApply }
  else if lo = 3 then some { len := rxCfgLen, chk := fun p s => rxCfgChk p (s.foresee 0x0703 rxCfgApply p), apply := rxCfgApply }
  else if lo = 4 then some { len := hostSendLen, chk := hostSendChk, apply := hostSendApply,
                             right := fun _ _ port => hostSendRight port, tied := false }
  else none

def opsTime (lo : Nat) : Option OpDef :=
  if lo = 1 then some { len := ptpCfgLen, chk := ptpCfgChk, apply := ptpCfgApply }
  else if lo = 2 then some { len := ttSelectLen, chk := ttSelectChk, apply := ttSelectApply }
  else if lo = 3 then some { len := timePolicyLen, chk := timePolicyChk, apply := timePolicyApply, right := timePolicyRight }
  else none

def opsClock (lo : Nat) : Option OpDef :=
  if lo = 1 then some { len := pllCfgLen, chk := pllCfgChk, apply := pllCfgApply }
  else if lo = 2 then some { len := rampLoadLen, chk := rampLoadChk, apply := rampLoadApply }
  else if lo = 3 then some { len := ckoCfgLen, chk := ckoCfgChk, apply := ckoCfgApply }
  else none

def opsSerial (lo : Nat) : Option OpDef :=
  if lo = 1 then some { len := tdmCfgLen, chk := tdmCfgChk, apply := tdmCfgApply }
  else if lo = 2 then some { len := asrcCfgLen, chk := asrcCfgChk, apply := asrcCfgApply }
  else none

def opsListen (lo : Nat) : Option OpDef :=
  if lo = 1 then some { len := listenCfgLen, chk := listenCfgChk, apply := fun id p t s => deferCheck (listenCfgApply id p t s) }
  else if lo = 2 then some { len := modelLoadLen, chk := modelLoadChk, apply := fun id p t s => deferCheck (modelLoadApply id p t s),
                             tied := false }
  else if lo = 3 then some { len := historyReadLen, chk := historyReadChk, apply := historyReadApply,
                             right := fun p _ port => historyReadRight p port, tied := false }
  else none

def opsGauge (lo : Nat) : Option OpDef :=
  if lo = 1 then some { len := gaugeSeqLen, chk := gaugeSeqChk, apply := gaugeSeqApply }
  else if lo = 2 then some { len := gaugeWindowLen, chk := gaugeWindowChk, apply := gaugeWindowApply }
  else if lo = 3 then some { len := gaugeCalLen, chk := gaugeCalChk, apply := gaugeCalApply, tied := false }
  else if lo = 4 then some { len := gaugeUrgentLen, chk := gaugeUrgentChk, apply := gaugeUrgentApply, tied := false }
  else if lo = 5 then some { len := gaugePlausLen, chk := gaugePlausChk, apply := gaugePlausApply }
  else none

def opsPort (lo : Nat) : Option OpDef :=
  if lo = 1 then some { len := tw1XferLen, chk := tw1XferChk, apply := tw1XferApply, tied := false }
  else if lo = 2 then some { len := portCfgLen, chk := portCfgChk, apply := portCfgApply,
                             right := fun p _ port => portCfgRight p port, tied := false }
  else none

/-- The assigned opcodes, by group. -/
def opDef (opc : Nat) : Option OpDef :=
  let lo := opc % 256
  match opc / 256 with
  | 0 => opsSystem lo
  | 1 => opsRoute lo
  | 2 => opsMix lo
  | 3 => opsMeter lo
  | 4 => opsAin lo
  | 5 => opsOut lo
  | 6 => opsFirkin lo
  | 7 => opsNet lo
  | 8 => opsTime lo
  | 9 => opsClock lo
  | 10 => opsSerial lo
  | 11 => opsListen lo
  | 12 => opsGauge lo
  | 13 => opsPort lo
  | _ => none

/-! ### Checks of R46 -/

/-- Scheduled commands that wait (R68). -/
def State.schedWaiting (s : State) : Nat := (s.flight.filter fun f => decide (f.phase = .waitWhen)).length

/-- Checks 5 to 10: ABSENT before the header's fields, which come before everything else (R4, R46). -/
def unitErr (p : Packet) (d : OpDef) (s : State) : Option Err :=
  match d.chk p s with
  | some e => if e.status = stAbsent then some e else (p.headerErr).orElse fun _ => some e
  | none => p.headerErr

/-- Every check at a command's start. -/
def startErr (p : Packet) (port : Nat) (s : State) : Option Err :=
  match p.blen with
  | some b => some { status := stBadLen, ofs := 4, detail := b }
  | none =>
    if lenBad p.len then some { status := stBadLen, ofs := 4, detail := p.len }
    else match opDef p.opc with
      | none => some { status := stBadOpc, ofs := 0, detail := p.opc }
      | some d =>
        firstErr [d.len p, d.right p s port, unitErr p d s,
          failIf (p.sched && decide (256 ≤ s.schedWaiting)) { status := stNoResource, detail := 256 }]

/-! ### Running and waiting (R67 to R72, R180, R183) -/

/-- A scheduled command that waits for its WHEN. -/
def Flight.isSched (f : Flight) : Bool := decide (f.phase = .waitWhen)

/-- A flight's phase made `ph`. -/
def State.setPhase (s : State) (id : Nat) (ph : Phase) : State :=
  { s with flight := modFlight id (fun f => { f with phase := ph }) s.flight }

/-- A flight is late by `i` µs. -/
def State.setInfo (s : State) (id i : Nat) : State :=
  { s with flight := modFlight id (fun f => { f with info := some i }) s.flight }

/-- The command's effect. -/
def opApply (id : Nat) (p : Packet) (t : Nat) (s : State) : State :=
  match opDef p.opc with
  | some d => d.apply id p t s
  | none => s

/-- The checks a waiting flight repeats: 5 to 10 where it is scheduled (R47); for one that waited for a frame when Listen was
entered, whether Listen allows it (R200, R235). -/
def reErr (f : Flight) (s : State) : Option Err :=
  match opDef f.pkt.opc with
  | none => none
  | some d =>
    if f.pkt.sched then d.chk f.pkt s
    else if s.inListen ∧ f.isTied then
      (match d.chk f.pkt s with
        | some e => if e.status = stState then some e else none
        | none => none)
    else none

/-- A waiting flight applies: at boundary or moment t (ns), late by `late` ns if that is above 0; a scheduled one that is
late expires with NOTAFTER, and repeats checks 5 to 10 (R47, R70). -/
def applyWaiting (f : Flight) (t : Nat) (late : Int) (s : State) : State :=
  let id := f.id
  let drop (x : State) : State := { x with routeJobs := tdel id x.routeJobs }
  if f.pkt.sched && f.pkt.notAfter && decide (0 < late) then (drop s).finishErr id { status := stExpired } t
  else
    let s1 := if 0 < late then s.setInfo id (lateUs late) else s
    let s2 := s1.setPhase id .running
    match reErr f s2 with
    | some e => (drop s2).finishErr id e t
    | none => opApply id f.pkt t s2

/-- Listen has been entered: commands that wait for a frame are stored at once (R49). -/
def listenSettle (s : State) : State :=
  if s.inListen then
    (s.flight.filter Flight.isTied).foldl (fun a f => applyWaiting f a.nowNs 0 a) { s with eng := { s.eng with applyQ := [] } }
  else s

/-- A command of a queue in flight applies, with what an entry to Listen then brings. -/
def applyFlight (f : Flight) (t : Nat) (late : Int) (s : State) : State :=
  let s1 := applyWaiting f t late s
  if s.inListen then s1 else listenSettle s1

/-! ### Commands of the frame at hand (R20, R69, R180, R221) -/

/-- Its opcode does not apply at a boundary of itself. -/
def Flight.untied (f : Flight) : Bool :=
  match opDef f.pkt.opc with
  | some d => !d.tied
  | none => false

/-- One command applies in the frame at hand; one that is not tied to the frame has the present moment as its DONE. -/
def applyOne (id : Nat) (s : State) : State :=
  match s.flightOf id with
  | some f => match f.phase with
    | .waitWhen => applyFlight f s.apT (nsDiff s.apT f.pkt.whenNs) s
    | .waitFrame none => applyFlight f (if f.untied then s.nowNs else s.apT) 0 s
    | .waitFrame (some b) => applyFlight f s.apT (nsDiff s.apT b) s
    | _ => s
  | none => s

/-- The next command of the frame applies. -/
def applyNext (s : State) : State :=
  match s.eng.applyQ with
  | [] => s
  | id :: r => applyOne id { s with eng := { s.eng with applyQ := r } }

/-- Commands of the frame apply, at most n. -/
def drain : Nat → State → State
  | 0, s => s
  | n + 1, s => drain n (applyNext s)

/-- Flight id is of opcode o. -/
def State.isOpc (s : State) (o id : Nat) : Bool :=
  match s.flightOf id with
  | some f => decide (f.pkt.opc = o)
  | none => false

/-- Every listed command applies. -/
def drainAll (s : State) : State := drain s.eng.applyQ.length s

/-- Every listed command applies but for ROUTE_GET, which shows the records the frame's work uses and waits for it (R185). -/
def drainOpen (s : State) : State := drain (s.eng.applyQ.takeWhile fun i => !s.isOpc 0x0102 i).length s

/-- A scheduled command of the frame waits for its application. -/
def State.schedHere (s : State) : Bool :=
  s.eng.applyQ.any fun id => match s.flightOf id with
    | some f => f.isSched && decide (f.pkt.opc ≠ 0x0102)
    | none => false

/-- The step of device time falls due at the boundary of the frame at hand: until it has been made nothing applies there, for that
boundary carries the new time (R72, R369). -/
def State.stepDue (s : State) : Bool := s.framing && s.tm.step.any fun x => decide (x.left = 0)

/-- Steps counted in frames whose time has come: transitions that have ended, held requests, fallbacks (R168, R169, R171,
R234, R252 to R254). -/
def frameSteps (fr t : Nat) (s : State) : State :=
  let s1 := forEach (s.routes.map (·.1)) (fun d a => zeroFallbackStep d ((routeFadeEndStep d a).applyHeld d fr t)) s
  let s2 := forEach (s1.lines.map (·.1)) (fun k a => delayHeldApplyStep k (unbindFadeEndStep k (delayXfadeEndStep k a))) s1
  mixFadeEndStep s2

/-- An ABORT finds the commands of a frame whose boundary has come and whose work waits for a late engine in effect: they apply
before it (R74). -/
def beforeAbort (f : Flight) (s : State) : State :=
  if f.pkt.opc = 0x0003 ∧ s.eng.pendSet.isSome ∧ !s.stepDue ∧ !s.eng.applyQ.isEmpty then
    drainOpen (frameSteps s.apFrame s.apT s)
  else s

/-- The frame at hand takes a command that has just started: its work has not begun (R180). -/
def State.frameTakes (s : State) : Bool := s.framing && s.eng.pendSet.isSome

/-- A started command joins the frame at hand, before any ROUTE_GET, and applies at once where nothing is ahead of it. -/
def joinFrame (f : Flight) (s : State) : State :=
  let q := s.eng.applyQ
  let q1 := if f.pkt.opc = 0x0102 then q ++ [f.id]
    else (q.filter fun i => !s.isOpc 0x0102 i) ++ f.id :: q.filter (s.isOpc 0x0102)
  let s1 : State := { s.setPhase f.id (.waitFrame none) with eng := { s.eng with applyQ := q1 } }
  if s1.eng.working.isSome || s1.stepDue || s1.schedHere then s1 else drainOpen s1

/-- A MIX_STAGE that starts behind a MIX_COMMIT still to apply in the frame at hand comes after it (R69, R221). -/
def State.behindCommit (s : State) (f : Flight) : Bool :=
  decide (f.pkt.opc = 0x0201) && s.frameTakes && s.eng.applyQ.any (s.isOpc 0x0202)

/-- Frames run: boundaries come (R351). -/
def State.framesRun (s : State) : Bool := s.framing && s.tm.frameRun && s.tm.begun

/-- Device time, in ns, at which the frame after the present one is expected to begin: one frame period on. -/
def State.nextB (s : State) : Nat := nsOf (s.eng.latchT + secT * s.perNum / s.perDen)

/-- The WHEN of a scheduled command lies in the past: before now, or in the frame that has begun (R70). -/
def State.whenPast (s : State) (w : Nat) : Bool :=
  decide (nsDiff w s.nowNs < 0) || (s.framesRun && decide (nsDiff w s.nextB < 0))

/-- A started command that passed its checks runs now or waits. -/
def launch (f : Flight) (d : OpDef) (s0 : State) : State :=
  let s := takeWindow f.id f.pkt (if f.pkt.opc = 0x0101 then routeSetStart f.id f.pkt s0 else s0)
  if f.pkt.sched then
    if s.inListen then
      let late := nsDiff s.nowNs f.pkt.whenNs
      if 0 ≤ late then applyWaiting f s.nowNs late s else s.setPhase f.id .waitWhen
    else if f.pkt.notAfter && s.whenPast f.pkt.whenNs then
      ({ s with routeJobs := tdel f.id s.routeJobs }).finishErr f.id { status := stExpired } s.nowNs
    else s.setPhase f.id .waitWhen
  else if d.tied && !s.inListen then (if s.frameTakes then joinFrame f s else s.setPhase f.id (.waitFrame none))
  else if s.behindCommit f then joinFrame f s
  else applyFlight f s.nowNs 0 (beforeAbort f s)

/-- A packet that leaves its queue starts (R62, R46). -/
def startPacket (p : Packet) (port : Nat) (s : State) : State :=
  let s1 := s.takeOff p port .running
  match startErr p port s with
  | some e => s1.finishErr s1.seq e s1.nowNs
  | none =>
    match s1.flightOf s1.seq, opDef p.opc with
    | some f, some d => launch f d s1
    | _, _ => s1

/-! ### Which command starts next (R62 to R65, R73) -/

/-- Commands can start: READY, and not from step 2 of an entry to Hibernate on (R90, R566). -/
def State.mayStart (s : State) : Bool := s.pwr.ready && decide (s.hibStep < 2)

/-- The first packet of queue q that is no ABORT and that a fence does not hold (R64, R65). -/
def State.head (s : State) (q : Nat) : Option Packet :=
  match (s.queue q).unstarted.find? fun p => decide (p.opc ≠ 0x0003) with
  | some p => if p.fence ∧ 0 < s.inFlight q then none else some p
  | none => none

/-- The packet of the earliest arrival. -/
def earliest : List Packet → Option Packet
  | [] => none
  | p :: r => match earliest r with
    | none => some p
    | some x => if x.arrival < p.arrival then some x else some p

/-- Heads of the queues of a class, by ascending queue number. -/
def State.heads (s : State) (cls : QClass) : List Packet :=
  (List.range 32).filterMap fun q => if (s.queue q).cls = cls then s.head q else none

/-- ABORT packets not started. -/
def State.aborts (s : State) : List Packet :=
  (List.range 32).flatMap fun q => (s.queue q).unstarted.filter fun p => decide (p.opc = 0x0003)

/-- The command to start next: an ABORT; else an urgent one while a place is free; else, leaving 16 places, a normal one
in turn, else a bulk one (R62, R63, R73). -/
def State.nextPacket (s : State) : Option Packet :=
  if !s.mayStart then none
  else match earliest s.aborts with
    | some p => some p
    | none =>
      let n := s.places
      match earliest (s.heads .urgent) with
      | some p => if n < 512 then some p else none
      | none =>
        if 496 ≤ n then none
        else
          let l := s.heads .normal
          match (l.filter fun p => decide (s.rr ≤ p.queue)).head? with
          | some p => some p
          | none => match l.head? with
            | some p => some p
            | none => earliest (s.heads .bulk)

/-- The packet leaves its queue and starts; the round-robin moves on (R63). -/
def serve (p : Packet) (s : State) : State :=
  let qu := s.queue p.queue
  let s1 := s.setQueue p.queue { qu with unstarted := qu.unstarted.erase p }
  startPacket p qu.port (if qu.cls = .normal ∧ p.opc ≠ 0x0003 then { s1 with rr := (p.queue + 1) % 32 } else s1)

/-- An opcode of the test group is to start while TMODE is high (R83, R588). -/
def State.testStart (s : State) : Bool :=
  match s.nextPacket with
  | some p => s.pins.tmode && decide (p.opc / 256 = 14) && !lenBad p.len && p.blen.isNone
  | none => false

/-- COMMAND_START. -/
def commandStartStep (s : State) : State :=
  match s.nextPacket with
  | some p => serve p s
  | none => s

/-- A packet reaches its queue, and starts at once where it is the next to be served (log 6). -/
def arrive (opc : Nat) (c : Cmd) (s : State) : State :=
  if !s.reaches c.queue then s
  else
    let p : Packet := { opc := opc, queue := c.queue, tag := c.tag, len := c.len, flags := c.flags, rsvd := c.rsvd,
                        whenNs := c.whenNs, params := c.params }
    let s1 := s.enqueue p
    match s1.nextPacket with
    | some x => if s.arr < s1.arr ∧ x.queue = c.queue ∧ x.arrival = s.arr then serve x s1 else s1
    | none => s1

/-! ### Records (R57, R520, R541) -/

/-- CQ_RECORD_WRITE: the first record that waits is written where it fits, or sent as a reply; one that came by no
datagram has no address and goes (log 41). -/
def cqRecordStep (q : Nat) (s : State) : State :=
  let qu := s.queue q
  match qu.waitRecs with
  | [] => s
  | r :: rest =>
    let s1 := s.setQueue q { qu with waitRecs := rest }
    if qu.port = 2 then
      if qu.cls = .event then s
      else if r.origin.isNone then s1
      else match s1.fjReply r with
        | some x => x
        | none => s
    else if s1.recFits q r then s1.putRec q r else s

/-! ### The configuration section of a boot image (R570) -/

/-- What a configuration packet may not be. -/
def configErr (p : Packet) : Option Err :=
  if p.sched then some (badParam 6 p.flags)
  else if p.opc = 0x0003 ∨ p.opc = 0x0005 then some (badParam 0 p.opc) else none

/-- The section runs and its next packet can start. -/
def State.configNext (s : State) : Option Packet :=
  let w := s.pwr
  if w.boot = .config ∧ w.cfgJob = none ∧ (w.cfgStatus = stOk ∨ w.cfgStatus = stLate) then w.cfgRest.head? else none

/-- CONFIG_PACKET_RUN: as if on Q2 of QSPI. -/
def configRunStep (s : State) : State :=
  match s.configNext with
  | some p =>
    let s1 : State := { s with pwr := { s.pwr with cfgRest := s.pwr.cfgRest.tail, cfgRun := s.pwr.cfgRun + 1,
                                                   cfgJob := some (s.seq + 1) } }
    match startErr p 1 s1, configErr p with
    | none, some e => (s1.takeOff p 1 .running).finishErr (s1.seq + 1) e s1.nowNs
    | _, _ => startPacket p 1 s1
  | none => s

/-- CONFIG_TIMEOUT: the section stops after 1 s; the packet that runs ends with ABORTED. -/
def configTimeoutStep (s : State) : State :=
  let w := s.pwr
  if w.boot = .config ∧ w.cfgAt + 1000000000 ≤ s.clk then
    let s1 := match w.cfgJob with
      | some id => match s.flightOf id with
        | some f => (abortOne f (s, {})).1.finishAborted id 0 s.nowNs
        | none => s
      | none => s
    loadEnd 5 s1
  else s

end Sys2Proof.Machine
end

