-- ==== Sys2Proof/Machine/Frame.lean ====
section
/-!
DEFINITION. The frame gate and the engine: what happens at a frame boundary, the commands that apply there, one frame's
ordered work, late frames and their mute (01 R16 to R31, R38; 02 R67 to R72).
-/
namespace Sys2Proof.Machine
open Sys2Proof

/-! ### Commands of a frame (R20, R67 to R70) -/

/-- A scheduled command of frame n that started less than 100 µs before its boundary applies in n or in n + 1 (R68). -/
def schedWindow (n : Nat) (s : State) : State :=
  s.flight.foldl (fun a f =>
    if f.isSched ∧ s.clk < f.startClk + 100000 ∧ 0 ≤ nsDiff f.pkt.whenNs s.eng.pendB ∧ nsDiff f.pkt.whenNs s.nextB < 0 ∧
        f.notBefore ≤ n then
      let late := Config.freeBit a.freeCtr
      ({ a with flight := modFlight f.id (fun x => { x with notBefore := if late then n + 1 else x.notBefore }) a.flight }).bump
    else a) s

/-- The commands that apply in the frame just latched, in the order of R69; a ROUTE_GET follows every route change (R185). -/
def State.frameCmds (s : State) (n : Nat) : List Nat :=
  let due := s.flight.filter fun f => f.isSched && decide (f.notBefore ≤ n) && decide (nsDiff f.pkt.whenNs s.nextB < 0)
  let l := sortBy (fun f => (nsDiff f.pkt.whenNs s.eng.pendB + 2 ^ 63).toNat) due ++ s.flight.filter Flight.isTied
  let get (f : Flight) : Bool := decide (f.pkt.opc = 0x0102)
  ((l.filter fun f => !get f) ++ l.filter get).map (·.id)

/-- What applies as soon as the engine is free for the frame, unless a step is due first: with no scheduled command due, the
frame's others. -/
def frameOpen (s : State) : State :=
  if s.eng.working.isSome || s.stepDue then s
  else
    let s1 := frameSteps s.apFrame s.apT s
    if s1.schedHere then s1 else drainOpen s1

/-- STEP_APPLY: device time steps; the commands of a frame whose work has not begun are those that are due by the time its
boundary now carries, and they apply then (R72, R369). -/
def stepApplyFrame (s : State) : State :=
  if s.tm.step.isNone || (s.framing && !s.stepDue) then s
  else
    let a := stepApplyStep s
    let c := pllAfterStep ((a.nowNs : Int) - s.nowNs) (gaugeSkip s.nowNs a.nowNs a)
    match c.eng.pendSet with
    | none => c
    | some (n, _) => frameOpen { c with eng := { c.eng with applyQ := c.frameCmds n } }

def execStepApply (dt : Nat) (s : State) : Host.Outcome State Fault Refusal := run (.stepApply dt) s stepApplyFrame

/-! ### One frame's work (R19, R38) -/

def State.setSrc (s : State) (k : Nat) (x : Smp) : State := { s with eng := { s.eng with src := tset k x s.eng.src } }

def State.srcV (s : State) (k : Nat) : Int := (tget {} s.eng.src k).v

/-- The generators (R38). -/
def genWork (fr : Nat) (s : State) : State :=
  let q (x : Int) : Smp := { v := clampI q31Min q31Max x }
  let s1 := ((s.setSrc 0x2E2 (q (gen0 fr s.tm.rate))).setSrc 0x2E3 (q (Config.noise 1 s.freeCtr))).setSrc 0x2E4
    (q (Config.noise 2 s.freeCtr))
  let s2 := s1.bump
  if fr % s.tm.rate = 0 then s2.setSrc 0x2E5 { v := 0x40000000 } else s2

/-- Step 1: the sources other than buses. -/
def sourceWork (fr t : Nat) (inp : InputSet) (s0 : State) : State :=
  let s : State := mixAdvance { s0 with eng := { s0.eng with srcPrev := s0.eng.src.map fun e => (e.1, e.2.v), src := [] } }
  let s1 := nrxFrame fr (forUpto s.nAin (ainWork fr t inp) s)
  let s2 := forUpto 4 (fun p a => if (a.tp p).tfmt = 0 then a
    else forUpto 16 (fun i b => b.setSrc (0x220 + 16 * p + i) { v := b.tinSample p i }) a) s1
  let s3 := forEach (s2.lines.map (·.1)) (lineRead t) s2
  let s4 := forUpto 2 (fun n a => let (b, x) := lstWork n a; b.setSrc (0x2E0 + n) x) s3
  genWork fr s4

/-- The Tx stream a network channel belongs to (R341). -/
def State.ntxOwner (s : State) (d : Nat) : Option Tx :=
  (s.tx.find? fun e => match e.2.cfg with
    | some c => c.chmap.contains d
    | none => false).map (·.2)

/-- How destination d reads a source in frame fr: aligned for a stream's channel, by the playout of its response for an
analogue output, else the source's sample (R147, R153, R163). -/
def State.destRead (s : State) (fr : Nat) (dac : Tab Int) (d : Nat) : Nat → Int :=
  if d < 0x200 then
    match s.ntxOwner d with
    | some t => s.txRead fr t
    | none => s.srcV
  else if d < 0x216 then
    fun i => if i < 0x200 then tget 0 dac (rdKey i (1 + (s.grp (grpOf (d - 0x200))).resp)) else s.srcV i
  else s.srcV

/-- Step 3: the sample of every destination with a route, after its transition. -/
def routesWork (fr t : Nat) (s : State) : State × Tab Int :=
  let (s1, dac) := nrxDacs fr s
  let cz (i : Nat) : Bool := crosses (tget 0 s.eng.srcPrev i) (s.srcV i)
  (s1.routes.map (·.1)).foldl (fun (a : State × Tab Int) d =>
    if a.1.dstOk d then
      let (b, x) := routeWork a.1 d fr t (a.1.destRead fr dac d) cz
      (b, tset d x a.2)
    else a) (s1, [])

/-- Step 4: trims of the analogue outputs and the delay lines' stores; the output set. -/
def outputWork (dst : Tab Int) (s : State) : State :=
  let (s1, set) := (List.range 22).foldl (fun (a : State × Tab Int) i =>
    match tget? dst (0x200 + i) with
    | some x => let (b, y) := outWork i x a.1
                (b, tset (0x200 + i) y a.2)
    | none => ((outWork i 0 a.1).1, a.2)) (s, dst)
  let s2 := forEach (s1.lines.map (·.1)) (fun k a => lineStore k (tget 0 dst (0x300 + k)) a) s1
  { s2 with eng := { s2.eng with outSet := set } }

/-- A full-scale sample (R194). -/
def fullScale (v : Int) : Bool := decide (v = q31Max) || decide (v = q31Min)

/-- The flags a destination's samples carry: those of the source it takes, of both in a fade; none on network channels and TP
slots (R42, R165, R195; log 135). -/
def State.dstFlags (s : State) (d : Nat) : Smp :=
  let r := s.route d
  let from2 : List Nat := match r.trans with
    | none => [r.src]
    | some x => if x.kind = .zero then [x.from0] else [r.src, x.from0]
  let fl := from2.map fun k => tget {} s.eng.src k
  if d < 0x200 ∨ 0x220 ≤ d ∧ d < 0x260 then {} else { settle := fl.any (·.settle), priv := fl.any (·.priv) }

/-- Step 5: every point that carries something or has a record. -/
def meterWork (dst : Tab Int) (s : State) : State :=
  let m : List Nat := s.meters.map (·.1)
  let p : List Nat := s.eng.src.map (·.1)
  let d : List Nat := dst.map fun (e : Nat × Int) => e.1 + 0x400
  let ks := (m ++ p ++ d).eraseDups
  forEach ks (fun k a =>
    if !a.pointOk k then a
    else if k < 0x400 then
      let x : Smp := tget {} a.eng.src k
      let clip := if 0x200 ≤ k ∧ k < 0x220 then (a.ain (k - 0x200)).ovrRun else fullScale x.v
      a.meterFrame k x.v x.settle x.priv clip
    else
      let v := tget 0 dst (k - 0x400)
      let fl := a.dstFlags (k - 0x400)
      a.meterFrame k v fl.settle fl.priv (fullScale v)) s

/-- The ordered work of frame fr (R19). -/
def frameWork (fr t : Nat) (inp : InputSet) (s : State) : State :=
  let s1 := sourceWork fr t inp (asrcFrame s)
  let s2 := mixJobsFrame fr t (forUpto s1.nBus (busWork fr) s1)
  let s3 := txAligns fr (srcKeep s2)
  let (s4, dst) := routesWork fr t s3
  let s5 := jobsClose (txAdvance (meterWork dst (outputWork dst s4)))
  { s5 with eng := { s5.eng with pendSet := none, working := some fr, metFr := fr } }

/-- ENGINE_WORK_START: the engine is free and begins the pending set, after a step that is due and the commands that apply in its
frame. -/
def workStart (s : State) : State :=
  match s.eng.pendSet with
  | none => s
  | some (fr, inp) =>
    let s0 : State := if s.stepDue then stepApplyFrame { s with eng := { s.eng with working := none } }
      else { s with eng := { s.eng with working := none } }
    let s1 := drainAll (frameSteps fr s0.eng.pendB s0)
    if s1.eng.pendSet.isNone then s1 else frameWork fr s1.eng.pendB inp (mixJobsDone none s1)

/-! ### The boundary (R16, R17, R26 to R31) -/

/-- Gain of the late-frame mute at a place in ns (R29). -/
def muteGain (pos : Nat) : Nat := rcos (5000000 - pos) 5000000

/-- The mute's place after e ns. -/
def Eng.muteAt (g : Eng) (e : Nat) : Nat := if g.muteUp then g.mutePos - e else min 5000000 (g.mutePos + e)

/-- Gain of a step of device time at k frames of K (R369). -/
def stepGain (k n : Nat) : Nat := rcos (n - k) n

/-- A sample at the gate, times both gains (R29, R369). -/
def gateSmp (g1 g2 : Nat) (x : Int) : Int := roundAway (x * g1 * g2) (2 ^ 124)

/-- What each destination presents at the boundary that ends a late frame: its sample of the frame where it is complete,
else what it presented before; which are complete is open (R27). -/
def lateSet (k : Nat) (new old : Tab Int) : Tab Int :=
  (old.map (·.1) ++ new.map (·.1)).foldl (fun a d =>
    tset d (if Config.lateComplete k d then tget 0 new d else tget 0 old d) a) []

/-- A late frame is counted and reported (R26, R28). -/
def lateFrame (c : Nat) (disc : Bool) (s : State) : State :=
  let n := satInc 31 (s.eng.lateCnt, s.eng.lateSat)
  let s1 : State := { s with eng := { s.eng with
    lateCnt := n.1, lateSat := n.2, lateRun := min 4 (s.eng.lateRun + 1), okRun := 0, disc := s.eng.disc || disc } }
  s1.raiseLimAt 0x010 0 10000000 (le 4 n.1 ++ le 4 (c % 2 ^ 32)) s1.nowNs

/-- A frame on time is counted (R31). -/
def timelyFrame (s : State) : State :=
  { s with eng := { s.eng with lateRun := 0, okRun := min 48 (s.eng.okRun + 1) } }

/-- A discarded input set: delay lines store zero, rings move on, and the frame's commands move to the next performed frame
(R20, R30). -/
def discardSet (s : State) : State :=
  let s1 := jobsClose (srcSkip (forUpto s.nAin ainSkip (forEach (s.lines.map (·.1)) (fun k a => lineStore k 0 a) s))).bump
  { s1 with
    eng := { s1.eng with pendSet := none, applyQ := [] },
    flight := s1.flight.map fun f => if s.eng.applyQ.contains f.id ∧ f.phase = .waitFrame none
      then { f with phase := .waitFrame (some s.eng.pendB) } else f }

/-- The frame that ends: on time, late, or discarded; what the destinations now present, and the gains at this boundary. -/
def frameEnds (done : Bool) (s : State) : State :=
  let e := s.eng
  let disc := e.pendSet.isSome
  let late := disc || (e.working.isSome && !done)
  let held := if disc then e.held else if late then lateSet s.freeCtr e.outSet e.held else e.outSet
  let pos := e.muteAt (s.clk - e.lastLatch)
  let turn := s.tm.step.any fun x => decide (x.left = s.stepK + 1)
  let gs := if disc then s.tm.gs else if s.tm.gsUp then s.tm.gs - 1 else min s.stepK (s.tm.gs + 1)
  let step := if disc then s.tm.step else s.tm.step.map fun x => { x with left := x.left - 1 }
  let g1 := muteGain pos
  let g2 := stepGain gs s.stepK
  let s1 : State := { s with
    eng := { e with working := if done then none else e.working, held := held, mutePos := pos,
                    presented := held.map fun x => (x.1, gateSmp g1 g2 x.2) },
    tm := { s.tm with gs := gs, gsUp := s.tm.gsUp && !(turn && !disc), step := step } }
  let s2 := if late && !disc then s1.bump else s1
  if late then lateFrame s.tm.frame disc (if disc then discardSet s2 else s2) else timelyFrame s2

/-- The frame counter and the media count at the new boundary, which is a tick or not (R82, R310, R351, R390); the first boundary
of Idle or Run is one (log 162). -/
def countFrame (s : State) : State :=
  let m := s.tm
  let n := if m.begun then (m.frame + 1) % 2 ^ 64 else 0
  let tick := if s.eng.first then 0 else (m.tick + 1) % tickLen m.rate
  let s1 : State := { s with tm := { m with frame := n, begun := true, tick := tick, frameT := s.nowNs, mediaM := m.mediaM + 1 } }
  if m.begun ∧ n = 0 then s1.raise 0x021 [] else s1

/-- The clocked edges take the collected output set: gains, serial ports, packets of frame c (R17, R18). -/
def edgesTake (c : Nat) (s : State) : State :=
  txGather c (tpsFrame (outsFrame (linksFrame s)))

/-- The first frame of Idle or Run: what was stored in Listen takes effect (R49, R183, R262, R291, R410, R420, R436,
R457, R483). -/
def firstFrame (before : Nat) (s : State) : State :=
  let fr := s.tm.frame
  let s0 : State := { s with eng := { s.eng with first := false, held := [], presented := [], outSet := [] } }
  let s1 := outsRebase before s0.mtime (linesStored (routeStoredApply (streamsStored fr s0)))
  rateStored (rampsStored s1.tm.frameT (gaugesOn (tpsOn (lstsOn (measuresWake (jacksStored s1))))))

/-- The state at the boundary with input set n latched, output set n - 1 passed on and the frame's commands listed, before
any of them applies; `done` tells that the work begun last has ended by now. -/
def boundaryLatch (inp : InputSet) (done : Bool) (s : State) : State :=
  let first := s.eng.first
  let c := s.tm.frame
  let before := s.mtime
  let s1 := (countFrame (rxLands s.clk (xfersFrame (if first then s else frameEnds done s))))
  let s2 := if first then s1 else edgesTake c s1
  let s3 := if s2.tm.mediaSet then s2 else txRestart s2.setMedia
  let s4 : State := { s3 with eng := { s3.eng with
    pendSet := some (s3.tm.frame, inp), pendB := s3.nowNs, lastLatch := s3.clk, latchT := s3.tm.devT } }
  let sw := rateLands s4.landed.switchDue
  let s5 := schedWindow s4.tm.frame (if first then firstFrame before sw else sw)
  { s5 with eng := { s5.eng with applyQ := s5.frameCmds s5.tm.frame } }

/-- FRAME_BOUNDARY. -/
def frameBoundaryStep (inp : InputSet) (done : Bool) (s : State) : State :=
  if !s.framing || !s.tm.frameRun then s else frameOpen (boundaryLatch inp done s)

/-! ### SCHED_APPLY -/

/-- The waiting scheduled command with the earliest WHEN. -/
def State.nextSched (s : State) : Option Flight :=
  (sortBy (fun f => (nsDiff f.pkt.whenNs s.nowNs + 2 ^ 63).toNat) (s.flight.filter Flight.isSched)).head?

/-- SCHED_APPLY: the next scheduled command of the frame applies, after the last one the frame's other commands; in Listen
the next one whose WHEN has come. -/
def schedApplyStep (s : State) : State :=
  if s.inListen then
    match s.nextSched with
    | some f => let late := nsDiff s.nowNs f.pkt.whenNs
                if 0 ≤ late then applyFlight f s.nowNs late s else s
    | none => s
  else if s.eng.working.isSome || s.stepDue || !s.schedHere then s
  else
    let s1 := applyNext s
    if s1.schedHere then s1 else drainOpen s1

/-! ### The late-frame mute and the pace (R21, R29, R31) -/

/-- LATE_MUTE_START at the boundary that ends the fourth late frame. -/
def lateMuteStartStep (s : State) : State :=
  let e := s.eng
  if e.lateRun < 4 ∨ !e.muteUp then s
  else
    let s1 : State := { s with eng := { e with muteUp := false, muted := true } }
    if e.muted then s1 else s1.raiseAt 0x011 [1#8, 0#8, 0#8, 0#8] s.tm.frameT

/-- LATE_MUTE_END at the boundary that ends the 48th frame on time. -/
def lateMuteEndStep (s : State) : State :=
  if s.eng.okRun < 48 ∨ s.eng.muteUp then s else { s with eng := { s.eng with muteUp := true } }

/-- ENGINE_MUTE_CLEAR when the return ramp has reached full gain. -/
def engineMuteClearStep (s : State) : State :=
  let e := s.eng
  if e.muted ∧ e.muteUp ∧ e.muteAt (s.clk - e.lastLatch) = 0 then
    ({ s with eng := { e with muted := false, mutePos := 0 } }).raise 0x011 [0#8, 0#8, 0#8, 0#8]
  else s

/-- PACE_WINDOW: a 10 ms window ends. -/
def paceWindowStep (pace load : Nat) (s : State) : State :=
  if !s.alive then s
  else { s with eng := { s.eng with pace := pace, paceMin := min s.eng.paceMin pace, load := min 255 load } }

def execFrameBoundary (dt : Nat) (inp : InputSet) (done : Bool) (s : State) : Host.Outcome State Fault Refusal :=
  run (.frameBoundary dt inp done) s (frameBoundaryStep inp done)

def execEngineWorkStart (dt : Nat) (s : State) : Host.Outcome State Fault Refusal := run (.engineWorkStart dt) s workStart

def execLateMuteStart (dt : Nat) (s : State) : Host.Outcome State Fault Refusal := run (.lateMuteStart dt) s lateMuteStartStep

def execLateMuteEnd (dt : Nat) (s : State) : Host.Outcome State Fault Refusal := run (.lateMuteEnd dt) s lateMuteEndStep

def execEngineMuteClear (dt : Nat) (s : State) : Host.Outcome State Fault Refusal := run (.engineMuteClear dt) s engineMuteClearStep

def execPaceWindow (dt : Nat) (pace : Nat) (load : Nat) (s : State) : Host.Outcome State Fault Refusal :=
  run (.paceWindow dt pace load) s (paceWindowStep pace load)

def execSchedApply (dt : Nat) (s : State) : Host.Outcome State Fault Refusal := run (.schedApply dt) s schedApplyStep

end Sys2Proof.Machine
end

