-- ==== Sys2Proof/Machine/Rows.lean ====
section
/-!
DEFINITION. The opcode rows, each a packet that reaches its queue (R44, R62, log 6), and the rows of the interpreter.
-/
namespace Sys2Proof.Machine
open Sys2Proof

/-- NOP (R85). -/
def execNop (dt : Nat) (c : Cmd) (s : State) : Host.Outcome State Fault Refusal :=
  run (.nop dt c) s (arrive 0x0001 c)

/-- CAPS (R86). -/
def execCaps (dt : Nat) (c : Cmd) (s : State) : Host.Outcome State Fault Refusal :=
  run (.caps dt c) s (arrive 0x0002 c)

/-- ABORT (R73). -/
def execAbort (dt : Nat) (c : Cmd) (s : State) : Host.Outcome State Fault Refusal :=
  run (.abort dt c) s (arrive 0x0003 c)

/-- RESET_UNIT (R87). -/
def execResetUnit (dt : Nat) (c : Cmd) (s : State) : Host.Outcome State Fault Refusal :=
  run (.resetUnit dt c) s (arrive 0x0004 c)

/-- POWER_STATE (R88). -/
def execPowerState (dt : Nat) (c : Cmd) (s : State) : Host.Outcome State Fault Refusal :=
  run (.powerState dt c) s (arrive 0x0005 c)

/-- EVENT_MASK (R91). -/
def execEventMask (dt : Nat) (c : Cmd) (s : State) : Host.Outcome State Fault Refusal :=
  run (.eventMask dt c) s (arrive 0x0006 c)

/-- QUEUE_CONFIG (R92). -/
def execQueueConfig (dt : Nat) (c : Cmd) (s : State) : Host.Outcome State Fault Refusal :=
  run (.queueConfig dt c) s (arrive 0x0007 c)

/-- TIME_READ (R93). -/
def execTimeRead (dt : Nat) (c : Cmd) (s : State) : Host.Outcome State Fault Refusal :=
  run (.timeRead dt c) s (arrive 0x0008 c)

/-- ROUTE_SET (R179). -/
def execRouteSet (dt : Nat) (c : Cmd) (s : State) : Host.Outcome State Fault Refusal :=
  run (.routeSet dt c) s (arrive 0x0101 c)

/-- ROUTE_GET (R185). -/
def execRouteGet (dt : Nat) (c : Cmd) (s : State) : Host.Outcome State Fault Refusal :=
  run (.routeGet dt c) s (arrive 0x0102 c)

/-- ROUTE_FADE_CFG (R187). -/
def execRouteFadeCfg (dt : Nat) (c : Cmd) (s : State) : Host.Outcome State Fault Refusal :=
  run (.routeFadeCfg dt c) s (arrive 0x0103 c)

/-- MIX_STAGE (R228). -/
def execMixStage (dt : Nat) (c : Cmd) (s : State) : Host.Outcome State Fault Refusal :=
  run (.mixStage dt c) s (arrive 0x0201 c)

/-- MIX_COMMIT (R233). -/
def execMixCommit (dt : Nat) (c : Cmd) (s : State) : Host.Outcome State Fault Refusal :=
  run (.mixCommit dt c) s (arrive 0x0202 c)

/-- BUS_CFG (R236). -/
def execBusCfg (dt : Nat) (c : Cmd) (s : State) : Host.Outcome State Fault Refusal :=
  run (.busCfg dt c) s (arrive 0x0203 c)

/-- LIMITER_CFG (R238). -/
def execLimiterCfg (dt : Nat) (c : Cmd) (s : State) : Host.Outcome State Fault Refusal :=
  run (.limiterCfg dt c) s (arrive 0x0204 c)

/-- METER_CFG (R196). -/
def execMeterCfg (dt : Nat) (c : Cmd) (s : State) : Host.Outcome State Fault Refusal :=
  run (.meterCfg dt c) s (arrive 0x0301 c)

/-- METER_READ (R198). -/
def execMeterRead (dt : Nat) (c : Cmd) (s : State) : Host.Outcome State Fault Refusal :=
  run (.meterRead dt c) s (arrive 0x0302 c)

/-- METER_RESET (R201). -/
def execMeterReset (dt : Nat) (c : Cmd) (s : State) : Host.Outcome State Fault Refusal :=
  run (.meterReset dt c) s (arrive 0x0303 c)

/-- AIN_CFG (R124). -/
def execAinCfg (dt : Nat) (c : Cmd) (s : State) : Host.Outcome State Fault Refusal :=
  run (.ainCfg dt c) s (arrive 0x0401 c)

/-- AIN_PAD (R126). -/
def execAinPad (dt : Nat) (c : Cmd) (s : State) : Host.Outcome State Fault Refusal :=
  run (.ainPad dt c) s (arrive 0x0402 c)

/-- CHAIN_CFG (R157). -/
def execChainCfg (dt : Nat) (c : Cmd) (s : State) : Host.Outcome State Fault Refusal :=
  run (.chainCfg dt c) s (arrive 0x0404 c)

/-- CHAIN_SYNC (R160). -/
def execChainSync (dt : Nat) (c : Cmd) (s : State) : Host.Outcome State Fault Refusal :=
  run (.chainSync dt c) s (arrive 0x0405 c)

/-- MERGE_STATUS (R129). -/
def execMergeStatus (dt : Nat) (c : Cmd) (s : State) : Host.Outcome State Fault Refusal :=
  run (.mergeStatus dt c) s (arrive 0x0403 c)

/-- OUT_CFG (R296). -/
def execOutCfg (dt : Nat) (c : Cmd) (s : State) : Host.Outcome State Fault Refusal :=
  run (.outCfg dt c) s (arrive 0x0501 c)

/-- JACK_CFG (R300). -/
def execJackCfg (dt : Nat) (c : Cmd) (s : State) : Host.Outcome State Fault Refusal :=
  run (.jackCfg dt c) s (arrive 0x0502 c)

/-- FIRKIN_ALLOC (R258). -/
def execFirkinAlloc (dt : Nat) (c : Cmd) (s : State) : Host.Outcome State Fault Refusal :=
  run (.firkinAlloc dt c) s (arrive 0x0601 c)

/-- FIRKIN_FREE (R260). -/
def execFirkinFree (dt : Nat) (c : Cmd) (s : State) : Host.Outcome State Fault Refusal :=
  run (.firkinFree dt c) s (arrive 0x0602 c)

/-- DELAY_CFG (R261). -/
def execDelayCfg (dt : Nat) (c : Cmd) (s : State) : Host.Outcome State Fault Refusal :=
  run (.delayCfg dt c) s (arrive 0x0603 c)

/-- FIRKIN_READ (R264). -/
def execFirkinRead (dt : Nat) (c : Cmd) (s : State) : Host.Outcome State Fault Refusal :=
  run (.firkinRead dt c) s (arrive 0x0604 c)

/-- FIRKIN_WRITE (R264). -/
def execFirkinWrite (dt : Nat) (c : Cmd) (s : State) : Host.Outcome State Fault Refusal :=
  run (.firkinWrite dt c) s (arrive 0x0605 c)

/-- NET_PORT_CFG (R338). -/
def execNetPortCfg (dt : Nat) (c : Cmd) (s : State) : Host.Outcome State Fault Refusal :=
  run (.netPortCfg dt c) s (arrive 0x0701 c)

/-- TXSTREAM_CFG (R341). -/
def execTxstreamCfg (dt : Nat) (c : Cmd) (s : State) : Host.Outcome State Fault Refusal :=
  run (.txstreamCfg dt c) s (arrive 0x0702 c)

/-- RXSTREAM_CFG (R344). -/
def execRxstreamCfg (dt : Nat) (c : Cmd) (s : State) : Host.Outcome State Fault Refusal :=
  run (.rxstreamCfg dt c) s (arrive 0x0703 c)

/-- HOST_FRAME_SEND (R347). -/
def execHostFrameSend (dt : Nat) (c : Cmd) (s : State) : Host.Outcome State Fault Refusal :=
  run (.hostFrameSend dt c) s (arrive 0x0704 c)

/-- PTP_CFG (R378). -/
def execPtpCfg (dt : Nat) (c : Cmd) (s : State) : Host.Outcome State Fault Refusal :=
  run (.ptpCfg dt c) s (arrive 0x0801 c)

/-- TT_SELECT (R382). -/
def execTtSelect (dt : Nat) (c : Cmd) (s : State) : Host.Outcome State Fault Refusal :=
  run (.ttSelect dt c) s (arrive 0x0802 c)

/-- TIME_POLICY (R385). -/
def execTimePolicy (dt : Nat) (c : Cmd) (s : State) : Host.Outcome State Fault Refusal :=
  run (.timePolicy dt c) s (arrive 0x0803 c)

/-- PLL_CFG (R416). -/
def execPllCfg (dt : Nat) (c : Cmd) (s : State) : Host.Outcome State Fault Refusal :=
  run (.pllCfg dt c) s (arrive 0x0901 c)

/-- RAMP_LOAD (R419). -/
def execRampLoad (dt : Nat) (c : Cmd) (s : State) : Host.Outcome State Fault Refusal :=
  run (.rampLoad dt c) s (arrive 0x0902 c)

/-- CKO_CFG (R421). -/
def execCkoCfg (dt : Nat) (c : Cmd) (s : State) : Host.Outcome State Fault Refusal :=
  run (.ckoCfg dt c) s (arrive 0x0903 c)

/-- TDM_CFG (R438). -/
def execTdmCfg (dt : Nat) (c : Cmd) (s : State) : Host.Outcome State Fault Refusal :=
  run (.tdmCfg dt c) s (arrive 0x0A01 c)

/-- ASRC_CFG (R440). -/
def execAsrcCfg (dt : Nat) (c : Cmd) (s : State) : Host.Outcome State Fault Refusal :=
  run (.asrcCfg dt c) s (arrive 0x0A02 c)

/-- LISTEN_CFG (R465). -/
def execListenCfg (dt : Nat) (c : Cmd) (s : State) : Host.Outcome State Fault Refusal :=
  run (.listenCfg dt c) s (arrive 0x0B01 c)

/-- MODEL_LOAD (R468). -/
def execModelLoad (dt : Nat) (c : Cmd) (s : State) : Host.Outcome State Fault Refusal :=
  run (.modelLoad dt c) s (arrive 0x0B02 c)

/-- HISTORY_READ (R471). -/
def execHistoryRead (dt : Nat) (c : Cmd) (s : State) : Host.Outcome State Fault Refusal :=
  run (.historyRead dt c) s (arrive 0x0B03 c)

/-- GAUGE_SEQ (R494). -/
def execGaugeSeq (dt : Nat) (c : Cmd) (s : State) : Host.Outcome State Fault Refusal :=
  run (.gaugeSeq dt c) s (arrive 0x0C01 c)

/-- GAUGE_WINDOW (R498). -/
def execGaugeWindow (dt : Nat) (c : Cmd) (s : State) : Host.Outcome State Fault Refusal :=
  run (.gaugeWindow dt c) s (arrive 0x0C02 c)

/-- GAUGE_CAL (R500). -/
def execGaugeCal (dt : Nat) (c : Cmd) (s : State) : Host.Outcome State Fault Refusal :=
  run (.gaugeCal dt c) s (arrive 0x0C03 c)

/-- GAUGE_URGENT (R503). -/
def execGaugeUrgent (dt : Nat) (c : Cmd) (s : State) : Host.Outcome State Fault Refusal :=
  run (.gaugeUrgent dt c) s (arrive 0x0C04 c)

/-- GAUGE_PLAUS (R505). -/
def execGaugePlaus (dt : Nat) (c : Cmd) (s : State) : Host.Outcome State Fault Refusal :=
  run (.gaugePlaus dt c) s (arrive 0x0C05 c)

/-- TW1_XFER (R535). -/
def execTw1Xfer (dt : Nat) (c : Cmd) (s : State) : Host.Outcome State Fault Refusal :=
  run (.tw1Xfer dt c) s (arrive 0x0D01 c)

/-- PORT_CFG (R546). -/
def execPortCfg (dt : Nat) (c : Cmd) (s : State) : Host.Outcome State Fault Refusal :=
  run (.portCfg dt c) s (arrive 0x0D02 c)

/-- COMMAND_START (R63); a command of the test group with TMODE high is refused (R83, R588). -/
def execCommandStart (dt : Nat) (s : State) : Host.Outcome State Fault Refusal :=
  if (s.advance dt).testStart then .refused .testGroup else run (.commandStart dt) s commandStartStep

/-- RESET_UNIT_DONE (R87). -/
def execResetUnitDone (dt : Nat) (s : State) : Host.Outcome State Fault Refusal :=
  run (.resetUnitDone dt) s resetUnitDoneStep

/-- CQ_RECORD_WRITE (R520). -/
def execCqRecordWrite (dt q : Nat) (s : State) : Host.Outcome State Fault Refusal :=
  run (.cqRecordWrite dt q) s (cqRecordStep q)

/-- EVENT_LOST (R57). -/
def execEventLost (dt port : Nat) (s : State) : Host.Outcome State Fault Refusal :=
  run (.eventLost dt port) s fun a => a.flushLost port

/-- An opcode of the test group is the next packet of the configuration section. -/
def State.testConfig (s : State) : Bool :=
  match s.configNext with
  | some p => s.pins.tmode && decide (p.opc / 256 = 14) && !lenBad p.len && p.blen.isNone
  | none => false

/-- CONFIG_PACKET_RUN (R570). -/
def execConfigPacketRun (dt : Nat) (s : State) : Host.Outcome State Fault Refusal :=
  if (s.advance dt).testConfig then .refused .testGroup else run (.configPacketRun dt) s configRunStep

/-- CONFIG_TIMEOUT (R570). -/
def execConfigTimeout (dt : Nat) (s : State) : Host.Outcome State Fault Refusal :=
  run (.configTimeout dt) s configTimeoutStep

end Sys2Proof.Machine
end

