-- ==== Sys2Proof/Machine/Dispatch.lean ====
section
/-!
DEFINITION. One arm per command: the command's effect on everything but the queue of waiting commands.
-/
namespace Sys2Proof.Machine
open Sys2Proof

/-- The meaning of a command. -/
def exec (i : Instr) (s : State) : Host.Outcome State Fault Refusal :=
  match i with
  | .nop dt c => Sys2Proof.Machine.execNop dt c s
  | .caps dt c => Sys2Proof.Machine.execCaps dt c s
  | .abort dt c => Sys2Proof.Machine.execAbort dt c s
  | .resetUnit dt c => Sys2Proof.Machine.execResetUnit dt c s
  | .powerState dt c => Sys2Proof.Machine.execPowerState dt c s
  | .eventMask dt c => Sys2Proof.Machine.execEventMask dt c s
  | .queueConfig dt c => Sys2Proof.Machine.execQueueConfig dt c s
  | .timeRead dt c => Sys2Proof.Machine.execTimeRead dt c s
  | .routeSet dt c => Sys2Proof.Machine.execRouteSet dt c s
  | .routeGet dt c => Sys2Proof.Machine.execRouteGet dt c s
  | .routeFadeCfg dt c => Sys2Proof.Machine.execRouteFadeCfg dt c s
  | .mixStage dt c => Sys2Proof.Machine.execMixStage dt c s
  | .mixCommit dt c => Sys2Proof.Machine.execMixCommit dt c s
  | .busCfg dt c => Sys2Proof.Machine.execBusCfg dt c s
  | .limiterCfg dt c => Sys2Proof.Machine.execLimiterCfg dt c s
  | .meterCfg dt c => Sys2Proof.Machine.execMeterCfg dt c s
  | .meterRead dt c => Sys2Proof.Machine.execMeterRead dt c s
  | .meterReset dt c => Sys2Proof.Machine.execMeterReset dt c s
  | .ainCfg dt c => Sys2Proof.Machine.execAinCfg dt c s
  | .ainPad dt c => Sys2Proof.Machine.execAinPad dt c s
  | .chainCfg dt c => Sys2Proof.Machine.execChainCfg dt c s
  | .chainSync dt c => Sys2Proof.Machine.execChainSync dt c s
  | .mergeStatus dt c => Sys2Proof.Machine.execMergeStatus dt c s
  | .outCfg dt c => Sys2Proof.Machine.execOutCfg dt c s
  | .jackCfg dt c => Sys2Proof.Machine.execJackCfg dt c s
  | .firkinAlloc dt c => Sys2Proof.Machine.execFirkinAlloc dt c s
  | .firkinFree dt c => Sys2Proof.Machine.execFirkinFree dt c s
  | .delayCfg dt c => Sys2Proof.Machine.execDelayCfg dt c s
  | .firkinRead dt c => Sys2Proof.Machine.execFirkinRead dt c s
  | .firkinWrite dt c => Sys2Proof.Machine.execFirkinWrite dt c s
  | .netPortCfg dt c => Sys2Proof.Machine.execNetPortCfg dt c s
  | .txstreamCfg dt c => Sys2Proof.Machine.execTxstreamCfg dt c s
  | .rxstreamCfg dt c => Sys2Proof.Machine.execRxstreamCfg dt c s
  | .hostFrameSend dt c => Sys2Proof.Machine.execHostFrameSend dt c s
  | .ptpCfg dt c => Sys2Proof.Machine.execPtpCfg dt c s
  | .ttSelect dt c => Sys2Proof.Machine.execTtSelect dt c s
  | .timePolicy dt c => Sys2Proof.Machine.execTimePolicy dt c s
  | .pllCfg dt c => Sys2Proof.Machine.execPllCfg dt c s
  | .rampLoad dt c => Sys2Proof.Machine.execRampLoad dt c s
  | .ckoCfg dt c => Sys2Proof.Machine.execCkoCfg dt c s
  | .tdmCfg dt c => Sys2Proof.Machine.execTdmCfg dt c s
  | .asrcCfg dt c => Sys2Proof.Machine.execAsrcCfg dt c s
  | .listenCfg dt c => Sys2Proof.Machine.execListenCfg dt c s
  | .modelLoad dt c => Sys2Proof.Machine.execModelLoad dt c s
  | .historyRead dt c => Sys2Proof.Machine.execHistoryRead dt c s
  | .gaugeSeq dt c => Sys2Proof.Machine.execGaugeSeq dt c s
  | .gaugeWindow dt c => Sys2Proof.Machine.execGaugeWindow dt c s
  | .gaugeCal dt c => Sys2Proof.Machine.execGaugeCal dt c s
  | .gaugeUrgent dt c => Sys2Proof.Machine.execGaugeUrgent dt c s
  | .gaugePlaus dt c => Sys2Proof.Machine.execGaugePlaus dt c s
  | .tw1Xfer dt c => Sys2Proof.Machine.execTw1Xfer dt c s
  | .portCfg dt c => Sys2Proof.Machine.execPortCfg dt c s
  | .sqTailDoorbell dt q v => Sys2Proof.Machine.execSqTailDoorbell dt q v s
  | .cqHeadRelease dt port q v => Sys2Proof.Machine.execCqHeadRelease dt port q v s
  | .qStatOvfClear dt port q v => Sys2Proof.Machine.execQStatOvfClear dt port q v s
  | .irqStatClear dt port v => Sys2Proof.Machine.execIrqStatClear dt port v s
  | .portErrClear dt port v => Sys2Proof.Machine.execPortErrClear dt port v s
  | .snapLatch dt port v => Sys2Proof.Machine.execSnapLatch dt port v s
  | .engPaceClear dt v => Sys2Proof.Machine.execEngPaceClear dt v s
  | .engStatDiscClear dt v => Sys2Proof.Machine.execEngStatDiscClear dt v s
  | .engLateClear dt v => Sys2Proof.Machine.execEngLateClear dt v s
  | .registerWrite dt port addr v => Sys2Proof.Machine.execRegisterWrite dt port addr v s
  | .hostSlotRelease dt slot => Sys2Proof.Machine.execHostSlotRelease dt slot s
  | .read dt addr n => Sys2Proof.Machine.execRead dt addr n s
  | .fastRead dt addr n => Sys2Proof.Machine.execFastRead dt addr n s
  | .quadRead dt addr n => Sys2Proof.Machine.execQuadRead dt addr n s
  | .write dt addr data => Sys2Proof.Machine.execWrite dt addr data s
  | .quadWrite dt addr data => Sys2Proof.Machine.execQuadWrite dt addr data s
  | .readStatus dt n => Sys2Proof.Machine.execReadStatus dt n s
  | .readId dt n => Sys2Proof.Machine.execReadId dt n s
  | .qspiUnknownInstruction dt code => Sys2Proof.Machine.execQspiUnknownInstruction dt code s
  | .tw0Write dt data stop => Sys2Proof.Machine.execTw0Write dt data stop s
  | .tw0Read dt n => Sys2Proof.Machine.execTw0Read dt n s
  | .tw0ReadShadowExpire dt => Sys2Proof.Machine.execTw0ReadShadowExpire dt s
  | .tw0WriteShadowExpire dt => Sys2Proof.Machine.execTw0WriteShadowExpire dt s
  | .tw0StuckRelease dt => Sys2Proof.Machine.execTw0StuckRelease dt s
  | .tw0WakeMatch dt => Sys2Proof.Machine.execTw0WakeMatch dt s
  | .extest dt cells => Sys2Proof.Machine.execExtest dt cells s
  | .samplePreload dt cells => Sys2Proof.Machine.execSamplePreload dt cells s
  | .idcode dt => Sys2Proof.Machine.execIdcode dt s
  | .clamp dt => Sys2Proof.Machine.execClamp dt s
  | .highz dt => Sys2Proof.Machine.execHighz dt s
  | .extestPulse dt cells => Sys2Proof.Machine.execExtestPulse dt cells s
  | .extestTrain dt cells => Sys2Proof.Machine.execExtestTrain dt cells s
  | .bypass dt => Sys2Proof.Machine.execBypass dt s
  | .tapReset dt => Sys2Proof.Machine.execTapReset dt s
  | .tmodeChange dt level => Sys2Proof.Machine.execTmodeChange dt level s
  | .rstNAssert dt => Sys2Proof.Machine.execRstNAssert dt s
  | .powerOnReset dt => Sys2Proof.Machine.execPowerOnReset dt s
  | .crystalStop dt => Sys2Proof.Machine.execCrystalStop dt s
  | .pgInRise dt => Sys2Proof.Machine.execPgInRise dt s
  | .bootStep dt image bus => Sys2Proof.Machine.execBootStep dt image bus s
  | .bootWindowPoll dt => Sys2Proof.Machine.execBootWindowPoll dt s
  | .configPacketRun dt => Sys2Proof.Machine.execConfigPacketRun dt s
  | .configTimeout dt => Sys2Proof.Machine.execConfigTimeout dt s
  | .pgInLost dt => Sys2Proof.Machine.execPgInLost dt s
  | .pwrEnRetry dt => Sys2Proof.Machine.execPwrEnRetry dt s
  | .vcoreBrownOut dt mv => Sys2Proof.Machine.execVcoreBrownOut dt mv s
  | .vcoreLow dt mv => Sys2Proof.Machine.execVcoreLow dt mv s
  | .wakeN dt => Sys2Proof.Machine.execWakeN dt s
  | .heldWake dt => Sys2Proof.Machine.execHeldWake dt s
  | .runEntryStep dt => Sys2Proof.Machine.execRunEntryStep dt s
  | .hibernateEntryStep dt => Sys2Proof.Machine.execHibernateEntryStep dt s
  | .privNAssert dt => Sys2Proof.Machine.execPrivNAssert dt s
  | .privNRelease dt => Sys2Proof.Machine.execPrivNRelease dt s
  | .thermal dt tjC tjE => Sys2Proof.Machine.execThermal dt tjC tjE s
  | .thermalRestart dt => Sys2Proof.Machine.execThermalRestart dt s
  | .spkOvercurrent dt k => Sys2Proof.Machine.execSpkOvercurrent dt k s
  | .spkDcFault dt k => Sys2Proof.Machine.execSpkDcFault dt k s
  | .hpCurrentLimit dt k => Sys2Proof.Machine.execHpCurrentLimit dt k s
  | .pvddUnder dt mv => Sys2Proof.Machine.execPvddUnder dt mv s
  | .pvddOver dt mv => Sys2Proof.Machine.execPvddOver dt mv s
  | .pvddRecovery dt mv => Sys2Proof.Machine.execPvddRecovery dt mv s
  | .outSeqStep dt g => Sys2Proof.Machine.execOutSeqStep dt g s
  | .cpRailLower dt k => Sys2Proof.Machine.execCpRailLower dt k s
  | .jackEdge dt j level => Sys2Proof.Machine.execJackEdge dt j level s
  | .jackDebounceExpire dt j => Sys2Proof.Machine.execJackDebounceExpire dt j s
  | .headsetMeasureDone dt j i1 i2 => Sys2Proof.Machine.execHeadsetMeasureDone dt j i1 i2 s
  | .buttonPoll dt j v => Sys2Proof.Machine.execButtonPoll dt j v s
  | .frameBoundary dt inp done => Sys2Proof.Machine.execFrameBoundary dt inp done s
  | .engineWorkStart dt => Sys2Proof.Machine.execEngineWorkStart dt s
  | .lateMuteStart dt => Sys2Proof.Machine.execLateMuteStart dt s
  | .lateMuteEnd dt => Sys2Proof.Machine.execLateMuteEnd dt s
  | .engineMuteClear dt => Sys2Proof.Machine.execEngineMuteClear dt s
  | .paceWindow dt pace load => Sys2Proof.Machine.execPaceWindow dt pace load s
  | .commandStart dt => Sys2Proof.Machine.execCommandStart dt s
  | .schedApply dt => Sys2Proof.Machine.execSchedApply dt s
  | .cqRecordWrite dt q => Sys2Proof.Machine.execCqRecordWrite dt q s
  | .eventLost dt port => Sys2Proof.Machine.execEventLost dt port s
  | .routeFadeEnd dt dst => Sys2Proof.Machine.execRouteFadeEnd dt dst s
  | .routeHeldApply dt dst => Sys2Proof.Machine.execRouteHeldApply dt dst s
  | .zeroFallback dt dst => Sys2Proof.Machine.execZeroFallback dt dst s
  | .mixFadeEnd dt => Sys2Proof.Machine.execMixFadeEnd dt s
  | .delayXfadeEnd dt k => Sys2Proof.Machine.execDelayXfadeEnd dt k s
  | .delayHeldApply dt k => Sys2Proof.Machine.execDelayHeldApply dt k s
  | .unbindFadeEnd dt k => Sys2Proof.Machine.execUnbindFadeEnd dt k s
  | .padSteppedStart dt ch => Sys2Proof.Machine.execPadSteppedStart dt ch s
  | .padChangeDone dt ch => Sys2Proof.Machine.execPadChangeDone dt ch s
  | .mergeCalBlock dt ch pair m => Sys2Proof.Machine.execMergeCalBlock dt ch pair m s
  | .frontEndPowered dt ch => Sys2Proof.Machine.execFrontEndPowered dt ch s
  | .settleEnd dt ch => Sys2Proof.Machine.execSettleEnd dt ch s
  | .linkChange dt p speed an rf => Sys2Proof.Machine.execLinkChange dt p speed an rf s
  | .ethFrameRx dt p frame ok => Sys2Proof.Machine.execEthFrameRx dt p frame ok s
  | .igmpReportSend dt p => Sys2Proof.Machine.execIgmpReportSend dt p s
  | .txMediaPacket dt p st => Sys2Proof.Machine.execTxMediaPacket dt p st s
  | .hostFrameDepart dt p => Sys2Proof.Machine.execHostFrameDepart dt p s
  | .rxNoSignal dt st => Sys2Proof.Machine.execRxNoSignal dt st s
  | .rxPathTimeout dt st p => Sys2Proof.Machine.execRxPathTimeout dt st p s
  | .rxStream dt st => Sys2Proof.Machine.execRxStream dt st s
  | .fjarordEventSend dt => Sys2Proof.Machine.execFjarordEventSend dt s
  | .ptpDelayReqSend dt t => Sys2Proof.Machine.execPtpDelayReqSend dt t s
  | .leaderAnnounceSync dt t sync => Sys2Proof.Machine.execLeaderAnnounceSync dt t sync s
  | .announceTimeout dt t => Sys2Proof.Machine.execAnnounceTimeout dt t s
  | .followerForget dt t => Sys2Proof.Machine.execFollowerForget dt t s
  | .trackerEval dt => Sys2Proof.Machine.execTrackerEval dt s
  | .stepApply dt => Sys2Proof.Machine.execStepApply dt s
  | .slewEnd dt => Sys2Proof.Machine.execSlewEnd dt s
  | .mpllRefLoss dt m => Sys2Proof.Machine.execMpllRefLoss dt m s
  | .mpllRefReturn dt m phi ppb => Sys2Proof.Machine.execMpllRefReturn dt m phi ppb s
  | .mpllPhaseLock dt m => Sys2Proof.Machine.execMpllPhaseLock dt m s
  | .phaseSlewEnd dt m => Sys2Proof.Machine.execPhaseSlewEnd dt m s
  | .mpllLossOfLock dt m => Sys2Proof.Machine.execMpllLossOfLock dt m s
  | .mpllRelockStep dt m => Sys2Proof.Machine.execMpllRelockStep dt m s
  | .mpllLock dt m => Sys2Proof.Machine.execMpllLock dt m s
  | .rampSegmentEnd dt m => Sys2Proof.Machine.execRampSegmentEnd dt m s
  | .pullRampEnd dt m => Sys2Proof.Machine.execPullRampEnd dt m s
  | .rateChangeApply dt => Sys2Proof.Machine.execRateChangeApply dt s
  | .ckoApply dt k => Sys2Proof.Machine.execCkoApply dt k s
  | .tpFrame dt p slots valid mhz => Sys2Proof.Machine.execTpFrame dt p slots valid mhz s
  | .tpClockLoss dt p => Sys2Proof.Machine.execTpClockLoss dt p s
  | .asrcLock dt ch ratio => Sys2Proof.Machine.execAsrcLock dt ch ratio s
  | .asrcUnlock dt ch ratio => Sys2Proof.Machine.execAsrcUnlock dt ch ratio s
  | .listenSample dt m0 m1 => Sys2Proof.Machine.execListenSample dt m0 m1 s
  | .listenClockSwitch dt => Sys2Proof.Machine.execListenClockSwitch dt s
  | .vadBlock dt => Sys2Proof.Machine.execVadBlock dt s
  | .phraseHop dt => Sys2Proof.Machine.execPhraseHop dt s
  | .candidateTimeout dt => Sys2Proof.Machine.execCandidateTimeout dt s
  | .hibernateDeferralExpire dt => Sys2Proof.Machine.execHibernateDeferralExpire dt s
  | .historyWaitDone dt => Sys2Proof.Machine.execHistoryWaitDone dt s
  | .modelCommitDone dt => Sys2Proof.Machine.execModelCommitDone dt s
  | .gaugePassDue dt c => Sys2Proof.Machine.execGaugePassDue dt c s
  | .urgentConversionStart dt c => Sys2Proof.Machine.execUrgentConversionStart dt c s
  | .gaugeConversionEnd dt c raw ovr => Sys2Proof.Machine.execGaugeConversionEnd dt c raw ovr s
  | .gaugeCalStepDone dt c raws ovrAt => Sys2Proof.Machine.execGaugeCalStepDone dt c raws ovrAt s
  | .regionClearDone dt => Sys2Proof.Machine.execRegionClearDone dt s
  | .bulkTransferDone dt => Sys2Proof.Machine.execBulkTransferDone dt s
  | .tw1AttemptStart dt pulses held arb => Sys2Proof.Machine.execTw1AttemptStart dt pulses held arb s
  | .tw1StretchTimeout dt moved => Sys2Proof.Machine.execTw1StretchTimeout dt moved s
  | .tw1XferDone dt acked addrOk data => Sys2Proof.Machine.execTw1XferDone dt acked addrOk data s
  | .rstNRelease dt straps => Sys2Proof.Machine.execRstNRelease dt straps s
  | .vaonValid dt straps => Sys2Proof.Machine.execVaonValid dt straps s
  | .crystalRestart dt straps => Sys2Proof.Machine.execCrystalRestart dt straps s
  | .vcoreRecovery dt mv => Sys2Proof.Machine.execVcoreRecovery dt mv s
  | .pwrEnRaise dt => Sys2Proof.Machine.execPwrEnRaise dt s
  | .resetUnitDone dt => Sys2Proof.Machine.execResetUnitDone dt s
  | .headsetMeasurementStart dt j => Sys2Proof.Machine.execHeadsetMeasurementStart dt j s

end Sys2Proof.Machine
end

