-- ==== Sys2Proof/Safety.lean ====
section
/-!
DEFINITION. The terms claims are stated in: which packet a row carries, when a packet starts as it arrives, the state in
which it has started, the answer of a command, and the invariant every step keeps.
-/
namespace Sys2Proof.Machine
open Sys2Proof

/-- The opcode and the fields of a row that is a packet; none for every other row. -/
def packetRow : Instr → Option (Nat × Cmd)
  | .nop _ c => some (0x0001, c)
  | .caps _ c => some (0x0002, c)
  | .abort _ c => some (0x0003, c)
  | .resetUnit _ c => some (0x0004, c)
  | .powerState _ c => some (0x0005, c)
  | .eventMask _ c => some (0x0006, c)
  | .queueConfig _ c => some (0x0007, c)
  | .timeRead _ c => some (0x0008, c)
  | .routeSet _ c => some (0x0101, c)
  | .routeGet _ c => some (0x0102, c)
  | .routeFadeCfg _ c => some (0x0103, c)
  | .mixStage _ c => some (0x0201, c)
  | .mixCommit _ c => some (0x0202, c)
  | .busCfg _ c => some (0x0203, c)
  | .limiterCfg _ c => some (0x0204, c)
  | .meterCfg _ c => some (0x0301, c)
  | .meterRead _ c => some (0x0302, c)
  | .meterReset _ c => some (0x0303, c)
  | .ainCfg _ c => some (0x0401, c)
  | .ainPad _ c => some (0x0402, c)
  | .mergeStatus _ c => some (0x0403, c)
  | .chainCfg _ c => some (0x0404, c)
  | .chainSync _ c => some (0x0405, c)
  | .outCfg _ c => some (0x0501, c)
  | .jackCfg _ c => some (0x0502, c)
  | .firkinAlloc _ c => some (0x0601, c)
  | .firkinFree _ c => some (0x0602, c)
  | .delayCfg _ c => some (0x0603, c)
  | .firkinRead _ c => some (0x0604, c)
  | .firkinWrite _ c => some (0x0605, c)
  | .netPortCfg _ c => some (0x0701, c)
  | .txstreamCfg _ c => some (0x0702, c)
  | .rxstreamCfg _ c => some (0x0703, c)
  | .hostFrameSend _ c => some (0x0704, c)
  | .ptpCfg _ c => some (0x0801, c)
  | .ttSelect _ c => some (0x0802, c)
  | .timePolicy _ c => some (0x0803, c)
  | .pllCfg _ c => some (0x0901, c)
  | .rampLoad _ c => some (0x0902, c)
  | .ckoCfg _ c => some (0x0903, c)
  | .tdmCfg _ c => some (0x0A01, c)
  | .asrcCfg _ c => some (0x0A02, c)
  | .listenCfg _ c => some (0x0B01, c)
  | .modelLoad _ c => some (0x0B02, c)
  | .historyRead _ c => some (0x0B03, c)
  | .gaugeSeq _ c => some (0x0C01, c)
  | .gaugeWindow _ c => some (0x0C02, c)
  | .gaugeCal _ c => some (0x0C03, c)
  | .gaugeUrgent _ c => some (0x0C04, c)
  | .gaugePlaus _ c => some (0x0C05, c)
  | .tw1Xfer _ c => some (0x0D01, c)
  | .portCfg _ c => some (0x0D02, c)
  | _ => none

/-- The packet of a row as its queue holds it: the next arrival. -/
def State.packet (s : State) (opc : Nat) (c : Cmd) : Packet :=
  { opc := opc, queue := c.queue, tag := c.tag, len := c.len, flags := c.flags, rsvd := c.rsvd, whenNs := c.whenNs,
    params := c.params, arrival := s.arr }

/-- The interpreter is free for a packet that reaches queue q: its port brings packets to it, commands can start, it is no event queue
and has room, and no other packet waits or is in flight (R58, R62, R63). -/
def State.freeFor (s : State) (q : Nat) : Bool :=
  s.reaches q && s.mayStart && decide ((s.queue q).cls ≠ .event) &&
  decide ((s.queue q).waitRecs.length < 64) && s.flight.isEmpty && decide (q < 32) &&
  (List.range 32).all fun k => (s.queue k).unstarted.isEmpty

/-- The interpreter is free for a packet of queue q, and no frame's input set waits for its work. -/
def State.opensTo (s : State) (q : Nat) : Bool := s.freeFor q && s.eng.pendSet.isNone

/-- The state in which that packet has left its queue and is about to start (R62, R63). -/
def State.taken (s : State) (p : Packet) : State :=
  let qu := s.queue p.queue
  { s with queues := tset p.queue qu s.queues, arr := s.arr + 1,
           rr := if qu.cls = .normal ∧ p.opc ≠ 0x0003 then (p.queue + 1) % 32 else s.rr }

/-- The state in which that packet has left its queue and is in flight (R62, R63). -/
def State.began (s : State) (p : Packet) : State :=
  let qu := s.queue p.queue
  { s with
    queues := tset p.queue qu s.queues, arr := s.arr + 1, seq := s.seq + 1,
    rr := if qu.cls = .normal ∧ p.opc ≠ 0x0003 then (p.queue + 1) % 32 else s.rr,
    flight := [{ id := s.seq + 1, pkt := p, port := qu.port, startNs := s.nowNs, startClk := s.clk, phase := .running }] }

/-- The state in which that packet is in flight with what it fixes as it starts: a ROUTE_SET its requests, a bulk FIRKIN_WRITE the
window's content (R179, R180, R265). -/
def State.launched (s : State) (p : Packet) : State :=
  takeWindow (s.seq + 1) p (if p.opc = 0x0101 then routeSetStart (s.seq + 1) p (s.began p) else s.began p)

/-- The only command in flight has completed: none is left, and its record is on its queue, except with QUIET and OK
(R44, R50, R66). -/
def State.answered (s : State) (p : Packet) (status done : Nat) (data : List Byte) : State :=
  let s0 : State := { s with flight := [] }
  if status = stOk ∧ bit p.flags 3 then s0
  else s0.postRec p.queue { tag := p.tag, status := status, queue := p.queue, doneNs := done, data := data, origin := p.origin }

/-- The invariant: no command that has completed still waits for its record to be handed to its queue, except one whose DONE is
the boundary of a frame whose work has yet to begin (R66, log 42). -/
def State.Inv (s : State) : Prop := ∀ f ∈ s.flight, s.settled f = false

/-- A packet meets a free interpreter, passes its checks and is not scheduled: it starts as it arrives (R46, R62, R63, R67). -/
def State.accepts (s : State) (opc : Nat) (c : Cmd) : Bool :=
  c.wf && s.opensTo c.queue && !bit c.flags 0 &&
  (startErr (s.packet opc c) (s.queue c.queue).port (s.taken (s.packet opc c))).isNone

/-- The frame at hand takes a command tied to it: its input set is latched, its work has not begun, no earlier frame's work runs, no
other command waits for it, and no time step is due at its boundary (R180, R369). -/
def State.frameHere (s : State) : Bool :=
  s.framing && s.eng.pendSet.isSome && s.eng.working.isNone && s.eng.applyQ.isEmpty && !s.stepDue

/-- An opcode tied to a frame (R67). -/
def tiedOpc (opc : Nat) : Bool :=
  match opDef opc with
  | some d => d.tied
  | none => false

/-- A packet that is not scheduled meets a free interpreter, passes its checks and takes effect as it arrives: its opcode is not tied
to a frame, or the part listens, or the frame at hand takes it; a ROUTE_GET waits for the frame's work, and an ABORT finds nothing that
waits for a late engine (R46, R67, R74, R180, R183, R185). -/
def State.takes (s : State) (opc : Nat) (c : Cmd) : Bool :=
  c.wf && s.freeFor c.queue && !bit c.flags 0 &&
  (startErr (s.packet opc c) (s.queue c.queue).port (s.taken (s.packet opc c))).isNone &&
  (!tiedOpc opc || s.inListen || (s.frameHere && decide (opc ≠ 0x0102))) && (decide (opc ≠ 0x0003) || s.eng.applyQ.isEmpty)

/-- The state that the effect `ap` of such a packet leaves; a command of the frame at hand has the frame's boundary as its time, every
other the present moment. What ends in the effect hands its record on; where the effect enters Listen, what waited for a frame is
settled (R67, R183). -/
def State.effect (s : State) (opc : Nat) (c : Cmd) (ap : Nat → Packet → Nat → State → State) : State :=
  let p := s.packet opc c
  let t := ap (s.seq + 1) p (if tiedOpc opc && !s.inListen then s.apT else s.nowNs) (s.launched p)
  State.flush (if s.inListen then t else listenSettle t)

/-- Port p takes a frame: it is present and up, the frame is no error and no pause, and its destination passes (R309 rows 1 to 3). -/
def State.rxPasses (s : State) (p : Nat) (f : List Byte) : Bool :=
  s.portUp p && !(s.isSmall && decide (p = 1)) && decide (f.length + 4 ≤ (s.netP p).mtu) && !flowControl f &&
  (bit (s.netP p).nfl 3 || decide ((ethOf f).dst = (s.netP p).mac) || decide ((ethOf f).dst = 0xFFFFFFFFFFFF) ||
   (s.filters p).contains (ethOf f).dst)

/-- A frame of port p that is no tracker's (R309 row 4). -/
def State.rxPlain (s : State) (p : Nat) (f : List Byte) : Bool :=
  match ptpOf (ethOf f) f with
  | some (l2, m) => (s.ptpOwner p l2 m).isNone
  | none => true

/-- A datagram for the Fjarord port of an address of port p, or broadcast (R309 row 6). -/
def State.fjPort (s : State) (p : Nat) (ip : Ip4) (u : Udp) : Bool :=
  decide (u.dport = 49512) && (decide (ip.dst = 0xFFFFFFFF) || (decide ((s.netP p).ipv4 ≠ 0) && decide (ip.dst = (s.netP p).ipv4)))

/-- A frame that no tracker, no stream and no Fjarord port takes (R309 rows 4 to 6). -/
def State.rxLeft (s : State) (p : Nat) (f : List Byte) : Bool :=
  s.rxPlain p f && match ip4Of f with
  | none => true
  | some ip => match udpOf ip with
    | none => true
    | some u => (s.rxMatch p ip u).isNone && !s.fjPort p ip u

/-- A register port runs: QSPI, or TW0 (R507, R531). -/
def State.portRuns (s : State) (port : Nat) : Bool := if port = 1 then s.qspiOn else s.tw0On

/-- The address of byte k of a burst that starts at address a (R509). -/
def burstAddr (a : Nat) : Nat → Nat
  | 0 => a
  | k + 1 => nextAddr (burstAddr a k)

end Sys2Proof.Machine
end

