-- ==== Sys2Proof/Certificates/Slice0/Obligations.lean ====
section
/-!
DEFINITION. The statements for the provers. A statement about a row speaks of the state `s.advance dt`: the state before the
row's own effect, dt ns later. `State.flush` hands on the records of commands that have completed; a statement with the premise
`s.Inv` needs none of it.
-/
open Sys2Proof Sys2Proof.Machine

/-! ### The block: its queue of waiting commands, reset, and what every step keeps -/

/-- One step takes the command at the front of the queue and runs it on the state with the queue's rest; with no command waiting
the block idles, and the state stays as it is (log 1, DESIGN CHOICE). -/
def Obligations.StepRunsFront : Prop :=
  (∀ (c : Instr) (rest : List Instr) (s : State), s.pending = c :: rest → step s = exec c { s with pending := rest }) ∧
  ∀ s : State, s.pending = [] → step s = .next s

/-- After reset every queue has the port and the class that the table of R60 gives it, and holds nothing. -/
def Obligations.ResetBindsQueues : Prop :=
  ∀ q : Nat, q < 32 →
    (State.reset.queue q).port = (if q < 20 then 1 else if q < 28 then 2 else 3) ∧
    (State.reset.queue q).cls =
      (if q = 0 ∨ q = 20 ∨ q = 28 then .urgent else if q = 1 ∨ q = 21 ∨ q = 29 then .event
       else if 16 ≤ q ∧ q < 20 then .bulk else .normal) ∧
    State.reset.level q = 0 ∧ (State.reset.queue q).recEnds = [] ∧ (State.reset.queue q).waitRecs = []

/-- After reset every register of a host port's copy and of the engine holds the value its table gives, no command is in
flight, and memory lists nothing.
That memory lists nothing, and that PACE reads 0, are the model's choices (logs 114, 13, DESIGN CHOICE). -/
def Obligations.ResetLeavesRegisters : Prop :=
  (∀ port : Nat, (State.reset.pr port).irqEn = 0x0000000B ∧ (State.reset.pr port).cqIrqEn = 0xFFFFFFFF ∧
    (State.reset.pr port).errWord = 0) ∧
  State.reset.engPace = 0xFFFF0000 ∧ State.reset.engLate = 0 ∧ State.reset.engStat = 0 ∧
  State.reset.flight = [] ∧ State.reset.mem = [] ∧ State.reset.tw0.cmem = [] ∧ State.reset.fk = [] ∧
  memWf State.reset.mem = true ∧ State.reset.pwr.ready = false

/-- Reset meets the invariant: no completed command still waits for its record to be handed on. -/
def Obligations.ResetMeetsInvariant : Prop := State.reset.Inv

/-- Whatever command runs, in whatever state: after its step no completed command still waits for its record to be handed to
its queue, but for one whose DONE is the boundary of a frame whose work has yet to begin (R66, log 42). -/
def Obligations.StepKeepsInvariant : Prop := ∀ s t : State, s.Inv → step s = .next t → t.Inv

/-- Every outcome of a step is a next state or a refusal by name; the block knows no fault, and it refuses only an ill-formed
command, or a command of the test group while TMODE is high. -/
def Obligations.StepRefusesOnlyByName : Prop :=
  ∀ (i : Instr) (s : State), (∃ t, exec i s = .next t) ∨ (exec i s = .refused .illFormed ∧ i.wf = false) ∨
    (exec i s = .refused .testGroup ∧ s.pins.tmode = true ∧ ∃ dt, i = .commandStart dt ∨ i = .configPacketRun dt)

/-! ### The interpreter -/

/-- A packet that meets a free interpreter and fails a check has no effect: it leaves its queue, and its record with the status
and the eight bytes of R51 is all it leaves.
That the packet starts in the row that brings it is the model's choice (log 6, DESIGN CHOICE). -/
def Obligations.RefusedCommandLeavesOnlyItsRecord : Prop :=
  ∀ (i : Instr) (opc : Nat) (c : Cmd) (s : State) (e : Err), packetRow i = some (opc, c) → c.wf = true →
    (s.advance i.dt).opensTo c.queue = true →
    startErr ((s.advance i.dt).packet opc c) ((s.advance i.dt).queue c.queue).port
      ((s.advance i.dt).taken ((s.advance i.dt).packet opc c)) = some e →
    exec i s = .next (((s.advance i.dt).began ((s.advance i.dt).packet opc c)).answered ((s.advance i.dt).packet opc c) e.status
      (s.advance i.dt).nowNs (errData e))

/-- A packet that meets a free interpreter, passes its checks, is not scheduled, and belongs to no frame (or comes in Listen)
takes its effect at once, as its opcode says.
That the packet starts in the row that brings it is the model's choice (log 6, DESIGN CHOICE). -/
def Obligations.CommandTakesEffectAtOnce : Prop :=
  ∀ (i : Instr) (opc : Nat) (c : Cmd) (s : State) (d : OpDef), packetRow i = some (opc, c) → c.wf = true →
    (s.advance i.dt).opensTo c.queue = true → opDef opc = some d →
    startErr ((s.advance i.dt).packet opc c) ((s.advance i.dt).queue c.queue).port
      ((s.advance i.dt).taken ((s.advance i.dt).packet opc c)) = none →
    bit c.flags 0 = false → (d.tied = false ∨ (s.advance i.dt).inListen = true) →
    let t := d.apply ((s.advance i.dt).seq + 1) ((s.advance i.dt).packet opc c) (s.advance i.dt).nowNs
      ((s.advance i.dt).launched ((s.advance i.dt).packet opc c))
    exec i s = .next (if (s.advance i.dt).inListen then t.flush else (listenSettle t).flush)

/-- Outside Listen a command tied to a frame that is not scheduled waits for the boundary of its frame, with no effect yet.
That the packet starts in the row that brings it is the model's choice (log 6, DESIGN CHOICE). -/
def Obligations.TiedCommandWaitsForItsFrame : Prop :=
  ∀ (i : Instr) (opc : Nat) (c : Cmd) (s : State) (d : OpDef), packetRow i = some (opc, c) → c.wf = true →
    (s.advance i.dt).opensTo c.queue = true → opDef opc = some d →
    startErr ((s.advance i.dt).packet opc c) ((s.advance i.dt).queue c.queue).port
      ((s.advance i.dt).taken ((s.advance i.dt).packet opc c)) = none →
    bit c.flags 0 = false → d.tied = true → (s.advance i.dt).inListen = false →
    exec i s = .next (((s.advance i.dt).launched ((s.advance i.dt).packet opc c)).setPhase ((s.advance i.dt).seq + 1) (.waitFrame none))

/-- A scheduled command outside Listen waits for its WHEN; with NOTAFTER and a WHEN in the past it ends with EXPIRED and has no
effect.
That the packet starts in the row that brings it is the model's choice (log 6, DESIGN CHOICE). -/
def Obligations.ScheduledCommandWaitsOrExpires : Prop :=
  ∀ (i : Instr) (opc : Nat) (c : Cmd) (s : State) (d : OpDef), packetRow i = some (opc, c) → c.wf = true →
    (s.advance i.dt).opensTo c.queue = true → opDef opc = some d →
    startErr ((s.advance i.dt).packet opc c) ((s.advance i.dt).queue c.queue).port
      ((s.advance i.dt).taken ((s.advance i.dt).packet opc c)) = none →
    bit c.flags 0 = true → (s.advance i.dt).inListen = false →
    let b := (s.advance i.dt).launched ((s.advance i.dt).packet opc c)
    exec i s = .next (if bit c.flags 1 && b.whenPast c.whenNs
      then ({ b with routeJobs := tdel ((s.advance i.dt).seq + 1) b.routeJobs } : State).answered ((s.advance i.dt).packet opc c)
        stExpired (s.advance i.dt).nowNs (errData { status := stExpired })
      else b.setPhase ((s.advance i.dt).seq + 1) .waitWhen)

/-- SCHED_APPLY: the one scheduled command of the frame, due and not late, with no step of device time due first, whose checks pass
again, takes its effect as its opcode says, at the frame's boundary; a ROUTE_GET waits for the frame's work, and this row leaves it (R20,
R69, R185).
The row stands for that boundary (logs 3, 7). -/
def Obligations.ScheduledCommandAppliesAtItsFrame : Prop :=
  ∀ (dt : Nat) (s : State) (f : Flight) (d : OpDef), (s.advance dt).flight = [f] → (s.advance dt).eng.applyQ = [f.id] →
    f.phase = .waitWhen → f.pkt.sched = true → opDef f.pkt.opc = some d → (s.advance dt).inListen = false →
    (s.advance dt).eng.working = none → (s.advance dt).stepDue = false →
    nsDiff (s.advance dt).apT f.pkt.whenNs ≤ 0 →
    let b : State := { s.advance dt with eng := { (s.advance dt).eng with applyQ := [] },
                                         flight := [{ f with phase := .running }] }
    d.chk f.pkt b = none →
    let t := listenSettle (d.apply f.id f.pkt (s.advance dt).apT b)
    exec (.schedApply dt) s = .next (State.flush (if f.pkt.opc = 0x0102 then s.advance dt
      else if t.schedHere then t else drainOpen t))

/-! ### The register file, QSPI and TW0 -/

/-- The clear, latch and enable registers: each write does what its table says and changes nothing else (R22, R515 to R518). -/
def Obligations.RegisterClearsActAlone : Prop :=
  ∀ (dt port q v : Nat) (s a : State), s.Inv → s.advance dt = a → regPort port = true → q < 32 → v < 4294967296 → a.pwr.ready = true →
    (a.portRuns port = true →
      exec (.qStatOvfClear dt port q v) s = .next (if bit v 7 then a.setQueue q { a.queue q with ovf := false } else a) ∧
      exec (.irqStatClear dt port v) s = .next (a.setPr port { a.pr port with
        stickyErr := (a.pr port).stickyErr && !bit v 4, stickyBoot := (a.pr port).stickyBoot && !bit v 3 }) ∧
      exec (.portErrClear dt port v) s =
        .next (a.setPr port { a.pr port with errCnt := 0, errSat := false, errQueue := 0, errCause := 0 }) ∧
      exec (.snapLatch dt port v) s = .next (if bit v 0 then a.setPr port { a.pr port with
        snapNs := a.nowNs, snapFrac := a.tm.devT % 65536, snapFrame := a.tm.frame, snapDone := true } else a)) ∧
    (a.qspiOn = true →
      exec (.engPaceClear dt v) s = .next { a with eng := { a.eng with paceMin := 0xFFFF } } ∧
      exec (.engStatDiscClear dt v) s = .next { a with eng := { a.eng with disc := a.eng.disc && !bit v 10 } } ∧
      exec (.engLateClear dt v) s = .next { a with eng := { a.eng with lateCnt := 0, lateSat := false } })

/-- REGISTER_WRITE: IRQ_EN keeps its bit 0 at 1, CQ_IRQ_EN takes the value, and a write to a register that is only read is
cause 6 and changes nothing else; before READY no register takes a write (R510, R513, R515, R517, R566). -/
def Obligations.RegisterWriteSetsItsRegister : Prop :=
  ∀ (dt port v : Nat) (s a : State), s.Inv → s.advance dt = a → regPort port = true → v < 4294967296 →
    (∀ addr : Nat, addr < 0x1000 → a.pwr.ready = false → exec (.registerWrite dt port addr v) s = .next a) ∧
    (a.portRuns port = true → a.pwr.ready = true →
    exec (.registerWrite dt port 0x014 v) s = .next (a.setPr port { a.pr port with irqEn := v % 32 ||| 1 }) ∧
    exec (.registerWrite dt port 0x018 v) s = .next (a.setPr port { a.pr port with cqIrqEn := v }) ∧
    (∀ r : Nat, r = 0x000 ∨ r = 0x004 ∨ (0x044 ≤ r ∧ r < 0x058 ∧ r % 4 = 0) →
      exec (.registerWrite dt port r v) s = .next (a.portErr port 6 0)) ∧
    (∀ q : Nat, q < 32 → exec (.registerWrite dt port (0x180 + 4 * q) v) s = .next (a.portErr port 6 q) ∧
      exec (.registerWrite dt port (0x200 + 4 * q) v) s = .next (a.portErr port 6 q)))

/-- SQ_TAIL_DOORBELL: a queue not bound to QSPI is cause 1; a tail off a multiple of 4 or past the window is cause 2; a tail that
completes exactly one packet moves SQ_TAIL and SQ_HEAD to it and puts the packet on its queue (R517, R519). -/
def Obligations.DoorbellTakesPackets : Prop :=
  ∀ (dt q v : Nat) (s a : State), s.Inv → s.advance dt = a → q < 32 → v < 65536 → a.qspiOn = true → a.pwr.ready = true →
    let head := (a.queue q).sqHead
    let n := (v + 65536 - head) % 65536
    ((a.queue q).port ≠ 1 → exec (.sqTailDoorbell dt q v) s = .next (a.portErr 1 1 q)) ∧
    ((a.queue q).port = 1 → v % 4 ≠ 0 ∨ 4096 < n → exec (.sqTailDoorbell dt q v) s = .next (a.portErr 1 2 q)) ∧
    ((a.queue q).port = 1 → v % 4 = 0 → n ≤ 4096 → head < 65536 →
      let bs := (List.range n).map fun i => mread a.mem (0x10000 + q * 0x1000 + (head + i) % 4096)
      fieldLe bs 4 2 = n → lenBad n = false →
      exec (.sqTailDoorbell dt q v) s =
        .next ((a.setQueue q { a.queue q with sqTail := v, sqHead := v }).enqueue (packetOf q bs)))

/-- CQ_HEAD_RELEASE: a value at the end of an unread record releases the records up to it; the present head changes nothing;
any other value is cause 3 and changes nothing else (R517, R520). -/
def Obligations.CqHeadReleasesRecords : Prop :=
  ∀ (dt port q v : Nat) (s a : State), s.Inv → s.advance dt = a → regPort port = true → q < 32 → v < 65536 → a.portRuns port = true →
    a.pwr.ready = true →
    (v = (a.queue q).cqHead → exec (.cqHeadRelease dt port q v) s = .next a) ∧
    (∀ old new : List Nat, (a.queue q).recEnds = old ++ v :: new → v ∉ old → v ≠ (a.queue q).cqHead →
      exec (.cqHeadRelease dt port q v) s = .next (a.setQueue q { a.queue q with
        cqHead := v, recEnds := new, lostEnds := (a.queue q).lostEnds.filter new.contains })) ∧
    (v ∉ (a.queue q).recEnds → v ≠ (a.queue q).cqHead → exec (.cqHeadRelease dt port q v) s = .next (a.portErr port 3 q))

/-- READ, FAST_READ and QUAD_READ drive n bytes from the address on, each the byte of its address as R509 counts; READ_STATUS and
READ_ID drive DEV_STAT and IDCODE, repeated; nothing else changes. An instruction byte that R508 does not list is cause 6 and changes
nothing else. -/
def Obligations.QspiReadsChangeNothing : Prop :=
  ∀ (dt addr n : Nat) (s a : State), s.Inv → s.advance dt = a → addr < 16777216 → a.qspiOn = true →
    let t : State := { a with qout := (List.range n).map fun k => a.qspiByte (burstAddr addr k) }
    exec (.read dt addr n) s = .next t ∧ exec (.fastRead dt addr n) s = .next t ∧ exec (.quadRead dt addr n) s = .next t ∧
    exec (.readStatus dt n) s = .next { a with qout := List.replicate n (BitVec.ofNat 8 a.devStat) } ∧
    exec (.readId dt n) s = .next { a with
      qout := (List.range n).map fun k => BitVec.ofNat 8 (idcodeOf a.part.variant / 256 ^ (k % 4)) } ∧
    (∀ code : Nat, code < 256 → code ∉ [0x03, 0x0B, 0xEB, 0x02, 0x32, 0x05, 0x9F] →
      exec (.qspiUnknownInstruction dt code) s = .next (a.portErr 1 6 0))

/-- WRITE and QUAD_WRITE inside one window of a queue bound to QSPI, or inside the bulk window, store the burst's bytes and change
nothing else; inside a window of another queue they store nothing and are cause 1. Of all memory, by a burst of any length and across
any windows, only the bytes at the addresses that R509 counts (`burstAddr`) may change, and memory keeps its canonical form (R509, R512,
R517). That each byte of a burst into a window of another queue counts as one error, and that a completion window stores what is written
to it, are the model's choices (log 164, DESIGN CHOICE; log 82, DEDUCED). -/
def Obligations.QspiWriteStoresItsBytes : Prop :=
  (∀ (dt addr : Nat) (data : List Byte) (s a : State), s.Inv → s.advance dt = a → data ≠ [] → addr < 16777216 → a.qspiOn = true →
     ((inWindow addr = true ∧ addr % 4096 + data.length ≤ 4096 ∧ (a.queue (windowQueue addr)).port = 1) ∨
       (0x100000 ≤ addr ∧ addr + data.length ≤ 0x200000) →
       exec (.write dt addr data) s = .next { a with mem := mwrites a.mem addr data } ∧
       exec (.quadWrite dt addr data) s = .next { a with mem := mwrites a.mem addr data }) ∧
     (inWindow addr = true → addr % 4096 + data.length ≤ 4096 → (a.queue (windowQueue addr)).port ≠ 1 →
       ∃ t : State, exec (.write dt addr data) s = .next t ∧ exec (.quadWrite dt addr data) s = .next t ∧
         t = { a with pr1 := { a.pr1 with stickyErr := true, errCause := 1, errQueue := windowQueue addr,
                                          errCnt := t.pr1.errCnt, errSat := t.pr1.errSat } } ∧
         t.pr1.errCnt = min 0xFFFF (a.pr1.errCnt + data.length))) ∧
  (∀ (dt addr : Nat) (data : List Byte) (s a : State), s.Inv → s.advance dt = a → addr < 16777216 →
     ∃ t : State, exec (.write dt addr data) s = .next t ∧ exec (.quadWrite dt addr data) s = .next t ∧
       (∀ x : Nat, (∀ k, k < data.length → burstAddr addr k ≠ x) → mread t.mem x = mread a.mem x) ∧
       (memWf a.mem = true → memWf t.mem = true) ∧
       t.tw0 = a.tw0 ∧ t.flight = a.flight)

/-- TW0 at its own address 0x3C + ADDR: the first two data bytes of a write set the pointer, and each byte after them in a completion
window stores there and moves the pointer on within its 64 bytes; a read drives the bytes of the completion windows from the pointer
on, the pointer moving on within its window; a repeated START takes no packet. TW0 does not answer another address, nor while it is off
(R522, R523, R525). -/
def Obligations.Tw0PointerReadsAndWrites : Prop :=
  ∀ (dt n : Nat) (x h l : Byte) (bs : List Byte) (stop : Bool) (s a : State), s.Inv → s.advance dt = a →
    let ptr := h.toNat * 256 + l.toNat
    let p : State := { a with tw0 := { a.tw0 with ptr := ptr } }
    let q : State := { a with tw0 := { a.tw0 with out := [] } }
    (a.tw0On = false → exec (.tw0Write dt (x :: bs) stop) s = .next a ∧ exec (.tw0Read dt ⟨x, n, stop⟩) s = .next a) ∧
    (a.tw0On = true → x.toNat ≠ 2 * (0x3C + a.pwr.straps.addr) → exec (.tw0Write dt (x :: bs) false) s = .next a) ∧
    (a.tw0On = true → x.toNat ≠ 2 * (0x3C + a.pwr.straps.addr) + 1 → exec (.tw0Read dt ⟨x, n, false⟩) s = .next q) ∧
    (a.tw0On = true → x.toNat = 2 * (0x3C + a.pwr.straps.addr) → exec (.tw0Write dt [x, h, l] false) s = .next p ∧
      (∀ b : Byte, exec (.tw0Write dt (x :: h :: l :: b :: bs) false) s =
        .next (State.flush (bs.foldl (fun y z => y.twByte false z) (p.twByte true b))))) ∧
    (a.tw0On = true → x.toNat = 2 * (0x3C + a.pwr.straps.addr) + 1 →
      exec (.tw0Read dt ⟨x, n, false⟩) s = .next (State.flush (twReads n q)) ∧
      exec (.tw0Read dt ⟨x, n, true⟩) s = .next (State.flush (twStop (twReads n q)))) ∧
    (∀ (u : State) (f : Bool) (b : Byte), 0x2000 ≤ u.tw0.ptr → u.tw0.ptr < 0x3000 → u.twByte f b = { u with
      tw0 := { u.tw0 with ptr := u.tw0.ptr / 64 * 64 + (u.tw0.ptr + 1) % 64, cmem := mwrite u.tw0.cmem (u.tw0.ptr - 0x2000) b } }) ∧
    (∀ (u : State) (k : Nat), 0x2000 ≤ u.tw0.ptr → u.tw0.ptr < 0x3000 → twReads (k + 1) u = twReads k { u with
      tw0 := { u.tw0 with ptr := u.tw0.ptr / 0x400 * 0x400 + (u.tw0.ptr + 1) % 0x400,
                          out := u.tw0.out ++ [mread u.tw0.cmem (u.tw0.ptr - 0x2000)] } })

/-- A shadow of TW0 lapses when it is 2 ms old and not before (R527, R528).
Each row stands for a moment that the sender gives when it is due (log 3, DESIGN CHOICE). -/
def Obligations.Tw0ShadowsLapse : Prop :=
  ∀ (dt : Nat) (s a : State), s.Inv → s.advance dt = a →
    (∀ r : RdShadow, a.tw0.rd = some r → exec (.tw0ReadShadowExpire dt) s =
      .next (if r.at0 + 2000000 ≤ a.clk then { a with tw0 := { a.tw0 with rd := none } } else a)) ∧
    (∀ r : WrShadow, a.tw0.wr = some r → exec (.tw0WriteShadowExpire dt) s =
      .next (if r.at0 + 2000000 ≤ a.clk then { a with tw0 := { a.tw0 with wr := none } } else a))

/-- TW0 held with SDA low for 10 ms lets go: both shadows are discarded, the pointer and a partly written packet stay, the release is
cause 5, counts in TW0_STUCK and raises TW_STUCK, and nothing else changes (R529). -/
def Obligations.StuckTw0IsReleased : Prop :=
  ∀ (dt : Nat) (s a : State), s.Inv → s.advance dt = a → a.tw0On = true →
    exec (.tw0StuckRelease dt) s = .next
      ((({ a with tw0 := { a.tw0 with rd := none, wr := none },
                  pc := { a.pc with tw0Stuck := satInc 31 a.pc.tw0Stuck } } : State).portErr 3 5 0).raise 0xD03 [0#8, 0#8, 0#8, 0#8])

/-! ### TW1 -/

/-- TW1_ATTEMPT_START on a bus whose SDA is low: the pulses of the clear are counted, the clear counts in TW1_CLEAR, and the attempt
runs; SDA still low after the ninth pulse ends the transfer with BUSY, ERR_AUX 4 and the pulses given, and the next one follows.
With SDA high there is no clear (R533). After a STOP that an earlier transfer owed the bus, the transfer that waited for it begins, with
the settings then in force (R536, R548). -/
def Obligations.Tw1BusIsClearedFirst : Prop :=
  ∀ (dt pulses : Nat) (s a : State) (c : Tw1Cur), s.advance dt = a → 0 < pulses → pulses ≤ 9 →
    let b : State := { a with pc := { a.pc with tw1Clear := satInc 31 a.pc.tw1Clear } }
    (a.tw1.stopOwed = false → a.tw1.cur = some c → c.active = false →
      exec (.tw1AttemptStart dt pulses false none) s = .next (State.flush { b with
        tw1 := { a.tw1 with cur := some { c with pulses := c.pulses + pulses, attempts := c.attempts + 1, active := true } } }) ∧
      exec (.tw1AttemptStart dt 0 false none) s = .next (State.flush { a with
        tw1 := { a.tw1 with cur := some { c with attempts := c.attempts + 1, active := true } } }) ∧
      exec (.tw1AttemptStart dt pulses true none) s = .next (State.flush (tw1Next (({ b with
        tw1 := { a.tw1 with cur := some { c with pulses := c.pulses + 9 } } } : State).finishErr c.id
          { status := stBusy, aux := 4, detail := c.pulses + 9 } a.nowNs)))) ∧
    (∀ r : List Tw1Cur, a.tw1.stopOwed = true → a.tw1.cur = none → a.tw1.waiting = c :: r → c.active = false →
      exec (.tw1AttemptStart dt 0 false none) s = .next (State.flush { a with
        tw1 := { a.tw1 with stopOwed := false, waiting := r, cur := some { c with
          speed := a.pc.tw1Speed, tout := a.pc.tw1Tout, retry := if c.retry = 0xFF then a.pc.tw1Retry else c.retry,
          attempts := c.attempts + 1, active := true } } }))

/-- Arbitration lost counts in TW1_ARB, and the attempt waits to begin again; after RETRY further losses the transfer ends with BUSY,
ERR_AUX 5, and the attempts, the byte and the bit of the loss (R534, R536). -/
def Obligations.Tw1ArbitrationIsRetried : Prop :=
  ∀ (dt byte bt : Nat) (s a : State) (c : Tw1Cur), s.advance dt = a → a.tw1.cur = some c → c.active = false →
    a.tw1.stopOwed = false → byte < 65536 → bt < 8 →
    let b : State := { a with pc := { a.pc with tw1Arb := satInc 31 a.pc.tw1Arb },
                              tw1 := { a.tw1 with cur := some { c with attempts := c.attempts + 1 } } }
    exec (.tw1AttemptStart dt 0 false (some (byte, bt))) s = .next (State.flush (if c.attempts < c.retry then b
      else tw1Next (b.finishErr c.id
        { status := stBusy, aux := 5, detail := (c.attempts + 1) % 256 * 2 ^ 24 + byte * 256 + bt } a.nowNs)))

/-- The end of a TW1 transfer: with every byte acknowledged it completes with its lengths, attempts and pulses and the bytes read;
an address or a data byte not acknowledged, or SCL held low too long, ends it with TIMEOUT, ERR_AUX 1, 2 or 3. The transfer that waits
longest follows; after SCL held low too long none does before the STOP that is owed (R535, R536). -/
def Obligations.Tw1TransferEnds : Prop :=
  ∀ (dt acked moved : Nat) (data : List Byte) (s a : State) (c : Tw1Cur), s.advance dt = a → a.tw1.cur = some c → c.active = true →
    (c.wlen ≤ acked → exec (.tw1XferDone dt acked true data) s = .next (State.flush (tw1Next (a.finishOk c.id
      (le 2 c.wlen ++ le 2 c.rlen ++ le 1 (min 255 c.attempts) ++ le 1 (min 255 c.pulses) ++ le 2 0 ++ slice data 0 c.rlen) a.nowNs)))) ∧
    (acked < c.wlen → exec (.tw1XferDone dt acked true data) s = .next (State.flush (tw1Next (a.finishErr c.id
      { status := stTimeout, aux := 2, detail := acked } a.nowNs)))) ∧
    exec (.tw1XferDone dt acked false data) s = .next (State.flush (tw1Next (a.finishErr c.id
      { status := stTimeout, aux := 1 } a.nowNs))) ∧
    exec (.tw1StretchTimeout dt moved) s = .next (State.flush (({ a with
      tw1 := { a.tw1 with stopOwed := true, cur := none } } : State).finishErr c.id
        { status := stTimeout, aux := 3, detail := moved } a.nowNs))

/-! ### The test access port -/

/-- EXTEST, CLAMP, HIGHZ, EXTEST_PULSE and EXTEST_TRAIN begin a test hold: the instruction is loaded, TDO drives 0b00000001 and then
what a scan shifts out, the boundary register takes what a scan shifts in, and every unit is reset as by a full reset with PWR_EN high;
in a hold already begun only the TAP changes. SAMPLE_PRELOAD, IDCODE, BYPASS with any of its codes, and Test-Logic-Reset change, outside
a test hold, the TAP and nothing else; in a test hold they end it, and the part makes a full boot with cause 1 that latches the straps.
HIGHZ leaves every ball of the chain but PWR_EN at high impedance, which keeps its functional level in every instruction. Where the TAP
does not run nothing changes. TMODE_CHANGE sets the pin and changes nothing else (R563, R587 to R592).
What a register captures where no rule says it, and that the bypass bit is 0, are the model's (log 119, PRESUMED); that the straps
are latched at the hold's end is read from R563 (log 67, DEDUCED). -/
def Obligations.TapInstructionsHoldAndLeaveThePart : Prop :=
  (∀ (dt ir : Nat) (i : Instr) (sc : Scan) (s a : State), s.advance dt = a → a.tapRuns = true → sc.straps.wf = true →
     sc.rest ≠ .testLogicReset →
     (i = .extest dt sc ∧ ir = 0) ∨ (i = .clamp dt ∧ ir = 3 ∧ sc = {}) ∨ (i = .highz dt ∧ ir = 4 ∧ sc = {}) ∨
       (i = .extestPulse dt sc ∧ ir = 5) ∨ (i = .extestTrain dt sc ∧ ir = 6) →
     let r := a.tapCapture ir ++ sc.cells
     let n := sc.cells.length
     let j : Jtag := { tap := sc.rest, ir := ir, dr := r.drop n, cells := if sc.cells = [] then a.jtag.cells else r.drop n,
                       tdo := [true, false, false, false, false, false, false, false] ++ r.take n,
                       train := decide (sc.edges % 2 = 1), hold := true }
     (a.jtag.hold = true → s.Inv → exec i s = .next { a with jtag := j }) ∧
     (a.jtag.hold = false → ∃ t : State, exec i s = .next t ∧ t.jtag = j ∧ t.pwr.boot = .off ∧ t.pwr.ready = false ∧
       t.pwr.cause = 1 ∧ t.pwr.fullBoot = true ∧ t.pwr.trims = false ∧ t.pwr.pwrEn = true ∧ t.flight = [] ∧ t.mem = [] ∧ t.fk = [] ∧
       t.routes = [] ∧ t.mix = [] ∧ t.pins = a.pins ∧ t.part = a.part ∧ t.pending = a.pending ∧
       ∀ q, q < 32 → (t.queue q) = queueReset q)) ∧
  (∀ (dt ir : Nat) (i : Instr) (sc : Scan) (s a : State), s.advance dt = a → s.Inv → sc.straps.wf = true →
     (i = .samplePreload dt sc ∧ ir = 1 ∧ sc.rest ≠ .testLogicReset) ∨
       (i = .idcode ⟨dt, 0, sc.straps⟩ ∧ ir = 2 ∧ sc = { straps := sc.straps }) ∨
       (i = .bypass ⟨dt, ir, sc.straps⟩ ∧ 7 ≤ ir ∧ ir < 256 ∧ sc = { straps := sc.straps }) ∨
       (i = .tapReset ⟨dt, 0, sc.straps⟩ ∧ ir = 2 ∧ sc = { rest := .testLogicReset, straps := sc.straps }) →
     let r := a.tapCapture ir ++ sc.cells
     let n := sc.cells.length
     let j : Jtag := { a.jtag with
       tap := sc.rest, ir := ir, dr := r.drop n, cells := if sc.cells = [] then a.jtag.cells else r.drop n,
       tdo := if sc.rest = .testLogicReset then [] else [true, false, false, false, false, false, false, false] ++ r.take n,
       train := decide (sc.edges % 2 = 1) }
     (a.tapRuns = false → exec i s = .next a) ∧
     (a.tapRuns = true → a.jtag.hold = false → exec i s = .next { a with jtag := j }) ∧
     (a.tapRuns = true → a.jtag.hold = true → a.pins.rstN = true → a.pwr.crystalStopped = false → exec i s = .next (tryBoot { a with
       jtag := { j with hold := false }, pwr := { a.pwr with cause := 1, fullBoot := true, straps := sc.straps } }))) ∧
  (∀ (b : Ball) (a : State), (b ≠ .pwrEn → a.jtag.hold = true → a.jtag.ir = 4 → a.drive b = .highZ) ∧
     a.drive .pwrEn = (if a.pwr.pwrEn then .high else .low)) ∧
  (∀ (dt : Nat) (lvl : Bool) (s a : State), s.advance dt = a → s.Inv →
     exec (.tmodeChange dt lvl) s = .next { a with pins := { a.pins with tmode := lvl } })

/-! ### Reset, wake and boot -/

/-- What a cause of reset does: RST_N low, power-on reset, a crystal that stops, PG_IN lost and a VCORE brown-out each leave every
unit at reset with no boot running, the causes as the table numbers them, and PWR_EN as its row says. A part that a cause has reset
holds nothing: no command, no record, memory and every table empty, every queue bound as after reset; only the part, its pins, the
queue of waiting commands and what VAON holds stay. RST_N ends a thermal trip; a brown-out in a part that another cause holds is
held with it; without VAON the part is Off (R389, R553, R554, R562, R563). -/
def Obligations.ResetCausesResetThePart : Prop :=
  (∀ (dt mv : Nat) (s a : State), s.advance dt = a →
     exec (.rstNAssert dt) s = .next (({ a with
       pins := { a.pins with rstN := false }, pwr := { a.pwr with tripped := false } } : State).resetPart 1 true (!a.pwr.vaonLow)) ∧
     (∃ t : State, exec (.powerOnReset dt) s = .next t ∧ t.pwr.pstate = .off ∧ t.pwr.cause = 0 ∧ t.pwr.pwrEn = false ∧
       t.pwr.vaonLow = true ∧ t.pwr.fullBoot = true ∧ t.pwr.straps = {} ∧ t.jtag = {} ∧ t.pwr.boot = .off ∧ t.flight = [] ∧ t.mem = [] ∧
       t.queues = [] ∧ t.pins = a.pins) ∧
     (a.pwr.pwrEn = true → a.pins.pgIn = true →
       exec (.crystalStop dt) s =
         .next (({ a with pwr := { a.pwr with crystalStopped := true } } : State).resetPart 2 true true)) ∧
     (a.pins.pgIn = true → a.pwr.pwrEn = true → a.fullHeld = false → ∃ t : State, exec (.pgInLost dt) s = .next t ∧
       t.pins = { a.pins with pgIn := false } ∧ t.pwr.pwrEn = false ∧ t.pwr.raiseDue = true ∧ t.pwr.pwrEnAt = a.clk ∧
       t.pwr.cause = 3 ∧ t.pwr.straps = a.pwr.straps ∧ t.pc.tw0Fl = a.pc.tw0Fl ∧ t.pwr.boot = .off ∧ t.flight = [] ∧ t.mem = [] ∧
       t.queues = []) ∧
     (mv < 680 → a.pwr.pwrEn = true → a.pins.pgIn = true → a.alive = false → s.Inv → exec (.vcoreBrownOut dt mv) s =
       .next { a with env := { a.env with vcoreMv := mv }, pwr := { a.pwr with brownOut := true } }) ∧
     (mv < 680 → a.pwr.pwrEn = true → a.pins.pgIn = true → a.alive = true → ∃ t : State,
       exec (.vcoreBrownOut dt mv) s = .next t ∧ t.pwr.cause = 4 ∧ t.pwr.brownOut = true ∧ t.pwr.pwrEn = true ∧ t.env.vcoreMv = mv ∧
         t.pwr.boot = .off ∧ t.flight = [] ∧ t.mem = [] ∧ t.queues = [] ∧ t.pwr.straps = a.pwr.straps)) ∧
  (∀ (cause : Nat) (full en : Bool) (s t : State), s.resetPart cause full en = t →
     t.flight = [] ∧ t.queues = [] ∧ t.mem = [] ∧ t.tw0 = {} ∧ t.fk = [] ∧ t.routes = [] ∧ t.meters = [] ∧ t.mix = [] ∧ t.buses = [] ∧
     t.regions = [] ∧ t.lines = [] ∧ t.outs = [] ∧ t.grps = [] ∧ t.jacks = [] ∧ t.ains = [] ∧ t.tx = [] ∧ t.rx = [] ∧ t.plls = [] ∧
     t.tm = {} ∧ t.tt0 = {} ∧ t.tt1 = {} ∧ t.eng = {} ∧ t.ls = {} ∧ t.ga = {} ∧ t.gb = {} ∧ t.pr1 = {} ∧ t.pr3 = {} ∧
     t.pwr.ready = false ∧ t.pwr.boot = .off ∧ t.pwr.cause = cause ∧ t.pwr.fullBoot = full ∧ t.pwr.pwrEn = en ∧
     (t.pwr.pstate = .off ↔ s.pwr.vaonLow = true) ∧
     (full = true → t.pwr.straps = {} ∧ t.pwr.trims = false ∧ t.pc = {}) ∧
     (full = false → t.pwr.straps = s.pwr.straps ∧ t.pwr.trims = s.pwr.trims ∧ t.pc = { tw0Fl := s.pc.tw0Fl }) ∧
     t.part = s.part ∧ t.pins = s.pins ∧ t.env = s.env ∧ t.pending = s.pending ∧ t.jtag = s.jtag)

/-- A cause of reset that ends lets the boot start where no other holds: RST_N rises, VAON is valid, the crystal runs again (each
latches the straps), VCORE has recovered, PG_IN rises, PWR_EN is raised again 100 ms after it fell. PG_IN that has not
risen 50 ms after PWR_EN makes PWR_EN fall, to be raised again until the third failed try. The boot starts when PG_IN and
PWR_EN are high, no cause of reset holds, and no boot runs; the TAP then selects IDCODE (R562 to R564, R566, R587).
Each row stands for a moment that the sender gives when it is due (log 3, DESIGN CHOICE). -/
def Obligations.ResetCausesEnd : Prop :=
  ∀ (dt mv : Nat) (st : Straps) (s a : State), s.advance dt = a → s.Inv → st.wf = true →
    (a.pins.rstN = false → a.pwr.vaonLow = false → exec (.rstNRelease dt st) s =
      .next (tryBoot { a with pins := { a.pins with rstN := true }, pwr := { a.pwr with straps := st } })) ∧
    (a.pwr.vaonLow = true → a.pins.rstN = true → exec (.vaonValid dt st) s =
      .next (tryBoot { a with pwr := { a.pwr with vaonLow := false, pstate := .idle, pwrEn := true, pwrEnAt := a.clk, straps := st } })) ∧
    (a.pwr.crystalStopped = true → exec (.crystalRestart dt st) s =
      .next (tryBoot { a with pwr := { a.pwr with crystalStopped := false, straps := st } })) ∧
    (a.pwr.brownOut = true → 720 ≤ mv → exec (.vcoreRecovery dt mv) s =
      .next (tryBoot { a with env := { a.env with vcoreMv := mv }, pwr := { a.pwr with brownOut := false } })) ∧
    exec (.pgInRise dt) s = .next (tryBoot { a with
      pins := { a.pins with pgIn := true }, pwr := { a.pwr with pgTries := if a.pwr.pwrEn then 0 else a.pwr.pgTries } }) ∧
    (a.pwr.raiseDue = true → a.pwr.pwrEnAt + 100000000 ≤ a.clk → exec (.pwrEnRaise dt) s =
      .next (tryBoot { a with pwr := { a.pwr with raiseDue := false, pwrEn := true, pwrEnAt := a.clk } })) ∧
    (a.pwr.pwrEn = true → a.pins.pgIn = false → a.fullHeld = false → exec (.pwrEnRetry dt) s =
      .next (if a.pwr.pwrEnAt + 50000000 ≤ a.clk then
        { a with pwr := { a.pwr with pgTries := a.pwr.pgTries + 1, raiseDue := decide (a.pwr.pgTries + 1 < 3), pwrEn := false,
                                     pwrEnAt := a.clk } } else a)) ∧
    tryBoot s = (if s.pins.pgIn = true ∧ s.pwr.pwrEn = true ∧ s.held = false ∧ s.pwr.boot = .off then
      { s with jtag := { s.jtag with tap := .testLogicReset, ir := 2, dr := s.tapCapture 2, tdo := [], train := false },
               pwr := { s.pwr with boot := .released, bootT0 := s.clk, stepAt := s.clk, pgTries := 0, pstate := .idle } }
      else s)

/-- A wake cause that comes while the part sleeps, in Hibernate or after three failed tries of PWR_EN, once PWR_EN has been low for
10 ms, makes a short boot with the cause's number, PWR_EN high and the straps kept; before that, and from step 2 of an entry to
Hibernate on, it is held, the first one only, until HELD_WAKE acts on it. A TW0 match wakes only where WAKE_EN is set
(R531, R554, R559, R560, R563).
That the first of several causes is the one held, and that a part asleep after three failed tries wakes as one in Hibernate does, are
the model's readings (logs 70 and 68, DEDUCED). -/
def Obligations.WakesBootThePart : Prop :=
  ∀ (dt : Nat) (s a : State), s.advance dt = a →
    (a.pwr.pstate = .hibernate ∨ (3 ≤ a.pwr.pgTries ∧ a.pwr.pwrEn = false ∧ a.held = false) →
      (a.pwr.pwrEnAt + 10000000 ≤ a.clk →
        exec (.wakeN dt) s = .next (State.flush (tryBoot (a.resetPart 6 false true))) ∧
        (∀ c, a.pwr.heldWake = some c → exec (.heldWake dt) s = .next (State.flush { tryBoot (a.resetPart c false true) with
            tw0 := { (tryBoot (a.resetPart c false true)).tw0 with nackUntilRun := a.tw0.nackUntilRun } })) ∧
        (bit a.pc.tw0Fl 0 = true → exec (.tw0WakeMatch dt) s = .next (State.flush { tryBoot (a.resetPart 7 false true) with
          tw0 := { (tryBoot (a.resetPart 7 false true)).tw0 with stretch := !bit a.pc.tw0Fl 1, nackUntilRun := bit a.pc.tw0Fl 1 } }))) ∧
      (a.clk < a.pwr.pwrEnAt + 10000000 → s.Inv →
        exec (.wakeN dt) s = .next { a with pwr := { a.pwr with heldWake := some (a.pwr.heldWake.getD 6) } } ∧
        exec (.heldWake dt) s = .next a ∧
        (bit a.pc.tw0Fl 0 = true → exec (.tw0WakeMatch dt) s =
          .next { a with pwr := { a.pwr with heldWake := some (a.pwr.heldWake.getD 7) }, tw0 := { a.tw0 with nackUntilRun := true } }))) ∧
    (a.pwr.pstate ≠ .hibernate → a.pwr.pgTries < 3 → s.Inv →
      exec (.heldWake dt) s = .next a ∧
      (2 ≤ a.hibStep →
        exec (.wakeN dt) s = .next { a with pwr := { a.pwr with heldWake := some (a.pwr.heldWake.getD 6) } } ∧
        (bit a.pc.tw0Fl 0 = true → exec (.tw0WakeMatch dt) s =
          .next { a with pwr := { a.pwr with heldWake := some (a.pwr.heldWake.getD 7) }, tw0 := { a.tw0 with nackUntilRun := true } })) ∧
      (a.hibStep < 2 → exec (.wakeN dt) s = .next a ∧ exec (.tw0WakeMatch dt) s = .next a)) ∧
    (bit a.pc.tw0Fl 0 = false → s.Inv → exec (.tw0WakeMatch dt) s = .next a)

/-- BOOT_STEP makes the next step of the boot and no other: QSPI answers 1 ms after release, then TW0, then the trims are loaded, the RAMs
are cleared but for the boot window and MPLL0 starts its lock, then step 5 loads what the straps name, with the bus clear of R533
counted, then, 1 ms later, the part is READY (R533, R566, R567).
That the boot window keeps what the host wrote is the model's reading (log 64, DEDUCED).
Each row stands for a moment that the sender gives when it is due (log 3, DESIGN CHOICE). -/
def Obligations.BootStepsInOrder : Prop :=
  ∀ (dt : Nat) (image : Option (List Byte)) (bus : BusClear) (s a : State), s.advance dt = a →
    (a.pwr.boot = .released → a.pwr.bootT0 + 1000000 ≤ a.clk → exec (.bootStep dt image bus) s =
      .next (State.flush { a with pwr := { a.pwr with boot := .qspi, stepAt := a.clk } })) ∧
    (a.pwr.boot = .qspi → exec (.bootStep dt image bus) s = .next (State.flush { a with
      pwr := { a.pwr with boot := .tw0, stepAt := a.clk }, tw0 := { a.tw0 with stretch := false, nackUntilRun := false } })) ∧
    (a.pwr.boot = .tw0 → exec (.bootStep dt image bus) s = .next (State.flush (relockStart 0 0 { a with
      mem := a.mem.filter fun c => decide (0x1E0000 ≤ c.1), tw0 := { a.tw0 with cmem := [] },
      pwr := { a.pwr with boot := .image, stepAt := a.clk, loaded := decide (a.pwr.straps.bootsel = 0), trims := true } }))) ∧
    (a.pwr.boot = .image → a.pwr.loaded = false → 2 ≤ a.pwr.straps.bootsel → exec (.bootStep dt none bus) s =
      .next (State.flush { a with
        pwr := { a.pwr with boot := .image, loaded := true, stepAt := a.clk, result := if bus = .stuck then 6 else 2, cfgRest := [] },
        pc := if bus = .idle then a.pc else { a.pc with tw1Clear := satInc 31 a.pc.tw1Clear } })) ∧
    (a.pwr.boot = .image → a.pwr.loaded = true → a.pwr.stepAt + 1000000 ≤ a.clk → ∃ b : State,
      exec (.bootStep dt image bus) s = .next (State.flush (jacksPowerUp (b.raise 0x040
        (le 1 a.pwr.cause ++ le 1 a.pwr.straps.bootsel ++ le 1 a.pwr.result ++ le 1 0 ++ le 2 a.pwr.cfgRun ++
         le 2 (if a.pwr.result = 5 then a.pwr.cfgStatus else 0) ++ le 4 a.pwr.patchVer)))) ∧
      b = { a with pwr := { a.pwr with ready := true, boot := .done, bootErr := decide (1 < a.pwr.result) },
                   pr1 := { a.pr1 with stickyBoot := true }, pr3 := { a.pr3 with stickyBoot := true } })

/-- Step 5 of the boot: an image that the host has put into the boot window is applied, or given up after 1 s; the configuration
section's next packet starts as on Q2 of QSPI, one at a time; the section stops after 1 s with result 5 (R567, R570, R572). -/
def Obligations.BootImageAndConfiguration : Prop :=
  ∀ (dt : Nat) (s a : State), s.advance dt = a →
    (a.pwr.boot = .image → a.pwr.loaded = false → a.pwr.straps.bootsel = 1 →
      (fieldLe (mreads a.mem 0x1E0000 4) 0 4 = 0x49424C48 → exec (.bootWindowPoll dt) s = .next (State.flush (imageApply
        (mreads a.mem 0x1E0000 (min 0x20000 (max 32 (fieldLe (mreads a.mem 0x1E0008 4) 0 4)))) a))) ∧
      (fieldLe (mreads a.mem 0x1E0000 4) 0 4 ≠ 0x49424C48 → exec (.bootWindowPoll dt) s =
        .next (State.flush (if a.pwr.stepAt + 1000000000 ≤ a.clk then { a with pwr := { a.pwr with
          boot := .image, loaded := true, stepAt := a.clk, result := 7, cfgRest := [] } } else a)))) ∧
    (a.pwr.boot = .config → a.pwr.cfgJob = none → exec (.configTimeout dt) s =
      .next (State.flush (if a.pwr.cfgAt + 1000000000 ≤ a.clk then { a with pwr := { a.pwr with
          boot := .image, loaded := true, stepAt := a.clk, result := 5, cfgRest := [] } } else a))) ∧
    (∀ (p : Packet) (rest : List Packet), a.pwr.boot = .config → a.pwr.cfgJob = none → a.pwr.cfgStatus = stOk →
      a.pwr.cfgRest = p :: rest → a.pins.tmode = false → configErr p = none → exec (.configPacketRun dt) s =
      .next (State.flush (startPacket p 1 { a with pwr := { a.pwr with
        cfgRest := rest, cfgRun := a.pwr.cfgRun + 1, cfgJob := some (a.seq + 1) } })))

/-! ### Power states -/

/-- RUN_ENTRY_STEP: the first step of an entry to Run reaches Run and starts the enabled groups; in Run the enabled front-ends that
have no power get it, and once every one has it, those whose settle period has passed deliver (R558).
Each row stands for a moment that the sender gives when it is due (log 3, DESIGN CHOICE). -/
def Obligations.RunIsEnteredInSteps : Prop :=
  ∀ (dt : Nat) (s a : State), s.advance dt = a →
    (∀ t : PTrans, a.pwr.trans = some t → t.target = .run → t.step = 1 → a.framing = true → a.tm.frameRun = true →
      exec (.runEntryStep dt) s = .next (State.flush (outsRunStart (powerDone t a)))) ∧
    (a.pwr.trans = none → a.inRun = true →
      let cold := (List.range a.nAin).filter fun c => (a.ain c).en && !(a.ain c).powered
      exec (.runEntryStep dt) s =
        .next (State.flush (if cold = [] then forUpto a.nAin settleEndStep a else forEach cold frontEndPoweredStep a)))

/-- HIBERNATE_ENTRY_STEP: step 1 ends when every output group is off, or after 402 ms, and then every other command ends with
ABORTED and the request's own record is written; step 2 lasts 0.5 ms; 1 ms after step 2 began only what VAON holds is left, PWR_EN
is low and the part is in Hibernate. HIBERNATE_DEFERRAL_EXPIRE: a request that an open candidate defers takes effect 2 s after it
came, and not before; the candidate is then dropped (R90, R454, R559).
Each row stands for a moment that the sender gives when it is due (log 3, DESIGN CHOICE). -/
def Obligations.HibernateIsEnteredInSteps : Prop :=
  (∀ (dt : Nat) (s a : State) (t : PTrans), s.advance dt = a → a.pwr.deferral = some t →
    (a.clk < t.at0 + 2000000000 → exec (.hibernateDeferralExpire dt) s = .next a.flush) ∧
    (t.at0 + 2000000000 ≤ a.clk → a.inRun = false → exec (.hibernateDeferralExpire dt) s = .next (State.flush { a with
      ls := if a.ls.cand then { a.ls with cand := false, candLow := none, drop := satInc 31 a.ls.drop } else a.ls,
      pwr := { a.pwr with deferral := none, trans := some { t with
        step := 1, at0 := a.clk, deferMs := min 2000 ((a.clk - t.at0) / 1000000) } } }))) ∧
  ∀ (dt id : Nat) (s a : State) (t : PTrans), s.advance dt = a → a.pwr.trans = some t → t.target = .hibernate →
    (t.step = 1 → a.outsOff = true ∨ t.at0 + 402000000 ≤ a.clk → t.job = some id → exec (.hibernateEntryStep dt) s = .next (State.flush
      (({ abortAll (some id) a with pwr := { (abortAll (some id) a).pwr with trans := some { t with step := 2, at0 := a.clk } } } : State).finishOk
        id (le 1 t.old.code ++ le 1 1 ++ le 2 t.deferMs) (abortAll (some id) a).nowNs))) ∧
    (t.step = 1 → a.outsOff = false → a.clk < t.at0 + 402000000 → exec (.hibernateEntryStep dt) s = .next a.flush) ∧
    (t.step = 2 → exec (.hibernateEntryStep dt) s = .next (State.flush (if t.at0 + 500000 ≤ a.clk then
      { a with pwr := { a.pwr with trans := some { t with step := 3 } } } else a))) ∧
    (t.step = 3 → t.at0 + 1000000 ≤ a.clk → ∃ u : State, exec (.hibernateEntryStep dt) s = .next u ∧ u.pwr.pstate = .hibernate ∧
      u.pwr.pwrEn = false ∧ u.pwr.straps = a.pwr.straps ∧ u.pc.tw0Fl = a.pc.tw0Fl ∧ u.pwr.heldWake = a.pwr.heldWake ∧
      u.pwr.trans = none ∧ u.flight = [] ∧ u.queues = [] ∧ u.mem = [] ∧ u.fk = [] ∧ u.routes = [] ∧ u.mix = [] ∧ u.outs = [] ∧
      u.pins = a.pins ∧ u.pending = a.pending)

/-! ### Heat, VCORE, Privet -/

/-- THERMAL follows the hotter die: at 135 °C the part is reset with PWR_EN low (cause 5); at 125 °C level 2 shuts every headphone and
speaker group, and below that becomes level 1 again; at 100 °C level 0 becomes level 1; below 95 °C any level becomes level 0; a
level that stays changes only the sensed temperatures and the calibration pairs whose die has moved by more than 5 °C.
THERMAL_RESTART: 10 s after a trip PWR_EN rises again. VCORE_LOW: LOWV follows whether VCORE is below 0.76 V, and only its changes
raise VCORE_LOW (R22, R108, R553, R573, R574).
That a die which falls from level 2 below 125 °C takes level 1 without an event is the model's reading (log 62, DEDUCED).
Each row stands for a moment that the sender gives when it is due (log 3, DESIGN CHOICE). -/
def Obligations.HeatAndVcoreAreFollowed : Prop :=
  ∀ (dt : Nat) (tjC tjE : Int) (s a b : State), s.advance dt = a →
    a.alive = true → b = pairsHot { a with env := { a.env with tjC := tjC, tjE := tjE } } →
    (17280 ≤ max tjC tjE → exec (.thermal dt tjC tjE) s =
      .next (({ b with pwr := { b.pwr with tripped := true } } : State).resetPart 5 false false)) ∧
    (16000 ≤ max tjC tjE → max tjC tjE < 17280 → b.pwr.thermLevel ≠ 2 → exec (.thermal dt tjC tjE) s =
      .next (State.flush ((thermalTripOutputs { b with pwr := { b.pwr with thermLevel := 2 } }).thermalEvent 2))) ∧
    (12800 ≤ max tjC tjE → max tjC tjE < 16000 → b.pwr.thermLevel = 0 → exec (.thermal dt tjC tjE) s =
      .next (State.flush (({ b with pwr := { b.pwr with thermLevel := 1 } } : State).thermalEvent 1))) ∧
    (max tjC tjE < 12160 → b.pwr.thermLevel ≠ 0 → exec (.thermal dt tjC tjE) s =
      .next (State.flush (({ b with pwr := { b.pwr with thermLevel := 0 } } : State).thermalEvent 0))) ∧
    (12160 ≤ max tjC tjE → max tjC tjE < 16000 → b.pwr.thermLevel = 2 → exec (.thermal dt tjC tjE) s =
      .next (State.flush { b with pwr := { b.pwr with thermLevel := 1 } })) ∧
    ((max tjC tjE < 12800 ∧ b.pwr.thermLevel = 0) ∨ (12160 ≤ max tjC tjE ∧ max tjC tjE < 16000 ∧ b.pwr.thermLevel = 1) ∨
      (16000 ≤ max tjC tjE ∧ max tjC tjE < 17280 ∧ b.pwr.thermLevel = 2) →
      exec (.thermal dt tjC tjE) s = .next b.flush) ∧
    (∀ (mv : Nat) (e : State), e = { a with env := { a.env with vcoreMv := mv } } →
      (decide (mv < 760) = a.eng.lowv → exec (.vcoreLow dt mv) s = .next e.flush) ∧
      (decide (mv < 760) ≠ a.eng.lowv → exec (.vcoreLow dt mv) s = .next (State.flush
        (({ e with eng := { e.eng with lowv := decide (mv < 760) } } : State).raiseLim 0x031 0 100000000
          (le 1 (b2n (decide (mv < 760))) ++ le 1 0 ++ le 2 (min 0xFFFF mv) ++ le 4 a.frame32))))) ∧
    (a.pwr.tripped = true → a.pwr.pwrEnAt + 10000000000 ≤ a.clk → exec (.thermalRestart dt) s = .next (State.flush (tryBoot { a with
      pwr := { a.pwr with tripped := false, pwrEn := true, pwrEnAt := a.clk } })))

/-- PRIV_N_ASSERT in a state that listens cuts the microphones at once: the pin is low, every byte of the history reads 0, onsets and
the candidate end, waiting reads end with PRIV, the biases fall, and PRIVET is raised; asserted already, nothing changes.
PRIV_N_RELEASE starts the settle period of both channels and, where the strap has the cut take the AIN channels too, synchronises
those that have power; it changes nothing while the pin is high. PRIV_LED is lit exactly while PRIV_N is low and VAON valid
(R459 to R463). -/
def Obligations.PrivetCutsAndReleases : Prop :=
  ∀ (dt : Nat) (s a : State), s.advance dt = a → a.listenRuns = true →
    (a.priv = false → exec (.privNAssert dt) s = .next (State.flush (deferCheck ((jacksCut (waitsCut stPriv (candDrop (vadEnd 1 (vadEnd 0
      { a with pins := { a.pins with privN := false }, fk := mclear a.fk (3013 * 4096) (3072 * 4096),
               ls := { a.ls with vad0 := { a.ls.vad0 with sum := 0 }, vad1 := { a.ls.vad1 with sum := 0 } } }))))).privEvent true)))) ∧
    (a.priv = true → a.pwr.deferral = none → exec (.privNAssert dt) s = .next a.flush) ∧
    (a.priv = true →
      let b : State := { a with pins := { a.pins with privN := true },
                                ls := { a.ls with settle0 := 28, settle1 := 28, zeroTo := a.ls.idx + 28 } }
      exec (.privNRelease dt) s = .next (State.flush ((jacksUncut (if a.pwr.straps.privScope then
        forEach (b.ains.map (·.1)) (fun c x => if (x.ain c).powered then x.setAin c ((x.ain c).sync x.nextFrame) else x) b
        else b)).privEvent false))) ∧
    (a.priv = false → exec (.privNRelease dt) s = .next a.flush) ∧
    (a.privLed = true ↔ a.pins.privN = false ∧ a.pwr.vaonLow = false)

/-! ### Outputs and jacks -/

/-- Protection: a bridge that is not off and sees over-current or DC is off at once and latched, cause 1 or 5; a headphone pair at its
current limit is muted, cause 6; a bridge whose PVDD leaves its range is off with recovery, cause 3 or 4. What is off already is left
alone. A protective action latches its group unless it recovers by itself (causes 3 and 4), shuts it at once unless it is the headphone
mute (cause 6) or heat, and raises OUT_FAULT; no other group's record and no setting of an output changes (R275). That a latched
cause 2 stays the group's cause whatever comes after it is the model's choice (log 153, DESIGN CHOICE); that a muted pair keeps its
place in its sequence, and that PVDD acts on bridges that are not off, are its readings (log 106, DEDUCED). -/
def Obligations.ProtectionShutsTheGroup : Prop :=
  (∀ (dt k mv : Nat) (s a : State), s.advance dt = a → k < 2 →
     ((a.grp (18 + k)).st ≠ 0 → exec (.spkOvercurrent dt k) s = .next (State.flush (protect (18 + k) 1 a)) ∧
       exec (.spkDcFault dt k) s = .next (State.flush (protect (18 + k) 5 a))) ∧
     ((a.grp (18 + k)).st = 0 → exec (.spkOvercurrent dt k) s = .next a.flush ∧ exec (.spkDcFault dt k) s = .next a.flush) ∧
     (a.grpOk (16 + k) = true → (a.grp (16 + k)).st ≠ 0 → (a.grp (16 + k)).fault ≠ some 6 →
       exec (.hpCurrentLimit dt k) s = .next (State.flush (protect (16 + k) 6 a))) ∧
     (7000 ≤ mv → exec (.pvddUnder dt mv) s = .next (State.flush { a with env := { a.env with pvddMv := mv } })) ∧
     (mv ≤ 17000 → exec (.pvddOver dt mv) s = .next (State.flush { a with env := { a.env with pvddMv := mv } })) ∧
     (mv < 7000 → (a.grp 18).st ≠ 0 → (a.grp 19).st = 0 → exec (.pvddUnder dt mv) s =
       .next (State.flush (protect 18 3 { a with env := { a.env with pvddMv := mv } }))) ∧
     (17000 < mv → (a.grp 18).st ≠ 0 → (a.grp 19).st = 0 → exec (.pvddOver dt mv) s =
       .next (State.flush (protect 18 4 { a with env := { a.env with pvddMv := mv } }))) ∧
     ((a.grp 18).fault = some 3 → (a.grp 18).latched = false → (a.grp 18).en = false → 7500 ≤ mv →
       (a.grp 19).fault = none → (a.grp 19).wait = false → exec (.pvddRecovery dt mv) s = .next (State.flush
         ((({ a with env := { a.env with pvddMv := mv } } : State).setGrp 18 { a.grp 18 with fault := none, wait := false }).outFault 18 3 2)))) ∧
  (∀ (g cause h i : Nat) (s : State), h ≠ g →
     (protect g cause s).grp h = s.grp h ∧
     ((protect g cause s).grp g).fault = some (if (s.grp g).fault = some 2 then 2 else cause) ∧
     ((protect g cause s).grp g).latched = ((cause ≠ 3 ∧ cause ≠ 4) || (s.grp g).latched) ∧
     (cause ≠ 2 → cause ≠ 6 → ((protect g cause s).grp g).st = 0) ∧
     (cause = 6 → ((protect g cause s).grp g).st = (s.grp g).st) ∧
     ((protect g cause s).out i).otrim = (s.out i).otrim ∧ ((protect g cause s).out i).smute = (s.out i).smute ∧
     (∃ u : State, protect g cause s = u.outFault g cause (if cause = 3 ∨ cause = 4 then 1 else 0)) ∧
     (protect g cause s).routes = s.routes ∧ (protect g cause s).flight = s.flight)

/-- OUT_SEQ_STEP makes the next step of a group's sequence when its time has come, and none before: clamp, bias, hold and gain on the
way on; gain, bias and clamp on the way off; the end of each raises OUT_SEQ. CP_RAIL_LOWER: the charge pump's rails fall 50 ms
after the pair's last loud sample, and not before (R272, R279, R280).
Each row stands for a moment that the sender gives when it is due (log 3, DESIGN CHOICE). -/
def Obligations.OutputSequenceSteps : Prop :=
  ∀ (dt g : Nat) (s a : State) (v : Grp), s.advance dt = a → g < 20 → a.grp g = v →
    (v.st = 0 → exec (.outSeqStep dt g) s = .next a.flush) ∧
    (a.mtime < v.due → a.tm.frame < v.due / 1000 → v.st ≠ 5 → exec (.outSeqStep dt g) s = .next a.flush) ∧
    (v.due ≤ a.mtime →
      (v.st = 1 → exec (.outSeqStep dt g) s =
        .next (State.flush (a.setGrp g { v with st := 2, rr := a.msT v.ramp, due := v.due + a.msT v.ramp }))) ∧
      (v.st = 2 → exec (.outSeqStep dt g) s = .next (State.flush (a.setGrp g { v with st := 3, due := v.due + a.msT 20 }))) ∧
      (v.st = 3 → exec (.outSeqStep dt g) s = .next (State.flush (a.setGrp g { v with
        st := 4, due := v.due + a.msT (a.grpMute g), resp := v.respNew.getD v.resp, respNew := none, respGo := false, fillTo := none }))) ∧
      (v.st = 4 → exec (.outSeqStep dt g) s = .next (State.flush ((a.setGrp g { v with st := 5 }).outSeq g 1))) ∧
      (v.st = 6 → v.offSoon = false → exec (.outSeqStep dt g) s = .next (State.flush (biasDown g v.due (a.gZero g)))) ∧
      (v.st = 7 → exec (.outSeqStep dt g) s = .next (State.flush (a.setGrp g { v with st := 8, due := v.due + a.msT 1 }))) ∧
      (v.st = 8 → v.again = none → exec (.outSeqStep dt g) s =
        .next (State.flush ((a.setGrp g { v with st := 0, again := none, rateMute := none }).outSeq g 0)))) ∧
    (∀ k : Nat, k < 2 → (a.grp (16 + k)).railHigh = true → exec (.cpRailLower dt k) s =
      .next (State.flush (if (a.grp (16 + k)).loudAt + 50000000 ≤ a.clk then
        a.setGrp (16 + k) { a.grp (16 + k) with railHigh := false } else a)))

/-- JACK_EDGE: the pin takes the level and nothing else changes while the jack unit is off or the jack is not enabled; on an enabled
jack the debounce restarts from what the pin shows. On a headphone jack an edge to removed closes the pair's hardware mute at once, and
a return to inserted before the removal is accepted counts in GLITCH and leaves the mute closed. JACK_DEBOUNCE_EXPIRE: a state that has
held for its debounce time is accepted, and no sooner; on a headphone jack after a glitch it opens the mute alone, a removal accepted
shuts the group where AUTO is set, and an insertion accepted opens the mute, ends a fault 6 and, where AUTO is set and the group
enabled, powers it up (R275, R286 to R289, R294).
Each row stands for a moment that the sender gives when it is due (log 3, DESIGN CHOICE). -/
def Obligations.JackDebounce : Prop :=
  ∀ (dt j : Nat) (level : Bool) (s a b : State), s.advance dt = a → j < 4 → a.pins.jackLow.getD j false = level →
    b = { a with pins := { a.pins with jackLow := (List.range 4).map fun i => if i = j then !level else a.pins.jackLow.getD i false } } →
    let k := a.jack j
    let deb (r : Bool) : Deb := { toIn := r, at0 := a.clk, ns := a.nowNs, fr := a.frame32 }
    ((b.jackUnit && b.jackEn j) = false → exec (.jackEdge dt j level) s = .next b.flush) ∧
    ((b.jackUnit && b.jackEn j) = true →
      (2 ≤ j → k.deb = none → exec (.jackEdge dt j level) s = .next (State.flush (b.setJack j
        { k with deb := if k.acc = some (b.jackRead j) then none else some (deb (b.jackRead j)) }))) ∧
      (j < 2 → b.jackRead j = false → k.acc = some true → exec (.jackEdge dt j level) s =
        .next (State.flush ((hpMute j true b).setJack j { k with deb := some (deb false) }))) ∧
      (∀ d : Deb, j < 2 → b.jackRead j = true → k.acc = some true → k.deb = some d → d.toIn = false →
        exec (.jackEdge dt j level) s = .next (State.flush (b.setJack j { k with
          glitch := satInc 15 k.glitch, deb := if (a.grp (16 + j)).hwMute then some (deb true) else none })))) ∧
    (∀ d : Deb, k.deb = some d → (a.jackUnit && a.jackEn j) = true →
      (a.clk < d.at0 + (if d.toIn then k.dbIn else k.dbOut) * 1000000 → exec (.jackDebounceExpire dt j) s = .next a.flush) ∧
      (d.at0 + (if d.toIn then k.dbIn else k.dbOut) * 1000000 ≤ a.clk →
        let q := a.setJack j { k with acc := some d.toIn, deb := none, edgeFr := d.fr, edgeNs := d.ns, meas := none, btnNow := none,
                                      cand := none, polls := [], cls := 0 }
        (k.acc = some d.toIn → exec (.jackDebounceExpire dt j) s =
          .next (State.flush (hpMute j false (a.setJack j { k with deb := none })))) ∧
        (k.acc ≠ some d.toIn → k.waits = none → 2 ≤ j →
          exec (.jackDebounceExpire dt j) s = .next (State.flush (gaugeResume 1 (gaugeTrig (0x10 + (j - 2)) (q.jackEvent j 0 d.ns))))) ∧
        (k.acc ≠ some d.toIn → k.waits = none → j < 2 → d.toIn = false →
          let u := hpMute j true q
          let v := if k.auto ∧ u.inRun ∧ (u.grp (16 + j)).st ≠ 0 then outDisable (16 + j) 1 false u else u
          exec (.jackDebounceExpire dt j) s = .next (State.flush (gaugeResume 1 (v.jackEvent j
            (if k.auto ∧ u.inRun ∧ (u.grp (16 + j)).st ≠ 0 ∧ v.grp (16 + j) ≠ u.grp (16 + j) then 1 else 0) d.ns)))) ∧
        (k.acc ≠ some d.toIn → k.waits = none → j < 2 → d.toIn = true → k.hsdet = false →
          (a.grp (16 + j)).fault ≠ some 6 →
          let u := hpMute j false q
          let v := if k.auto ∧ u.inRun ∧ (u.grp (16 + j)).en then outEnable (16 + j) 1 u else u
          exec (.jackDebounceExpire dt j) s = .next (State.flush (gaugeResume 1 (v.jackEvent j
            (if k.auto ∧ u.inRun ∧ (u.grp (16 + j)).en ∧ v.grp (16 + j) ≠ u.grp (16 + j) then 1 else 0) d.ns)))))) ∧
    (∀ (x : State) (v : Grp), x.grp (16 + j) = v → v.fault = some 6 → j < 2 → ∀ (d : Deb), d.toIn = true → (x.jack j).hsdet = false →
      (x.jack j).auto = false → ((jackAccept j d x).grp (16 + j)).fault = none ∧ ((jackAccept j d x).grp (16 + j)).latched = false ∧
        ((jackAccept j d x).grp (16 + j)).hwMute = false)

/-- A headset measurement begins 5 ms after its bias is on, when GB is free, no conversion on GB was requested before it and no
conversion of a calibration runs, and gives the plug the class of the sum of its two currents; a poll takes its turn on GB 5 ms after
the last one and not before; four polls alike in a button's range press it, two in the window band release it (R291, R292, R482).
Each row stands for a moment that the sender gives when it is due (log 3, DESIGN CHOICE). -/
def Obligations.HeadsetMeasurementAndButtons : Prop :=
  ∀ (dt j i1 i2 : Nat) (s a : State) (m : HsMeas), s.advance dt = a → j < 2 →
    ((a.jack j).meas = some m → m.step = 0 → m.at0 + 5000000 ≤ a.clk → a.framing = true → a.gaugeFree 1 = true →
      a.gbJack = false → a.gbAhead (m.at0 + 5000000) = false → a.gb.calGap a.clk = true →
      exec (.headsetMeasurementStart dt j) s =
        .next (State.flush (a.setJack j { a.jack j with meas := some { m with step := 1, at0 := a.clk } }))) ∧
    ((a.jack j).meas = some m → m.step = 1 → exec (.headsetMeasureDone dt j i1 i2) s =
      .next (State.flush ((gbServed m.at0 (a.setJack j { a.jack j with
        meas := none, pollAt := a.clk,
        cls := if i1 + i2 < 40 then 1 else if i1 + i2 < 2 * (a.jack j).iShort then 2 else 3,
        iMicb := min 0xFFFE ((i1 + i2 + 1) / 2) })).jackEvent j m.jflags m.ns))) ∧
    (a.polled j = false ∨ a.clk < (a.jack j).pollAt + 5250000 → exec (.buttonPoll dt j i1) s = .next a.flush) ∧
    (∀ b : Nat, a.polled j = true → (a.jack j).pollAt + 5250000 ≤ a.clk → a.gbTurn (a.clk - 250000) = true →
      let at1 := nextPoll ((a.jack j).pollAt + 5000000) (a.clk - 250000)
      let u := gbServed (a.clk - 250000) (a.setJack j { a.jack j with pollAt := at1 })
      ((a.jack j).pollKind i1 = some b → b < 4 → (a.jack j).cand = some b → (a.jack j).btnNow = none → (a.jack j).polls.length = 3 →
        exec (.buttonPoll dt j i1) s = .next (State.flush ((u.setJack j { a.jack j with
          pollAt := at1, polls := (a.jack j).polls ++ [i1], iMicb := min 0xFFFE i1, btnNow := some b }).buttonEvent j b 1
            (meanOf ((a.jack j).polls ++ [i1])) (a.jack j).firstPoll))) ∧
      ((a.jack j).pollKind i1 = some 4 → (a.jack j).cand = some 4 → (a.jack j).btnNow = some b → (a.jack j).polls.length = 1 →
        exec (.buttonPoll dt j i1) s = .next (State.flush ((u.setJack j { a.jack j with
          pollAt := at1, polls := (a.jack j).polls ++ [i1], iMicb := min 0xFFFE i1, btnNow := none }).buttonEvent j b 0
            (meanOf ((a.jack j).polls ++ [i1])) (a.jack j).firstPoll))))

/-! ### System commands, the queues, events -/

/-- NOP gives its parameters back, CAPS the table of R86, EVENT_MASK and QUEUE_CONFIG nothing, TIME_READ the time, the frame counter
and the rate of one instant; each, met by a free interpreter, answers at once with OK, and changes only what it names (R85, R86,
R91 to R93).
That the packet starts in the row that brings it is the model's choice (log 6, DESIGN CHOICE). -/
def Obligations.SystemCommandsAnswer : Prop :=
  ∀ (dt : Nat) (c : Cmd) (s a : State), s.advance dt = a →
    let p (opc : Nat) : Packet := a.packet opc c
    let b (opc : Nat) : State := a.began (a.packet opc c)
    (a.accepts 1 c = true →
      exec (.nop dt c) s = .next ((b 1).answered (p 1) stOk a.nowNs ((p 1).bytes 16 (c.len - 16)))) ∧
    (a.accepts 2 c = true → exec (.caps dt c) s = .next ((b 2).answered (p 2) stOk a.nowNs (capsData a))) ∧
    (a.accepts 6 c = true →
      let port := (a.queue c.queue).port
      exec (.eventMask dt c) s = .next (((b 6).setMask port (maskRun (a.evMask port) ((p 6).u16 16) ((p 6).u8 18)
        (decide ((p 6).u8 19 = 1)))).answered (p 6) stOk a.nowNs [])) ∧
    (a.accepts 7 c = true → (p 7).u8 17 = 0 ∨ (p 7).u8 18 ≠ 3 →
      let q := (p 7).u8 16
      exec (.queueConfig dt c) s = .next (((b 7).setQueue q { (b 7).queue q with
        port := (p 7).u8 17, cls := QClass.ofCode ((p 7).u8 18) }).answered (p 7) stOk a.nowNs [])) ∧
    (a.accepts 8 c = true → exec (.timeRead dt c) s = .next ((b 8).answered (p 8) stOk a.nowNs
      (le 6 (a.tm.devT / secT) ++ le 2 0 ++ le 4 (a.tm.devT % secT / 65536) ++ le 2 (a.tm.devT % 65536) ++ le 2 0 ++
       le 8 a.tm.frame ++ le 8 a.tm.frameT ++ le 4 a.tm.rate ++ le 1 a.ttActive ++ le 1 a.tstat ++ le 2 0)))

/-- COMMAND_START starts the packet whose turn it is, or nothing: an ABORT comes first, the earliest; then the earliest of the urgent
queues while a place of the 512 is free; then, with 16 places kept free, a normal queue's in turn; then the earliest of the bulk
queues (R62, R63, R73).
That the 16 places bound every class but urgent, and that bulk queues go by arrival, are the model's readings (logs 47 and 48,
DEDUCED). -/
def Obligations.CommandsStartByClass : Prop :=
  ∀ (dt : Nat) (s a : State), s.advance dt = a →
    (a.nextPacket = none → exec (.commandStart dt) s = .next a.flush) ∧
    ∀ p : Packet, a.nextPacket = some p →
      (a.pins.tmode = false → exec (.commandStart dt) s = .next (State.flush (serve p a))) ∧
      (a.aborts ≠ [] → p ∈ a.aborts ∧ ∀ x ∈ a.aborts, p.arrival ≤ x.arrival) ∧
      (a.aborts = [] → a.heads .urgent ≠ [] →
        a.places < 512 ∧ p ∈ a.heads .urgent ∧ ∀ x ∈ a.heads .urgent, p.arrival ≤ x.arrival) ∧
      (a.aborts = [] → a.heads .urgent = [] → a.places < 496 ∧
        (a.heads .normal ≠ [] → p ∈ a.heads .normal ∧
          ((∃ x ∈ a.heads .normal, a.rr ≤ x.queue) → a.rr ≤ p.queue)) ∧
        (a.heads .normal = [] → p ∈ a.heads .bulk ∧ ∀ x ∈ a.heads .bulk, p.arrival ≤ x.arrival))

/-- CQ_RECORD_WRITE writes the first record that waits where its completion window has room, and nothing where it has none.
RESET_UNIT_DONE completes the first reset that can end. HOST_SLOT_RELEASE clears the slot's flag. FJARORD_EVENT_SEND with no event
waiting changes nothing (R87, R332, R520).
Each row stands for a moment that the sender gives when it is due (log 3, DESIGN CHOICE). -/
def Obligations.RecordsFollowTheirRoom : Prop :=
  ∀ (dt q slot : Nat) (s a : State), s.advance dt = a → q < 32 → slot < 64 →
    (∀ (r : Rec) (rest : List Rec), (a.queue q).waitRecs = r :: rest → (a.queue q).port ≠ 2 →
      exec (.cqRecordWrite dt q) s = .next (State.flush (if a.recFits q r then
        (a.setQueue q { a.queue q with waitRecs := rest }).putRec q r else a))) ∧
    ((a.queue q).waitRecs = [] → exec (.cqRecordWrite dt q) s = .next a.flush) ∧
    (∀ (r : RstUnit) (rest : List RstUnit), a.rsts = r :: rest → a.rstReady r = true →
      exec (.resetUnitDone dt) s = .next (State.flush (({ a with rsts := rest } : State).finishOk r.id [] a.nowNs))) ∧
    (a.rsts = [] → exec (.resetUnitDone dt) s = .next a.flush) ∧
    exec (.hostSlotRelease dt slot) s = .next (State.flush (if a.pwr.ready = true ∧ slot < a.nSlots then
      { a with mem := mwrite a.mem (a.slotBase slot + 3) 0#8 } else a)) ∧
    (a.eventQueue 2 = none → exec (.fjarordEventSend dt) s = .next a.flush) ∧
    (∀ e, a.eventQueue 2 = some e → (a.queue e).waitRecs = [] → exec (.fjarordEventSend dt) s = .next a.flush)

/-- An event that its port masks off is neither placed nor counted; on a port with no event queue, or whose event queue holds 63
records, it is dropped and counted; else its record is placed. EVENT_LOST is written with the count when a record is free again, and
the count restarts (R54, R57, R61, R91). -/
def Obligations.EventsArePlacedOrCounted : Prop :=
  ∀ (port code done : Nat) (data : List Byte) (s : State),
    ((s.evMask port).contains code = true → s.raiseOn port code data done = s) ∧
    (∀ t : State, t = s.flushLost port → (s.evMask port).contains code = false →
      (t.eventQueue port = none → s.raiseOn port code data done = t.setDrop port (min 0xFFFF (t.evDrop port + 1))) ∧
      (∀ q, t.eventQueue port = some q → 63 ≤ t.evHeld q →
        s.raiseOn port code data done = t.setDrop port (min 0xFFFF (t.evDrop port + 1))) ∧
      (∀ q, t.eventQueue port = some q → t.evHeld q < 63 → s.raiseOn port code data done =
        t.postRec q { tag := 0xFFFF, status := 0x4000 + code, queue := q, doneNs := done, data := data })) ∧
    (∀ (dt q : Nat) (a : State), s.advance dt = a → 1 ≤ port → port ≤ 3 → a.eventQueue port = some q →
      exec (.eventLost dt port) s = .next (State.flush (if 0 < a.evDrop port ∧ a.evHeld q < 63 then
        (a.postRec q { tag := 0xFFFF, status := 0x4001, queue := q, doneNs := a.nowNs,
                       data := le 2 (a.evDrop port) ++ le 2 0 }).setDrop port 0 else a)))

/-! ### Frames -/

/-- FRAME_BOUNDARY, while frames run: input set n is latched, with its frame pending for the engine, and then the commands that apply
at B(n) do; frames that do not run change nothing. At a boundary `countFrame` moves the frame counter, the media count and the time of the
boundary on by one frame, and the place in the tick. ENGINE_WORK_START does the pending frame's work after a step of device time that is
due and the commands of the frame (R16 to R19, R82, R310, R351, R369, R390).
Each row stands for a moment that the sender gives when it is due (log 3, DESIGN CHOICE). -/
def Obligations.FramesAreLatchedAndWorked : Prop :=
  ∀ (dt : Nat) (inp : InputSet) (done : Bool) (s a : State), s.advance dt = a → inp.wf = true →
    ((a.framing && a.tm.frameRun) = false → exec (.frameBoundary dt inp done) s = .next a.flush) ∧
    ((a.framing && a.tm.frameRun) = true →
      let b := boundaryLatch inp done a
      exec (.frameBoundary dt inp done) s = .next (State.flush (frameOpen b)) ∧
      (a.eng.first = false →
        b.eng.pendSet = some (b.tm.frame, inp) ∧ b.eng.pendB = b.nowNs ∧ b.eng.lastLatch = b.clk ∧ b.eng.latchT = b.tm.devT)) ∧
    (a.tm.begun = true → (a.tm.frame + 1) % 2 ^ 64 ≠ 0 → countFrame a = { a with
      tm := { a.tm with frame := (a.tm.frame + 1) % 2 ^ 64, frameT := a.nowNs, mediaM := a.tm.mediaM + 1,
                        tick := if a.eng.first then 0 else (a.tm.tick + 1) % tickLen a.tm.rate } }) ∧
    (a.eng.pendSet = none → exec (.engineWorkStart dt) s = .next a.flush) ∧
    (∀ fr : Nat, a.eng.pendSet = some (fr, inp) →
      let w : State := { a with eng := { a.eng with working := none } }
      let v := if a.stepDue then stepApplyFrame w else w
      let b := drainAll (frameSteps fr v.eng.pendB v)
      b.eng.pendSet.isSome = true →
        let t := frameWork fr b.eng.pendB inp (mixJobsDone none b)
        exec (.engineWorkStart dt) s = .next t.flush ∧ t.eng.pendSet = none ∧ t.eng.working = some fr ∧ t.eng.metFr = fr)

/-- A frame whose input set the engine never began is discarded, one whose work has not ended is late: each counts in LATE_COUNT and in
the run of late frames, and ends the run of frames on time; a frame on time ends the run of late ones. The fourth late frame in a row
starts the mute, the 48th on time its end, full gain clears it; each window of 10 ms leaves its PACE, the lowest PACE and the load
(R21, R26 to R31).
Each row stands for a moment that the sender gives when it is due (log 3, DESIGN CHOICE). -/
def Obligations.LateFramesCountAndMute : Prop :=
  ∀ (dt pace load : Nat) (s a : State), s.advance dt = a →
    (a.eng.pendSet.isSome = true → ∀ done : Bool, (frameEnds done a).eng.lateCnt = (satInc 31 (a.eng.lateCnt, a.eng.lateSat)).1 ∧
      (frameEnds done a).eng.lateRun = min 4 (a.eng.lateRun + 1) ∧ (frameEnds done a).eng.okRun = 0 ∧
      (frameEnds done a).eng.disc = true ∧ (frameEnds done a).eng.held = a.eng.held) ∧
    (a.eng.pendSet = none → a.eng.working.isSome = true →
      (frameEnds false a).eng.lateCnt = (satInc 31 (a.eng.lateCnt, a.eng.lateSat)).1 ∧
      (frameEnds false a).eng.lateRun = min 4 (a.eng.lateRun + 1) ∧ (frameEnds false a).eng.okRun = 0 ∧
      (frameEnds false a).eng.disc = a.eng.disc) ∧
    (a.eng.pendSet = none →
      (frameEnds true a).eng.lateCnt = a.eng.lateCnt ∧ (frameEnds true a).eng.lateRun = 0 ∧
      (frameEnds true a).eng.okRun = min 48 (a.eng.okRun + 1) ∧ (frameEnds true a).eng.held = a.eng.outSet) ∧
    exec (.lateMuteStart dt) s = .next (State.flush (if a.eng.lateRun < 4 ∨ a.eng.muteUp = false then a
      else if a.eng.muted then { a with eng := { a.eng with muteUp := false, muted := true } }
      else ({ a with eng := { a.eng with muteUp := false, muted := true } } : State).raiseAt 0x011 [1#8, 0#8, 0#8, 0#8] a.tm.frameT)) ∧
    exec (.lateMuteEnd dt) s = .next (State.flush (if a.eng.okRun < 48 ∨ a.eng.muteUp then a
      else { a with eng := { a.eng with muteUp := true } })) ∧
    exec (.engineMuteClear dt) s = .next (State.flush (if a.eng.muted ∧ a.eng.muteUp ∧ a.eng.muteAt (a.clk - a.eng.lastLatch) = 0 then
      ({ a with eng := { a.eng with muted := false, mutePos := 0 } } : State).raise 0x011 [0#8, 0#8, 0#8, 0#8] else a)) ∧
    (a.alive = true → exec (.paceWindow dt pace load) s = .next (State.flush { a with
      eng := { a.eng with pace := pace, paceMin := min a.eng.paceMin pace, load := min 255 load } }))

/-- A command tied to a frame takes its effect, as its opcode says, at the boundary that begins its frame, when the engine is free
there, no step of device time is due, and no scheduled command comes first; a ROUTE_GET waits for the frame's work, whose records it shows
(R20, R67, R69, R185; log 7).
Which row applies it is the model's reading (log 7, DEDUCED). -/
def Obligations.TiedCommandAppliesAtItsBoundary : Prop :=
  ∀ (dt : Nat) (inp : InputSet) (done : Bool) (s a b : State) (f : Flight) (d : OpDef), s.advance dt = a → inp.wf = true →
    a.framing = true → a.tm.frameRun = true → opDef f.pkt.opc = some d → d.tied = true → f.pkt.opc ≠ 0x0102 →
    f.pkt.sched = false → f.phase = .waitFrame none →
    (boundaryLatch inp done a).eng.working = none → (boundaryLatch inp done a).stepDue = false →
    b = frameSteps (boundaryLatch inp done a).apFrame (boundaryLatch inp done a).apT (boundaryLatch inp done a) →
    b.flight = [f] → b.eng.applyQ = [f.id] → b.inListen = false →
    exec (.frameBoundary dt inp done) s = .next (State.flush (listenSettle (d.apply f.id f.pkt b.apT
      { b with eng := { b.eng with applyQ := [] }, flight := [{ f with phase := .running }] })))

/-! ### Routes, meters, the mix -/

/-- A request on a free destination: the source in force already changes nothing; CUT takes the new source in this frame; FADE and ZERO
begin their transition from the old one; no other destination changes. ROUTE_FADE_END frees the destination; in a frame at hand
whose work has not begun, ROUTE_HELD_APPLY applies the request held once the destination is free, and ZERO_FALLBACK begins the fade
after the window, one of no length acting as CUT; MIX_FADE_END completes a job whose fades are over, unless its commit is of the
frame at hand (R167 to R171, R234).
Each row stands for a moment that the sender gives when it is due (log 3, DESIGN CHOICE). -/
def Obligations.RoutesChangeByTheirTransition : Prop :=
  ∀ (d fr t dt : Nat) (q : Req) (s a : State), s.advance dt = a → d < 1024 →
    (let r := a.route d
     let n := msFrames q.fade a.tm.rate
     let b := a.beginReq d q fr t
     (∀ k, k ≠ d → b.route k = a.route k) ∧
     (q.src = r.src → b.route d = { r with trans := none }) ∧
     (q.src ≠ r.src → q.kind = 1 ∨ (q.kind = 2 ∧ n = 0) → b.route d = { r with src := q.src, trans := none, cutFr := some fr }) ∧
     (q.src ≠ r.src → q.kind = 2 → 0 < n →
       b.route d = { r with src := q.src, trans := some { kind := .fade, from0 := r.src, n := n, job := q.job } }) ∧
     (q.src ≠ r.src → q.kind = 3 → b.route d = { r with
       src := q.src, trans := some { kind := .zero, from0 := r.src, n := n, w := msFrames q.win a.tm.rate, job := q.job } })) ∧
    (∀ x : Trans, (a.route d).trans = some x → x.kind ≠ .zero → exec (.routeFadeEnd dt d) s =
      .next (State.flush (if x.n ≤ x.k then a.setRoute d { a.route d with trans := none } else a))) ∧
    (∀ r : Req, (a.route d).held = some r → exec (.routeHeldApply dt d) s =
      .next (State.flush (if a.frameAtHand = true ∧ (a.route d).freeAt a.apFrame = true then
      (a.setRoute d { a.route d with held := none }).beginReq d r a.apFrame a.apT else a))) ∧
    (∀ x : Trans, (a.route d).trans = some x → x.kind = .zero → exec (.zeroFallback dt d) s =
      .next (State.flush (if a.frameAtHand = true ∧ x.w < x.k then
      (a.setRoute d (if x.n = 0 then { a.route d with trans := none, cutFr := some a.apFrame }
        else { a.route d with trans := some { x with kind := .fallback, k := 0 } })).jobBegun x.job a.apFrame a.apT true else a))) ∧
    (∀ j : MixJob, a.mixJobs = [j] → exec (.mixFadeEnd dt) s = .next (State.flush (if j.left = 0 ∧ a.openFrame ≠ some j.commitFr then
      { a.finishOk j.id (j.data 0 (j.endFr % 2 ^ 32)) j.endT with mixJobs := [] } else a)))

/-- CUT: where a request names another source on a free destination, its sample of the frame in which it applies is already the new
source's, no transition runs, and the destination is free again in the next frame (R167). -/
def Obligations.CutTakesItsFrame : Prop :=
  ∀ (d fr t : Nat) (q : Req) (s : State) (read : Nat → Int) (cz : Nat → Bool), q.kind = 1 → q.src ≠ (s.route d).src →
    let b := s.beginReq d q fr t
    routeWork b d fr t read cz = (b, read q.src) ∧ (b.route d).src = q.src ∧ (b.route d).trans = none ∧
      (b.route d).freeAt (fr + 1) = true

/-- METER_READ restarts the peak and the true peak of the points it names and keeps their hold, unless told to keep all;
METER_RESET clears the chosen quantities of the points it names; METER_CFG sets the time constant of the points it names where its mask
names that alone. No other point changes (R196, R198, R201). -/
def Obligations.MetersActOnNamedPoints : Prop :=
  ∀ (id t k : Nat) (p : Packet) (s : State),
    (k ∉ mpAt p 20 (p.u16 16) → (meterReadApply id p t s).meter k = s.meter k) ∧
    (k ∈ mpAt p 20 (p.u16 16) → bit (p.u8 18) 0 = false →
      ((meterReadApply id p t s).meter k).peak = 0 ∧ ((meterReadApply id p t s).meter k).tpeak = 0 ∧
      ((meterReadApply id p t s).meter k).hold = (s.meter k).hold) ∧
    (k ∈ mpAt p 20 (p.u16 16) → bit (p.u8 18) 0 = true → bit (p.u8 18) 1 = false →
      (meterReadApply id p t s).meter k = s.meter k) ∧
    (meterResetApply id p t s).meter k = (if k ∈ mpNamed p 20 s then (s.meter k).clear (p.u8 17) else s.meter k) ∧
    (p.u8 17 = 1 → k ∈ mpNamed p 28 s → ((meterCfgApply id p t s).meter k).tau = p.u16 20 ∧
      ((meterCfgApply id p t s).meter k).peak = (s.meter k).peak) ∧
    (k ∉ mpNamed p 28 s → (meterCfgApply id p t s).meter k = s.meter k)

/-! ### Firkin, analogue inputs -/

/-- The timed ends of Firkin: a crossfade or a fade to zero that is over frees its line, the fade to zero releasing the region and
completing the unbind; a held change applies on a free line; a cleared region reads zero; a bulk transfer has moved its bytes. Each
completes its command (R252 to R254, R256, R259, R265).
That a bulk transfer has moved its bytes by its end, and what of it earlier frames moved, is the model's choice (log 99, DESIGN CHOICE);
that a held change of no length begins no crossfade is its reading (log 139, DEDUCED).
Each row stands for a moment that the sender gives when it is due (log 3, DESIGN CHOICE). -/
def Obligations.FirkinOperationsEnd : Prop :=
  ∀ (dt k : Nat) (s a : State), s.advance dt = a → k < 128 →
    (exec (.delayXfadeEnd dt k) s = .next (State.flush (if (a.line k).fade.isSome && (a.line k).free then
      a.setLine k { a.line k with fade := none } else a))) ∧
    (∀ h : LReq, (a.line k).held = some h → (a.line k).free = true →
      let b := lineBegin k h.delay h.n a.apFrame (a.setLine k { a.line k with held := none, fade := none })
      exec (.delayHeldApply dt k) s = .next (State.flush (b.finishOk h.job (lineData b k) a.apT))) ∧
    (∀ (f : LFade) (j : Nat), (a.line k).fade = some f → f.toZero = true → f.n ≤ f.k → (a.line k).unbindJob = some j →
      let b := lineRelease k a
      exec (.unbindFadeEnd dt k) s =
        .next (State.flush (b.finishOk j (lineData b k) (if f.n = 0 then a.tm.frameT else (a.line k).endT)))) ∧
    (∀ (x : Xfer) (r : Region), a.xfers = [x] → a.region x.region = some r →
      (x.clear = true →
        let b : State := { a with xfers := [], fk := mclear a.fk (4096 * r.first) (4096 * (r.first + r.n)) }
        exec (.regionClearDone dt) s = .next (State.flush (b.finishOk x.id (allocData b x.region r.first r.frames) a.nowNs))) ∧
      (x.clear = false → exec (.bulkTransferDone dt) s = .next (State.flush ((moveBytes x x.moved x.total { a with xfers := [] }).finishOk
        x.id (le 4 x.firstFr ++ le 4 a.frame32) a.nowNs))))

/-- The timed ends of the analogue inputs: a pad change whose quiet moment never came begins its steps, and has ended 1 ms later; an
enabled front-end gets power in Run and settles; from its first valid frame on it delivers; the next 1 ms of a pair's instants, once
gathered, is its block of calibration, which changes the pair unless it is frozen (R106, R108, R119, R127, R141).
Each row stands for a moment that the sender gives when it is due (log 3, DESIGN CHOICE). -/
def Obligations.FrontEndsSettleAndCalibrate : Prop :=
  ∀ (dt ch pair : Nat) (tjC : Int) (s a : State), s.advance dt = a → ch < 32 → pair < 2 →
    (∀ j : PadJob, (a.ain ch).padJob = some j → j.stepping = none → exec (.padSteppedStart dt ch) s =
      .next (State.flush (if j.until0 ≤ 8 * a.tm.frame then
        a.setAin ch { a.ain ch with padJob := some { j with stepping := some (a.clk, 0) } } else a))) ∧
    (∀ (j : PadJob) (t0 n : Nat), (a.padNow ch).padJob = some j → j.stepping = some (t0, n) →
      exec (.padChangeDone dt ch) s = .next (State.flush (if t0 + 1000000 ≤ a.clk then
        (a.setAin ch ((a.padNow ch).padGo j.target)).padEnd j.job ch a.tm.frameT 1 else a))) ∧
    (a.inRun = true → ch < a.nAin → (a.ain ch).en = true → (a.ain ch).powered = false →
      exec (.frontEndPowered dt ch) s = .next (State.flush
        (((a.setAin ch (({ a.ain ch with powered := true } : Ain).sync a.nextFrame)).pairHot ch 0).pairHot ch 1))) ∧
    ((a.ain ch).powered = true → (a.ain ch).settling = true → exec (.settleEnd dt ch) s =
      .next (State.flush (if (a.ain ch).firstValid ≤ a.nextFrame then a.setAin ch { a.ain ch with settling := false } else a))) ∧
    (let p := (a.ain ch).pair pair
     let e := p.at0 + msInter a.tm.rate
     (a.inRun = false ∨ (a.ain ch).powered = false ∨ (a.ain ch).k < e → exec (.mergeCalBlock dt ch pair tjC) s = .next a.flush) ∧
     (a.inRun = true → (a.ain ch).powered = true → e ≤ (a.ain ch).k → p.st = .frozen → exec (.mergeCalBlock dt ch pair tjC) s =
       .next (State.flush (a.setAin ch ((a.ain ch).setPair pair { p with at0 := e })))) ∧
     (a.inRun = true → (a.ain ch).powered = true → e ≤ (a.ain ch).k → p.st ≠ .frozen →
       let q := { p.block (a.ain ch) ch a.tm.rate pair ((a.ain ch).cal.filter fun x => decide (p.at0 ≤ x.k) && decide (x.k < e)) tjC with
         at0 := e }
       exec (.mergeCalBlock dt ch pair tjC) s = .next (State.flush ((a.setAin ch ((a.ain ch).setPair pair q)).pairTo ch pair
         (q.next tjC p.lastTemp)))))

/-! ### The network -/

/-- Frames of a port: a received frame with an error is counted and dropped, a pause frame counted, a frame no filter passes counted.
Of the others a PTP message goes to its tracker, a datagram of a stream is received for it, with its wire time, one for the Fjarord
port goes there, an ARP or echo request for the port's address is answered, an IGMP query is answered by reports, and any other frame
goes into the next receive slot, or is dropped and counted where that is full. A due IGMP report leaves with TTL 1; the frame a host
queued leaves when no media packet is due; a link that changes while its port is off changes nothing, and each link-up
and link-down of one that is on is announced; an event of Fjarord leaves when one waits and there is an address to send to (R307, R309, R317, R320, R324 to R326, R331 to R333, R337, R354, R356, R538, R544).
The forms of IGMP messages are presumed (log 16, PRESUMED); the MAC address an event is sent to, and the TTL and identification of what
the firmware sends, are free (log 20, DESIGN CHOICE).
Each row stands for a moment that the sender gives when it is due (log 3, DESIGN CHOICE). -/
def Obligations.PortsCarryTheirFrames : Prop :=
  ∀ (dt p speed : Nat) (an rf : Bool) (f : List Byte) (s a : State), s.advance dt = a → p < 2 → speed < 7 →
    (a.portUp p = true → (a.isSmall && decide (p = 1)) = false →
      exec (.ethFrameRx dt p f false) s = .next (State.flush (a.rxCount p fun n => { n with rxErr := satInc 31 n.rxErr })) ∧
      (f.length + 4 ≤ (a.netP p).mtu → flowControl f = true → exec (.ethFrameRx dt p f true) s =
        .next (State.flush (a.rxCount p fun n => { n with rxPause := satInc 31 n.rxPause }))) ∧
      (f.length + 4 ≤ (a.netP p).mtu → flowControl f = false → bit (a.netP p).nfl 3 = false → (ethOf f).dst ≠ (a.netP p).mac →
        (ethOf f).dst ≠ 0xFFFFFFFFFFFF → (ethOf f).dst ∉ a.filters p → exec (.ethFrameRx dt p f true) s =
        .next (State.flush (a.rxCount p fun n => { n with rxUnmatched := satInc 31 n.rxUnmatched })))) ∧
    (a.portUp p = false → exec (.ethFrameRx dt p f true) s = .next a.flush) ∧
    (a.rxPasses p f = true →
      let n := a.netP p
      let b := a.rxCount p fun x => { x with rxOk := satInc 31 x.rxOk }
      (∀ (l2 : Bool) (m : List Byte) (t : Nat), ptpOf (ethOf f) f = some (l2, m) → a.ptpOwner p l2 m = some t →
        exec (.ethFrameRx dt p f true) s = .next (State.flush (ptpRx t m b))) ∧
      (∀ (ip : Ip4) (u : Udp), a.rxPlain p f = true → ip4Of f = some ip → udpOf ip = some u →
        (∀ i c, a.rxMatch p ip u = some (i, c) → exec (.ethFrameRx dt p f true) s = .next (State.flush
          ((a.rxCount p fun x => { x with rxMedia := satInc 31 x.rxMedia }).setRx i { a.rxs i with fly := (a.rxs i).fly ++
            [{ arr := a.clk + (max 64 (f.length + 4) + 20) * 8 * 1000000000 / max 1 (speedBps n.speed) + 2000, port := p, sumOk := u.sumOk,
               data := u.data }] }))) ∧
        (a.rxMatch p ip u = none → a.fjPort p ip u = true →
          exec (.ethFrameRx dt p f true) s = .next (State.flush (fjRx p (ethOf f).src ip.src u.sport u.data b)) ∧
          (bit a.pc.fjFl 0 = false → exec (.ethFrameRx dt p f true) s = .next (State.flush { b with pc := a.pc.bad })))) ∧
      (a.rxLeft p f = true →
        let kept (fwd : Bool) (x : State) : State := if fwd then hostRx p f true x else x
        (∀ mac body, arpAnswer n (ethOf f) f = some (mac, body) → exec (.ethFrameRx dt p f true) s = .next (State.flush
          (kept (bit n.nfl 4) ((a.fwEth p mac 0x0806 body).rxCount p fun x => { x with rxOk := satInc 31 x.rxOk })))) ∧
        (arpAnswer n (ethOf f) f = none →
          (∀ ip body, echoAnswer n f = some (ip, body) → n.echoRoom a.clk = true → exec (.ethFrameRx dt p f true) s = .next (State.flush
            (kept (bit n.nfl 4) (((a.setNet p (n.echoed a.clk)).fwIp p (ethOf f).src ip 1 (Config.frameField 0 % 256) n.dscp [] body).rxCount
              p fun x => { x with rxOk := satInc 31 x.rxOk })))) ∧
          (echoAnswer n f = none →
            (∀ ip : Ip4, ip4Of f = some ip → ip.proto = 2 → 8 ≤ ip.body.length → byteAt ip.body 0 = 0x11 →
              exec (.ethFrameRx dt p f true) s = .next (State.flush (hostRx p f true (igmpQuery p ip.body a)))) ∧
            ((∀ ip : Ip4, ip4Of f = some ip → ip.proto ≠ 2) → (ethOf f).dst = n.mac → macGroup n.mac = false →
              exec (.ethFrameRx dt p f true) s = .next (State.flush (hostRx p f false a))))))) ∧
    (∀ answered : Bool,
      (a.slotFull a.ring = true → hostRx p f answered a =
        a.setNet p { a.netP p with rxHostDrop := satInc 31 (a.netP p).rxHostDrop }) ∧
      (a.slotFull a.ring = false →
        let d := le 2 f.length ++ le 1 p ++ le 1 (flags [true, (ethOf f).tagged, answered]) ++ le 4 0 ++ le 8 a.nowNs ++
          le 2 (a.tm.devT % 65536) ++ le 2 0 ++ le 4 a.frame32 ++ le 8 0 ++ f
        let b := ({ a with ring := (a.ring + 1) % a.nSlots, mem := mwrites a.mem (a.slotBase a.ring) d } : State).setNet p
          { a.netP p with rxHost := satInc 31 (a.netP p).rxHost }
        hostRx p f answered a = if a.slotFull (if a.ring = 0 then a.nSlots - 1 else a.ring - 1) then b
          else b.raise 0x702 (le 1 a.ring ++ le 3 0))) ∧
    (∀ (j : IgmpJob) (r : List IgmpJob), (a.netP p).igmp = j :: r → j.due ≤ a.clk →
      let dst := if bit (a.netP p).nfl 2 then 0xE0000016 else if j.kind = 2 then 0xE0000002 else j.group
      exec (.igmpReportSend dt p) s = .next (State.flush ((a.setNet p { a.netP p with igmp := r }).fwIp p (mcastMac dst) dst 2 1
        (a.netP p).dscp (be 4 0x94040000) (if bit (a.netP p).nfl 2 then igmp3 j else igmp2 j)))) ∧
    (∀ (h : HostTx) (r : List HostTx), (a.netP p).txq = h :: r → a.portUp p = true → a.mediaDue p = false →
      let g := pad60 (mreads a.mem (0x1A0000 + h.wofs) h.len)
      let n := a.netP p
      exec (.hostFrameDepart dt p) s = .next (State.flush ((a.setNet p { n with
        txq := r, txOk := satInc 31 n.txOk, txHost := satInc 31 n.txHost, lastTx := if h.stamp then stampFrame g h a else g }).finishOk
        h.id (le 8 a.nowNs ++ le 2 (a.tm.devT % 65536) ++ le 2 0 ++ le 4 a.frame32) a.nowNs))) ∧
    ((a.netP p).nmode = 0 → exec (.linkChange dt p speed an rf) s = .next (State.flush (ttChecks a))) ∧
    (a.framing = true → p < a.nPort → (a.netP p).nmode ≠ 0 → exec (.linkChange dt p 0 an rf) s = .next (State.flush (ttChecks
      (if (a.netP p).up = false then a else (hostFramesLost p (a.setNet p { a.netP p with
        up := false, speed := 0, an := false, rf := false, linkFr := a.frame32, held := 0,
        linkDown := satInc 31 (a.netP p).linkDown })).netLink p)))) ∧
    (a.framing = true → p < a.nPort → speed ≠ 0 → (a.netP p).rates.contains speed = true → (a.netP p).up = false →
      (a.netP p).ipv4 = 0 →
      let n := a.netP p
      let b := a.setNet p { n with up := true, speed := speed, an := an && bit n.nfl 0 && decide (n.nmode ≠ 1), rf := rf,
                                   linkFr := a.frame32 }
      exec (.linkChange dt p speed an rf) s =
        .next (State.flush (ttChecks ((b.setNet p { b.netP p with held := b.heldCount p }).netLink p)))) ∧
    (∀ (q port : Nat) (r : Rec) (rest : List Rec) (b : State), a.eventQueue 2 = some q → a.fjEventPort = some port →
      (a.queue q).waitRecs = r :: rest → a.pc.evtIp ≠ 0 →
      a.fjSend port (ipMac a.freeCtr a.pc.evtIp) a.pc.evtIp a.pc.evtUdp 4 0xFFFF (b2n (bit a.pc.fjFl 2)) q r = some b →
      exec (.fjarordEventSend dt) s = .next (State.flush ((b.setQueue q { b.queue q with waitRecs := rest }).bump)))

/-- A media packet due on a port, with no lower stream's due there, leaves it, counted; on a port that is down it is skipped and
counted. A receiving stream that has written nothing for 100 ms loses its signal, and a path that has brought nothing for 100 ms
drops out; a state that has changed is reported, where no event of the stream came before; the datagrams that have arrived by then
count first, each checked as it arrives (R315, R317, R320, R321, R337, R596).
That a datagram is judged at its arrival and its judging done with the next row that needs it is the model's reading (log 141, DEDUCED).
Each row stands for a moment that the sender gives when it is due (log 3, DESIGN CHOICE). -/
def Obligations.StreamsSendAndTimeOut : Prop :=
  ∀ (dt p st : Nat) (s a : State), s.advance dt = a → p < 2 → st < 128 →
    (∀ k : TxPkt, (a.txs st).due = [k] → bit k.ports p = true →
      (a.tx.any fun e => decide (e.1 < st) && e.2.due.any fun x => bit x.ports p) = false →
      k.ports = 2 ^ p → (a.txs st).cfg.isSome = true →
      let t := a.txs st
      let n := a.netP p
      (a.portUp p = false → exec (.txMediaPacket dt p st) s =
        .next (State.flush (a.setTx st { t with due := [], skip := if k.old then t.skip else satInc 31 t.skip }))) ∧
      (a.portUp p = true → exec (.txMediaPacket dt p st) s = .next (State.flush
        ((a.setTx st { t with due := [], pkts := if k.old then t.pkts else satInc 31 t.pkts }).setNet p
          { n with txOk := satInc 31 n.txOk, txMedia := satInc 31 n.txMedia, lastTx := pad60 (k.frame n a.tm.rate k.k) })))) ∧
    ((a.txs st).due = [] → exec (.txMediaPacket dt p st) s = .next a.flush) ∧
    (let b := a.landed
     let r := b.rxs st
     exec (.rxNoSignal dt st) s = .next (State.flush (if r.st = 1 ∧ r.lastWr + 100000000 ≤ b.clk then
      rxReport st (b.setRx st { r with st := 2 }) else b)) ∧
     exec (.rxPathTimeout dt st p) s = .next (State.flush (if bit r.paths p ∧
        (if p = 0 then r.last0 else r.last1) + 100000000 ≤ b.clk then
      rxReport st (b.setRx st { r with paths := r.paths - 2 ^ p }) else b)) ∧
     (r.st = r.repSt → r.paths = r.repPaths → exec (.rxStream dt st) s = .next b.flush) ∧
     (r.st ≠ r.repSt → tget? b.evLast (0x703 * 65536 + st) = none → exec (.rxStream dt st) s = .next (State.flush (b.rxEvent st)))) ∧
    (∀ (c : RxCfg) (y : RxFly) (lim : Nat) (r : Rx), a.rx = [(st, r)] → r.cfg = some c → r.fly = [y] →
      (lim ≤ y.arr → rxLands lim a = a) ∧
      (y.arr < lim → bit c.ports y.port = true →
        let b := a.setRx st { r with fly := [] }
        rxLands lim a = rxPacket st y.port c y.sumOk y.data y.arr b ∧
        (y.sumOk = false → rxLands lim a = b.setRx st { r with fly := [], badFmt := satInc 31 r.badFmt })))

/-! ### Time and clocks -/

/-- The trackers: a follower asks for its delay when a request is due, a leader, and no other, sends, and its Sync when that is due; a
tracker that hears no leader goes to holdover; a follower unheard for 60 s is forgotten; the 10 ms evaluation measures D, and under a
selection of none changes no selection, the automatic selection takes the preferred tracker that qualifies where none is active, the manual one the
preferred tracker whenever it may; a switch waits for the next frame boundary; a slew ends when r is 0; a step is made when its
frames have passed, device time then reads what was loaded or has moved by e, and the commands of the frame at hand are listed anew (R72,
R356, R358 to R360, R363 to R365, R368, R369, R386).
The comparison of leaders and the fields of the messages are presumed (log 19, PRESUMED).
Each row stands for a moment that the sender gives when it is due (log 3, DESIGN CHOICE). -/
def Obligations.TrackersKeepTime : Prop :=
  ∀ (dt t : Nat) (s a : State), s.advance dt = a → t < 2 →
    (let k := a.tt t
     (k.en = false → exec (.ptpDelayReqSend dt t) s = .next a.flush) ∧
     (k.en = true → k.st = .locked → k.lead.isSome = true → k.dreqAt + logNs (k.dreqLog.getD k.logDreq) ≤ a.clk →
       a.portUp (a.ttPort t) = true → ∃ b : State, b = a.setTt t { k with
         dreqSeq := (k.dreqSeq + 1) % 65536, dreqAt := a.clk, dreq := satInc 31 k.dreq, t3 := some (a.localT t + k.phyTx * 65536) } ∧
       exec (.ptpDelayReqSend dt t) s =
         .next (State.flush (b.ptpSend t true (ptpMsg b t 1 0 0 ((k.dreqSeq + 1) % 65536) 1 127 (be 10 0))))) ∧
     (k.st ≠ .leader → ∀ sync, exec (.leaderAnnounceSync dt t sync) s = .next a.flush) ∧
     (k.st = .leader → k.syncSentAt + logNs k.logSync ≤ a.clk → ∃ b : State, b = a.setTt t { k with
         sSeq := (k.sSeq + 1) % 65536, syncSentAt := a.clk } ∧ exec (.leaderAnnounceSync dt t true) s =
       .next (State.flush (b.ptpSend t true (ptpMsg b t 0 0 ((a.tm.devT + k.phyTx * 65536 : Int) % 65536) k.sSeq 0 k.logSync
         (stamp10 (a.tm.devT + k.phyTx * 65536)))))) ∧
     (∀ l, k.st = .locked → k.lead = some l → exec (.announceTimeout dt t) s = .next (State.flush
       (if l.annAt + k.annTo * logNs l.logAnn ≤ a.clk ∨ l.syncAt + 16 * logNs l.logSync ≤ a.clk then a.leadLost t else a))) ∧
     (k.role ≠ 2 → (bestOf (k.qualified a.clk) = none ∨ k.lead = none) → a.leadLost t = a.ttTo t .holdover) ∧
     exec (.followerForget dt t) s = .next (State.flush (a.setTt t { k with
       followers := k.followers.filter fun f => decide (a.clk < f.last + 60000000000) }))) ∧
    (let e := evalMeasure a
     (e.tm.mode = 0 ∨ e.tm.switchWait.isSome = true → exec (.trackerEval dt) s = .next (State.flush e)) ∧
     (e.alive = true → e.tm.switchWait = none → e.tm.mode = 2 → e.tm.active = none →
       e.qualifies e.tm.pref none = true → exec (.trackerEval dt) s = .next (State.flush (e.switchAt e.tm.pref 4))) ∧
     (e.alive = true → e.tm.switchWait = none → e.tm.mode = 1 → e.tm.active ≠ some e.tm.pref →
       (e.tt e.tm.pref).est.isSome = true → (e.tt e.tm.pref).leads = false →
       exec (.trackerEval dt) s = .next (State.flush (e.switchAt e.tm.pref 0))) ∧
     ((a.framing && a.tm.frameRun && a.tm.begun) = true → e = { (ttChecks a).pllHist with
       tm := { (ttChecks a).pllHist.tm with dMeas := (ttChecks a).pllHist.dDiff } })) ∧
    (∀ c : Nat, (a.framing && a.tm.frameRun && a.tm.begun) = true →
      a.switchAt t c = { a with tm := { a.tm with switchWait := some (t, c) } }) ∧
    exec (.slewEnd dt) s = .next (State.flush (if a.tm.slewing ∧ a.tm.r = 0 then
      ({ a with tm := { a.tm with slewing := false } } : State).raise 0x805
        (le 4 (min 0xFFFFFFFF ((a.clk - a.tm.slewAt) / 1000000)) ++ le 4 a.frame32) else a)) ∧
    (a.tm.step = none → exec (.stepApply dt) s = .next a.flush) ∧
    (a.framing = true → a.stepDue = false → exec (.stepApply dt) s = .next a.flush) ∧
    (∀ x, a.tm.step = some x → x.left = 0 →
      let b := stepApplyStep a
      let c := pllAfterStep ((b.nowNs : Int) - a.nowNs) (gaugeSkip a.nowNs b.nowNs b)
      (c.eng.pendSet = none → exec (.stepApply dt) s = .next (State.flush c)) ∧
      (∀ e, c.eng.pendSet = some e →
        exec (.stepApply dt) s = .next (State.flush (frameOpen { c with eng := { c.eng with applyQ := c.frameCmds e.1 } }))) ∧
      (a.tm.jumpHeld = [] → b.tm.step = none ∧ b.tm.stepCnt = satInc 31 a.tm.stepCnt ∧ b.tm.frame = a.tm.frame ∧ b.readers = [] ∧
        (∀ v : Nat, x.load = some v → b.tm.devT = v % wrapT) ∧
        (x.load = none → x.cause = 0 → b.tm.devT = (a.tm.devT + x.e : Int).toNat % wrapT)))

/-- The PLLs: a lost reference, whatever it is, is held at the average correction of the last 10 s and counted; one that returns within
its window is followed again, by a relock where the frequencies differ by more than 200 ppm; 1 s within the band is phase lock; a slew
of phase, a pull and a segment of a ramp end when their time has passed; a lock that is lost begins a relock, whose steps end with the
outputs low and with the lock, of the APLL too (R394 to R398, R402, R403, R405, R406).
From when that average is taken, and what the limiter shares, are the model's readings (log 143, DEDUCED; log 86, DESIGN CHOICE).
Each row stands for a moment that the sender gives when it is due (log 3, DESIGN CHOICE). -/
def Obligations.PllsFollowTheirReference : Prop :=
  ∀ (dt m : Nat) (phi ppb : Int) (s a : State), s.advance dt = a → m < 3 →
    (let p := a.pll m
     let q := (a.pllPush m).pll m
     (m < 2 → p.lstate ≠ 0 → p.refOk = true → p.ref = 4 ∨ p.ref = 6 ∨ (2 ≤ p.ref ∧ a.refSeen m = false) →
       exec (.mpllRefLoss dt m) s = .next (State.flush (((a.pllPush m).setPll m { q with
         refOk := false, corr := avgOver q.hist, refLoss := satInc 31 q.refLoss }).rstTo m 4 0 (q.phaseNow a.clk)))) ∧
     (m < 2 → p.ref < 2 ∨ p.refOk = false ∨ p.lstate = 0 → exec (.mpllRefLoss dt m) s = .next a.flush) ∧
     (m < 2 → p.lstate ≠ 0 → (p.ref = 4 ∨ p.ref = 6 ∨ (p.ref = 5 ∧ a.refSeen m = true)) ∧ p.refOk = false ∨
         (p.ref = 2 ∨ p.ref = 3) ∧ a.refSeen m = true → refInBand p.ref (a.pllCorr m + ppb) = true →
       let b := (a.pllPush m).setPll m { q with refOk := true, corr := a.pllCorr m + ppb, refAt := a.clk }
       let red := reducePhi (a.refHz m) phi
       (200000 < ppb.natAbs → exec (.mpllRefReturn dt m phi ppb) s = .next (State.flush (relockStart m 1 (b.rstTo m 1 2 red)))) ∧
       (ppb.natAbs ≤ 200000 → p.following a.nowNs = true → exec (.mpllRefReturn dt m phi ppb) s =
         .next (State.flush (b.rstTo m 3 0 red))) ∧
       (ppb.natAbs ≤ 200000 → p.following a.nowNs = false → exec (.mpllRefReturn dt m phi ppb) s =
         .next (State.flush (align m red false b)))) ∧
     (m < 2 → p.ref < 2 ∨ refInBand p.ref (a.pllCorr m + ppb) = false → exec (.mpllRefReturn dt m phi ppb) s = .next a.flush) ∧
     (m < 2 → p.lstate = 2 → p.rstate = 1 →
       (a.clk < p.inBandAt + 1000000000 → exec (.mpllPhaseLock dt m) s = .next a.flush) ∧
       (p.inBandAt + 1000000000 ≤ a.clk → exec (.mpllPhaseLock dt m) s =
         .next (State.flush (if p.freeRan then mediaAnew m (a.rstTo m 2 0 0) else a.rstTo m 2 0 0)))) ∧
     (m < 2 → p.rstate = 5 → exec (.phaseSlewEnd dt m) s =
       .next (State.flush (if p.slewAt + p.slewNs ≤ a.clk then (a.setPll m { p with phase := 0 }).rstTo m 1 0 0 else a))) ∧
     exec (.mpllLossOfLock dt m) s = .next (State.flush (if p.lstate = 2 then relockStart m 5 a else a)) ∧
     (∀ r, p.relock = some r → r.step = 1 → exec (.mpllRelockStep dt m) s =
       .next (State.flush (ncoTake m (a.setPll m { p with relock := some { r with step := 2, at0 := a.clk } })))) ∧
     (p.relock = none → exec (.mpllLock dt m) s = .next (State.flush (listenUp a))) ∧
     (∀ r, p.relock = some r → r.step = 2 → m ≠ a.serving → p.rstate ≠ 3 → exec (.mpllLock dt m) s = .next (State.flush (listenUp
       (let b := (a.setPll m { p with lstate := 2, relock := none, lockFr := a.frame32, phase := 0, inBandAt := a.clk }).lockEvent m r.cause
        if m = 2 then b else pllSettle m b)))) ∧
     (∀ x, m < 2 → p.ramp = some x → a.nowNs < x.at0 + x.durUs * 1000 → exec (.rampSegmentEnd dt m) s = .next a.flush) ∧
     (∀ x, m < 2 → p.ramp = some x → x.at0 + x.durUs * 1000 ≤ a.nowNs → x.idx + 1 < x.segs.length → exec (.rampSegmentEnd dt m) s =
       .next (State.flush ((a.pllPush m).setPll m { q with
         offset := (x.segs.getD x.idx (0, 0)).1,
         ramp := some { x with
           idx := x.idx + 1, at0 := x.at0 + x.durUs * 1000, from0 := (x.segs.getD x.idx (0, 0)).1,
           durUs := (segUs (x.segs.getD x.idx (0, 0)).1 (x.segs.getD (x.idx + 1) (0, 0))).1 } }))) ∧
     (m < 2 → p.pulling = true → p.pullAt a.clk a.nowNs = pullDep p.pull → exec (.pullRampEnd dt m) s =
       .next (State.flush (pllSettle m ((a.pllPush m).setPll m { q with pulling := false })))) ∧
     (m < 2 → p.pulling = false ∨ p.pullAt a.clk a.nowNs ≠ pullDep p.pull → exec (.pullRampEnd dt m) s = .next a.flush) ∧
     (p.pullAt p.lim.at0 a.nowNs = p.lim.pull))

/-- Clock outputs, serial ports, converters, the base rate. A change of a clock output applies at its next low phase. A slave port that
loses its clock waits; a good port frame within its rate's bound counts toward the eight that run it, any other starts the count anew,
and one in error counts; a running port takes the masked slots of each good frame, zeros for one in error, waits after the fourth error
in a row or off its rate, and repeats or drops a port frame, counted as a slip, where none or two ended in a frame. A converter locks
on a ratio of 0.25 to 4 and leaves its lock at once. A change of the base rate applies at the first qualifying tick 1 ms or more after
t0, and none before: the rate, the count of the tick and the media count begin anew, every powered AIN channel resets at the next frame,
receive buffers and readers are empty, and each output group that is on stays muted for the delay of its response (R139, R310, R328,
R410, R414, R429 to R431, R433, R435).
That RATE_CHANGE_APPLY is given just before that tick, with all of R410 there, and that changes begun before it merge, are the model's
readings (log 90, DEDUCED); where the deadlines stand after a slip is its choice (log 161, DESIGN CHOICE). -/
def Obligations.SerialPortsAndConvertersLock : Prop :=
  ∀ (dt k p ch ratio mhz : Nat) (slots : List Nat) (valid : Bool) (s a : State), s.advance dt = a → k < 8 → p < 4 → ch < 64 →
    ratio < 4294967296 → mhz < 4294967296 → (∀ x ∈ slots, x < 4294967296) →
    ((a.cko k).dirty = true → exec (.ckoApply dt k) s =
      .next (State.flush (a.setCko k { a.cko k with now := (a.cko k).cfg, dirty := false }))) ∧
    ((a.cko k).dirty = false → exec (.ckoApply dt k) s = .next a.flush) ∧
    (let t := a.tp p
     let near := if t.clk = 1 then rateNear mhz t.prate 65 else a.nearBase mhz
     let ck := rateNear mhz a.tm.rate 60
     let start := (t.frames.head?.map (·.1)).getD (a.clk - 1000000000000 / max 1 mhz)
     let bad : Tp := { t with good := 0, bad := min 4 (t.bad + 1), mhz := mhz, clkOk := false, ferr := satInc 31 t.ferr }
     (t.role = 0 → t.st ≠ 0 → exec (.tpClockLoss dt p) s =
       .next (State.flush ((a.setTp p { t with good := 0, bad := 0, clkOk := false, mhz := 0 }).tpTo p 1))) ∧
     (t.role = 1 ∨ t.st = 0 → exec (.tpClockLoss dt p) s = .next a.flush) ∧
     (t.st = 0 ∨ t.st = 3 ∨ t.st = 4 → exec (.tpFrame dt p slots valid mhz) s = .next a.flush) ∧
     (t.st = 1 → t.role = 0 →
       (near = true → t.good < 7 → exec (.tpFrame dt p slots true mhz) s =
         .next (State.flush (a.setTp p { t with good := t.good + 1, bad := 0, mhz := mhz, clkOk := ck }))) ∧
       (near = true → 7 ≤ t.good → exec (.tpFrame dt p slots true mhz) s =
         .next (State.flush ((a.setTp p { t with good := 8, bad := 0, mhz := mhz, clkOk := ck }).tpTo p 2))) ∧
       (near = false → exec (.tpFrame dt p slots true mhz) s =
         .next (State.flush (a.setTp p { t with good := 0, bad := 0, mhz := mhz, clkOk := ck }))) ∧
       exec (.tpFrame dt p slots false mhz) s = .next (State.flush (a.setTp p bad))) ∧
     (t.st = 2 → t.role = 0 →
       (near = true → ∃ x : List Int, x = (List.range 16).map (fun i =>
           if bit t.inMask i ∧ i < t.nslot then slotIn t.width (slots.getD i 0) else 0) ∧
         exec (.tpFrame dt p slots true mhz) s = .next (State.flush (tpOutput p (asrcFeed 0 p start x (a.setTp p { t with
           good := min 8 (t.good + 1), bad := 0, mhz := mhz, clkOk := ck, frames := (a.clk, x) :: t.frames.take 3 }))))) ∧
       (near = false → exec (.tpFrame dt p slots true mhz) s =
         .next (State.flush ((a.setTp p { t with good := 0, bad := 0, mhz := mhz, clkOk := ck }).tpTo p 1))) ∧
       (3 ≤ t.bad → exec (.tpFrame dt p slots false mhz) s = .next (State.flush ((a.setTp p bad).tpTo p 1))) ∧
       (t.bad < 3 → exec (.tpFrame dt p slots false mhz) s = .next (State.flush (tpOutput p (asrcFeed 0 p start (List.replicate 16 0)
         (a.setTp p { bad with frames := (a.clk, List.replicate 16 0) :: t.frames.take 3 })))))) ∧
     (∀ (d u e : Nat) (smp : List Int), t.st = 2 → t.role = 0 → t.clk = 0 → t.inAge = some d → t.used = some u →
       t.frames.find? (fun f => decide (f.1 + d ≤ a.clk)) = some (e, smp) →
       let twice := decide (u = e)
       let lost := t.frames.any fun f => decide (u < f.1) && decide (f.1 < e)
       ((tpLatch p a).tp p).inNow = smp ∧
       ((tpLatch p a).tp p).slip = (if twice || lost then satInc 31 t.slip else t.slip) ∧
       (twice = false → lost = false → ((tpLatch p a).tp p).used = some e ∧ ((tpLatch p a).tp p).inLag = a.clk - e + a.frameNs))) ∧
    ((a.asr ch).st = 1 → 0x400000 ≤ ratio → ratio ≤ 0x4000000 → exec (.asrcLock dt ch ratio) s =
      .next (State.flush ((a.setAsr ch { a.asr ch with ratio := ratio }).asrTo ch 2))) ∧
    ((a.asr ch).st ≠ 1 ∨ ratio < 0x400000 ∨ 0x4000000 < ratio → exec (.asrcLock dt ch ratio) s = .next a.flush) ∧
    ((a.asr ch).st ≠ 0 → exec (.asrcUnlock dt ch ratio) s =
      .next (State.flush (a.asrTo ch (if 0x400000 ≤ ratio ∧ ratio ≤ 0x4000000 then 1 else 3)))) ∧
    ((a.asr ch).st = 0 → exec (.asrcUnlock dt ch ratio) s = .next a.flush) ∧
    (a.rateChg = none → exec (.rateChangeApply dt) s = .next a.flush) ∧
    (∀ c, a.rateChg = some c → c.applied = true ∨ c.stored = true ∨ a.clk < c.at0 + 1000000 ∨ (a.pll (famOf c.rate)).lstate ≠ 2 →
      exec (.rateChangeApply dt) s = .next a.flush) ∧
    (∀ c, a.rateChg = some c → c.applied = false → c.stored = false → a.framing = true → c.at0 + 1000000 ≤ a.clk →
      (a.pll (famOf c.rate)).lstate = 2 → ∃ t : State, exec (.rateChangeApply dt) s = .next t.flush ∧
        t.rateChg = some { c with applied := true } ∧
        t.tm = { a.tm with rate := c.rate, tick := tickLen c.rate - 1, mediaSet := false } ∧ t.readers = [] ∧
        (∀ n, (t.rxs n).buf = [] ∧ (t.rxs n).fly = []) ∧
        (∀ n x, (n, x) ∈ a.ains → (a.ain n).powered = true → (t.ain n).resetFr = a.tm.frame + 1 ∧ (t.ain n).settling = true) ∧
        (∀ g ∈ a.allGrp, (a.grp g).st ≠ 0 →
          (t.grp g).rateMute = some (a.tm.frame + 1 + dacDelay (a.grp g).resp) ∧ (t.grp g).st = (a.grp g).st)) ∧
    (∀ (c : RateChg) (id : Nat), a.rateChg = some c → c.applied = true → c.jobs = [id] →
      let b := ({ a with rateChg := none } : State).raise 0x904 (le 4 a.tm.rate ++ le 4 a.frame32)
      rateLands a = (b.finishOk id (pllRec b b.serving) b.nowNs).bump)

/-! ### Listen and the Gauge -/

/-- Listening: each sample period stores both channels past F7, whose last 28 sample periods of modulator samples are kept, zero where a
channel is off, settles or Privet holds, and moves the index on; the clock follows its rule; a candidate whose score has stayed low
for 200 ms is dropped; a block that is not full, a hop that is not due, and the rows of waits and commits where there are none
change nothing; a hop takes its samples from the history; a wait whose samples have come is served; a commit that fails empties the
model, one that passes loads it (R442, R443, R446, R449 to R451, R469, R472).
Each row stands for a moment that the sender gives when it is due (log 3, DESIGN CHOICE). -/
def Obligations.ListenStoresAndJudges : Prop :=
  ∀ (dt : Nat) (m0 m1 : List Int) (s a : State), s.advance dt = a → m0.length = 64 → m1.length = 64 →
    (∀ x ∈ m0 ++ m1, -8388608 ≤ x ∧ x ≤ 8388607) →
    (a.listenRuns = false → exec (.listenSample dt m0 m1) s = .next a.flush ∧ exec (.listenClockSwitch dt) s = .next a.flush) ∧
    (a.listenRuns = true →
      (∃ t : State, exec (.listenSample dt m0 m1) s = .next t.flush ∧ t.ls.idx = a.ls.idx + 1 ∧
        t.ls.mod0 = (if a.chEn 0 && !a.priv then m0.reverse ++ a.ls.mod0.take 1728 else []) ∧
        t.ls.mod1 = (if a.chEn 1 && !a.priv then m1.reverse ++ a.ls.mod1.take 1728 else []) ∧
        t.fk = mwrites a.fk (histAt a.ls.idx 0)
          (le 3 (uns 24 (if a.chEn 0 && !a.priv && decide (a.ls.settle0 = 0) then clampI (-8388608) 8388607 (Config.f7Out t.ls.mod0) else 0)) ++
           le 3 (uns 24 (if a.chEn 1 && !a.priv && decide (a.ls.settle1 = 0) then clampI (-8388608) 8388607 (Config.f7Out t.ls.mod1) else 0))) ∧
        t.mem = a.mem ∧ t.queues = a.queues ∧ t.flight = a.flight ∧ t.ls.cand = a.ls.cand ∧ t.ls.score = a.ls.score) ∧
      exec (.listenClockSwitch dt) s = .next (State.flush { a with ls := { a.ls with clkSrc := a.listenSrc } })) ∧
    (a.pwr.deferral = none →
      (∀ t : Nat, a.ls.candLow = some t → exec (.candidateTimeout dt) s = .next (State.flush
        (if a.ls.cand ∧ t + 200000000 ≤ a.clk then { a with ls := { a.ls with cand := false, candLow := none, drop := satInc 31 a.ls.drop } }
         else a))) ∧
      (a.listenRuns = false → exec (.vadBlock dt) s = .next a.flush) ∧
      (a.listenRuns = true → exec (.vadBlock dt) s = .next (State.flush (candFollow (vadOne 1 (vadOne 0 a))))) ∧
      (∀ n : Nat, (a.ls.vad n).cnt < 160 → vadOne n a = a) ∧
      (a.ls.hopCnt < max 1 a.ls.hop → exec (.phraseHop dt) s = .next a.flush) ∧
      (a.listenRuns = true → a.phRuns = true → max 1 a.ls.hop ≤ a.ls.hopCnt →
        let x := (List.range a.ls.hop).map fun k => a.hist (a.ls.idx - a.ls.hopCnt + k) (b2n (bit a.ls.pfl 1))
        let ph := Config.phraseState a.ls.modelId a.ls.phSt x
        let sc := Config.phraseScore a.ls.modelId ph % 65536
        sc < a.ls.candThr → sc < a.ls.detThr → exec (.phraseHop dt) s = .next (State.flush { a with
          ls := { a.ls with hopCnt := a.ls.hopCnt - max 1 a.ls.hop, phSt := ph, score := sc,
                            candLow := if a.ls.cand then some (a.ls.candLow.getD a.clk) else none } }))) ∧
    (a.ls.waits = [] → exec (.historyWaitDone dt) s = .next a.flush) ∧
    (∀ (w : Nat × Nat) (f : Flight), a.ls.waits = [w] → a.flightOf w.1 = some f → w.2 + f.pkt.u16 18 ≤ a.ls.idx →
      exec (.historyWaitDone dt) s = .next (State.flush (historyDone w.1 f.pkt w.2 a.nowNs { a with ls := { a.ls with waits := [] } }))) ∧
    (a.ls.commitJob = none → a.pwr.deferral = none → exec (.modelCommitDone dt) s = .next a.flush) ∧
    (∀ id, a.ls.commitJob = some id → (modelFault a.ls).1 ≠ 0 →
      let u := modelEmpty 0 0 { a with ls := { a.ls with mcrc := (modelFault a.ls).2 } }
      exec (.modelCommitDone dt) s =
        .next (State.flush (deferCheck (u.finishErr id { status := stBadParam, aux := (modelFault a.ls).1 } u.nowNs)))) ∧
    (∀ id, a.ls.commitJob = some id → (modelFault a.ls).1 = 0 →
      let u : State := { a with ls := { a.ls with commitJob := none, mstate := 2, mcrc := (modelFault a.ls).2,
                                                  modelId := fieldLe a.ls.mdata 28 4, hop := fieldLe a.ls.mdata 20 4 } }
      let b := if u.phRuns then phRestart u else u
      exec (.modelCommitDone dt) s = .next (State.flush (deferCheck (b.finishOk id (modelRec b) b.nowNs))))

/-- The Gauge: a pass that falls due while the converter is free begins at entry 0, while one runs it is held, and while one is held it
counts; none begins before the first frame; an urgent conversion takes a free converter, on GB after what the jack unit asked for before
it; a conversion or a calibration step that is under way ends no sooner than its time, an urgent one with its code and the time it
waited; a code is the raw code of what was measured, or full scale with OVR where that is beyond the range (R476, R480 to R483, R487,
R492, R504).
The operand of a conversion is the measured quantity (log 100, DESIGN CHOICE).
Each row stands for a moment that the sender gives when it is due (log 3, DESIGN CHOICE). -/
def Obligations.GaugePassesAndConversions : Prop :=
  ∀ (dt c : Nat) (raw : Int) (ovr : Bool) (s a : State), s.advance dt = a → c < 2 →
    (let g := a.gg c
     ((a.framing && g.running) = false ∨ a.eng.first = true → exec (.gaugePassDue dt c) s = .next a.flush) ∧
     (a.framing = true → a.eng.first = false → g.running = true → g.mode = 3 → 0 < g.trigPend → exec (.gaugePassDue dt c) s =
       .next (State.flush (gaugeFalls c (a.setGg c { g with trigPend := g.trigPend - 1 })))) ∧
     (a.framing = true → a.eng.first = false → g.running = true → g.mode = 2 → 0 ≤ nsDiff a.nowNs g.grid →
       exec (.gaugePassDue dt c) s =
         .next (State.flush (gaugeFalls c (a.setGg c { g with grid := (g.grid + g.period * 1000) % 2 ^ 64 })))) ∧
     (g.inPass = true → g.held = false → gaugeFalls c a = a.setGg c { g with held := true }) ∧
     (g.inPass = true → g.held = true → gaugeFalls c a = a.setGg c { g with overrun := satInc 31 g.overrun }) ∧
     (g.inPass = false → g.calHolds = false → gaugeFalls c a = gaugeResume c (a.setGg c { g with
       inPass := true, passAt := a.clk, nextEnt := 0, cur := none, held := false })) ∧
     (∀ (u : GUrg) (r : List GUrg), g.urg = u :: r → u.started = none → a.framing = true → a.gaugeFree c = true →
       (c = 0 ∨ (a.gbJack = false ∧ a.jackBy (min a.clk u.at0) = false)) →
       exec (.urgentConversionStart dt c) s = .next (State.flush (a.setGg c { g with
         cur := none, nextEnt := (g.cur.map (·.ent)).getD g.nextEnt, urg := { u with started := some a.clk } :: r }))) ∧
     (∀ (u : GUrg) (r : List GUrg) (st : Nat), g.urg = u :: r → u.cal = none → u.started = some st →
       exec (.gaugeConversionEnd dt c raw ovr) s = .next (State.flush (if st + u.settle * 1000 + ctimeNs u.ctime ≤ a.clk
         then gaugeUrgEnd c u st raw ovr a else a))) ∧
     (g.urg = [] → g.cur = none → exec (.gaugeConversionEnd dt c raw ovr) s = .next a.flush) ∧
     (∀ (v : GConv) (e : GEntry), g.urg = [] → g.cur = some v → g.seq[v.ent]? = some e → c = 0 ∨ a.gbJack = false →
       v.at0 + e.settle * 1000 + ctimeNs e.ctime ≤ a.clk →
       exec (.gaugeConversionEnd dt c raw ovr) s = .next (State.flush (gaugeEntryEnd c v e raw ovr a))) ∧
     (∀ (u : GUrg) (r : List GUrg) (j : GCalJob) (st : Nat), g.urg = u :: r → u.cal = some j → u.started = some st → j.navg = 1 →
       c = 0 ∨ a.gbJack = false → st + 100000 + u.extra + ctimeNs u.ctime ≤ a.clk →
       exec (.gaugeCalStepDone dt c [raw] none) s = .next (State.flush (calRelease c u.id
         (calResult u j c [raw] (if gOver u.input u.gain raw false then some 0 else none) a)))) ∧
     (∀ (u : GUrg) (r : List GUrg) (j : GCalJob) (st : Nat), g.urg = u :: r → u.cal = some j → u.started = some st → j.navg = 1 →
       a.clk < st + 100000 + u.extra + ctimeNs u.ctime → exec (.gaugeCalStepDone dt c [raw] none) s = .next a.flush)) ∧
    (∀ input gain : Nat, gOver input gain raw ovr = true →
      a.gaugeCode c input gain true raw ovr = (if raw < 0 then -8388608 else 8388607, true)) ∧
    (∀ input gain : Nat, gOver input gain raw ovr = false → (a.gaugeCode c input gain true raw ovr) = (gRaw input gain raw, false))

/-! ### Every opcode and row completes -/

/-- The commands of the system, Listen, Gauge and port groups complete: a packet that is not scheduled meets a free interpreter, passes
its checks, and takes its opcode's effect as it arrives, where the opcode is not tied to a frame, or the part listens, or the frame
at hand, whose work has not begun, takes it; a ROUTE_GET waits for the frame's work (R46, R62, R67, R180, R183, R185).
That the packet starts in the row that brings it, and that in Listen a command tied to a frame acts at once, are the model's choices
(logs 6 and 9, DESIGN CHOICE); that a command that starts before the work of a frame joins that frame is its reading (log 127, DEDUCED). -/
def Obligations.SystemPortListenAndGaugeCommandsComplete : Prop :=
  ∀ (dt : Nat) (c : Cmd) (s a : State), s.advance dt = a →
    (a.takes 0x0001 c = true → exec (.nop dt c) s = .next (a.effect 0x0001 c nopApply)) ∧
    (a.takes 0x0002 c = true → exec (.caps dt c) s = .next (a.effect 0x0002 c capsApply)) ∧
    (a.takes 0x0003 c = true → exec (.abort dt c) s = .next (a.effect 0x0003 c abortApply)) ∧
    (a.takes 0x0004 c = true → exec (.resetUnit dt c) s = .next (a.effect 0x0004 c resetUnitApply)) ∧
    (a.takes 0x0005 c = true → exec (.powerState dt c) s = .next (a.effect 0x0005 c powerStateApply)) ∧
    (a.takes 0x0006 c = true → exec (.eventMask dt c) s = .next (a.effect 0x0006 c eventMaskApply)) ∧
    (a.takes 0x0007 c = true → exec (.queueConfig dt c) s = .next (a.effect 0x0007 c queueConfigApply)) ∧
    (a.takes 0x0008 c = true → exec (.timeRead dt c) s = .next (a.effect 0x0008 c timeReadApply)) ∧
    (a.takes 0x0B01 c = true → exec (.listenCfg dt c) s = .next (a.effect 0x0B01 c (fun id p t s => deferCheck (listenCfgApply id p t s)))) ∧
    (a.takes 0x0B02 c = true → exec (.modelLoad dt c) s = .next (a.effect 0x0B02 c (fun id p t s => deferCheck (modelLoadApply id p t s)))) ∧
    (a.takes 0x0B03 c = true → exec (.historyRead dt c) s = .next (a.effect 0x0B03 c historyReadApply)) ∧
    (a.takes 0x0C01 c = true → exec (.gaugeSeq dt c) s = .next (a.effect 0x0C01 c gaugeSeqApply)) ∧
    (a.takes 0x0C02 c = true → exec (.gaugeWindow dt c) s = .next (a.effect 0x0C02 c gaugeWindowApply)) ∧
    (a.takes 0x0C03 c = true → exec (.gaugeCal dt c) s = .next (a.effect 0x0C03 c gaugeCalApply)) ∧
    (a.takes 0x0C04 c = true → exec (.gaugeUrgent dt c) s = .next (a.effect 0x0C04 c gaugeUrgentApply)) ∧
    (a.takes 0x0C05 c = true → exec (.gaugePlaus dt c) s = .next (a.effect 0x0C05 c gaugePlausApply)) ∧
    (a.takes 0x0D01 c = true → exec (.tw1Xfer dt c) s = .next (a.effect 0x0D01 c tw1XferApply)) ∧
    (a.takes 0x0D02 c = true → exec (.portCfg dt c) s = .next (a.effect 0x0D02 c portCfgApply))

/-- The commands of routes, the mix, meters, analogue inputs and outputs, and Firkin complete: a packet that is not scheduled meets a
free interpreter, passes its checks, and takes its opcode's effect as it arrives, where the opcode is not tied to a frame, or the
part listens, or the frame at hand, whose work has not begun, takes it; a ROUTE_GET waits for the frame's work (R46, R62, R67, R180,
R183, R185).
That the packet starts in the row that brings it, and that in Listen a command tied to a frame acts at once, are the model's choices
(logs 6 and 9, DESIGN CHOICE); that a command that starts before the work of a frame joins that frame is its reading (log 127, DEDUCED). -/
def Obligations.AudioPathCommandsComplete : Prop :=
  ∀ (dt : Nat) (c : Cmd) (s a : State), s.advance dt = a →
    (a.takes 0x0101 c = true → exec (.routeSet dt c) s = .next (a.effect 0x0101 c routeSetApply)) ∧
    (a.takes 0x0102 c = true → exec (.routeGet dt c) s = .next (a.effect 0x0102 c routeGetApply)) ∧
    (a.takes 0x0103 c = true → exec (.routeFadeCfg dt c) s = .next (a.effect 0x0103 c routeFadeCfgApply)) ∧
    (a.takes 0x0201 c = true → exec (.mixStage dt c) s = .next (a.effect 0x0201 c mixStageApply)) ∧
    (a.takes 0x0202 c = true → exec (.mixCommit dt c) s = .next (a.effect 0x0202 c mixCommitApply)) ∧
    (a.takes 0x0203 c = true → exec (.busCfg dt c) s = .next (a.effect 0x0203 c busCfgApply)) ∧
    (a.takes 0x0204 c = true → exec (.limiterCfg dt c) s = .next (a.effect 0x0204 c limiterCfgApply)) ∧
    (a.takes 0x0301 c = true → exec (.meterCfg dt c) s = .next (a.effect 0x0301 c meterCfgApply)) ∧
    (a.takes 0x0302 c = true → exec (.meterRead dt c) s = .next (a.effect 0x0302 c meterReadApply)) ∧
    (a.takes 0x0303 c = true → exec (.meterReset dt c) s = .next (a.effect 0x0303 c meterResetApply)) ∧
    (a.takes 0x0401 c = true → exec (.ainCfg dt c) s = .next (a.effect 0x0401 c ainCfgApply)) ∧
    (a.takes 0x0402 c = true → exec (.ainPad dt c) s = .next (a.effect 0x0402 c ainPadApply)) ∧
    (a.takes 0x0403 c = true → exec (.mergeStatus dt c) s = .next (a.effect 0x0403 c mergeStatusApply)) ∧
    (a.takes 0x0404 c = true → exec (.chainCfg dt c) s = .next (a.effect 0x0404 c chainCfgApply)) ∧
    (a.takes 0x0405 c = true → exec (.chainSync dt c) s = .next (a.effect 0x0405 c chainSyncApply)) ∧
    (a.takes 0x0501 c = true → exec (.outCfg dt c) s = .next (a.effect 0x0501 c outCfgApply)) ∧
    (a.takes 0x0502 c = true → exec (.jackCfg dt c) s = .next (a.effect 0x0502 c jackCfgApply)) ∧
    (a.takes 0x0601 c = true → exec (.firkinAlloc dt c) s = .next (a.effect 0x0601 c firkinAllocApply)) ∧
    (a.takes 0x0602 c = true → exec (.firkinFree dt c) s = .next (a.effect 0x0602 c firkinFreeApply)) ∧
    (a.takes 0x0603 c = true → exec (.delayCfg dt c) s = .next (a.effect 0x0603 c delayCfgApply)) ∧
    (a.takes 0x0604 c = true → exec (.firkinRead dt c) s = .next (a.effect 0x0604 c (fun id p t s => firkinMoveApply false id p t s.landed))) ∧
    (a.takes 0x0605 c = true → exec (.firkinWrite dt c) s = .next (a.effect 0x0605 c (firkinMoveApply true)))

/-- The commands of the network, time, clock and serial groups complete: a packet that is not scheduled meets a free interpreter, passes
its checks, and takes its opcode's effect as it arrives, where the opcode is not tied to a frame, or the part listens, or the frame
at hand, whose work has not begun, takes it; a ROUTE_GET waits for the frame's work (R46, R62, R67, R180, R183, R185).
That the packet starts in the row that brings it, and that in Listen a command tied to a frame acts at once, are the model's choices
(logs 6 and 9, DESIGN CHOICE); that a command that starts before the work of a frame joins that frame is its reading (log 127, DEDUCED). -/
def Obligations.NetworkTimeAndClockCommandsComplete : Prop :=
  ∀ (dt : Nat) (c : Cmd) (s a : State), s.advance dt = a →
    (a.takes 0x0701 c = true → exec (.netPortCfg dt c) s = .next (a.effect 0x0701 c netPortCfgApply)) ∧
    (a.takes 0x0702 c = true → exec (.txstreamCfg dt c) s = .next (a.effect 0x0702 c txCfgApply)) ∧
    (a.takes 0x0703 c = true → exec (.rxstreamCfg dt c) s = .next (a.effect 0x0703 c rxCfgApply)) ∧
    (a.takes 0x0704 c = true → exec (.hostFrameSend dt c) s = .next (a.effect 0x0704 c hostSendApply)) ∧
    (a.takes 0x0801 c = true → exec (.ptpCfg dt c) s = .next (a.effect 0x0801 c ptpCfgApply)) ∧
    (a.takes 0x0802 c = true → exec (.ttSelect dt c) s = .next (a.effect 0x0802 c ttSelectApply)) ∧
    (a.takes 0x0803 c = true → exec (.timePolicy dt c) s = .next (a.effect 0x0803 c timePolicyApply)) ∧
    (a.takes 0x0901 c = true → exec (.pllCfg dt c) s = .next (a.effect 0x0901 c pllCfgApply)) ∧
    (a.takes 0x0902 c = true → exec (.rampLoad dt c) s = .next (a.effect 0x0902 c rampLoadApply)) ∧
    (a.takes 0x0903 c = true → exec (.ckoCfg dt c) s = .next (a.effect 0x0903 c ckoCfgApply)) ∧
    (a.takes 0x0A01 c = true → exec (.tdmCfg dt c) s = .next (a.effect 0x0A01 c tdmCfgApply)) ∧
    (a.takes 0x0A02 c = true → exec (.asrcCfg dt c) s = .next (a.effect 0x0A02 c asrcCfgApply))

/-- Rows of pins, ports and timers complete: HOST_SLOT_RELEASE clears the slot's flag where READY; a byte sequence written to TW0 at its
own address while it answers sets the pointer with its first two bytes and stores the rest, a read returns its bytes, and a STOP takes
the packets that are whole; a wake cause, and a held one, boots a part that sleeps and whose PWR_EN has been low for 10 ms;
CQ_RECORD_WRITE hands on the first record that waits where it fits; RESET_UNIT_DONE completes a reset that can end; ENGINE_WORK_START does the pending frame's work
after the steps counted in frames, where no command waits for that frame (R19, R87, R332, R520, R523, R531, R560).
Each row stands for a moment that the sender gives when it is due (log 3, DESIGN CHOICE). -/
def Obligations.TimerAndPinRowsComplete : Prop :=
  ∀ (dt q slot n : Nat) (bs : List Byte) (x h l : Byte) (stop : Bool) (s a : State), s.advance dt = a → q < 32 → slot < 64 →
    (a.pwr.ready = true → slot < a.nSlots → exec (.hostSlotRelease dt slot) s =
      .next (State.flush { a with mem := mwrite a.mem (a.slotBase slot + 3) 0#8 })) ∧
    (a.tw0On = true → x.toNat = 2 * (0x3C + a.pwr.straps.addr) →
      let p : State := { a with tw0 := { a.tw0 with ptr := h.toNat * 256 + l.toNat } }
      let t : State := match bs with
        | [] => p
        | b :: r => r.foldl (fun x y => x.twByte false y) (p.twByte true b)
      exec (.tw0Write dt (x :: h :: l :: bs) stop) s = .next (State.flush (if stop then twStop t else t))) ∧
    (a.tw0On = true → x.toNat = 2 * (0x3C + a.pwr.straps.addr) + 1 →
      exec (.tw0Read dt ⟨x, n, true⟩) s = .next (State.flush (twStop (twReads n { a with tw0 := { a.tw0 with out := [] } })))) ∧
    (a.asleep = true → a.discharged = true →
      exec (.wakeN dt) s = .next (State.flush (tryBoot (a.resetPart 6 false true))) ∧
      (bit a.pc.tw0Fl 0 = true → exec (.tw0WakeMatch dt) s = .next (State.flush { tryBoot (a.resetPart 7 false true) with
        tw0 := { (tryBoot (a.resetPart 7 false true)).tw0 with stretch := !bit a.pc.tw0Fl 1, nackUntilRun := bit a.pc.tw0Fl 1 } })) ∧
      (∀ c : Nat, a.pwr.heldWake = some c → exec (.heldWake dt) s = .next (State.flush { tryBoot (a.resetPart c false true) with
        tw0 := { (tryBoot (a.resetPart c false true)).tw0 with nackUntilRun := a.tw0.nackUntilRun } }))) ∧
    (∀ (r : Rec) (rest : List Rec), (a.queue q).waitRecs = r :: rest → (a.queue q).port ≠ 2 → a.recFits q r = true →
      exec (.cqRecordWrite dt q) s = .next (State.flush ((a.setQueue q { a.queue q with waitRecs := rest }).putRec q r))) ∧
    (∀ (r : RstUnit) (rest : List RstUnit), a.rsts = r :: rest → a.rstReady r = true →
      exec (.resetUnitDone dt) s = .next (State.flush (({ a with rsts := rest } : State).finishOk r.id [] a.nowNs))) ∧
    (∀ (fr : Nat) (inp : InputSet), a.eng.pendSet = some (fr, inp) → a.eng.applyQ = [] → a.stepDue = false →
      exec (.engineWorkStart dt) s = .next (State.flush (frameWork fr a.eng.pendB inp
        (mixJobsDone none (frameSteps fr a.eng.pendB { a with eng := { a.eng with working := none } })))))
end

