-- ==== Sys2Proof/Laws/Tab.lean ====
section
/-! SUPPORT. Tables and sparse memory: a read after a write, and the canonical form kept by every memory operation. -/
namespace Sys2Proof.Machine
open Sys2Proof

@[simp] theorem tget_tset_same {α : Type} (d : α) (k : Nat) (v : α) (t : Tab α) : tget d (tset k v t) k = v := by
  induction t with
  | nil => simp [tset, tget]
  | cons e t ih =>
    obtain ⟨a, w⟩ := e
    simp only [tset]
    split
    · simp [tget]
    · split
      · simp [tget]
      · simp [tget, *]

theorem tget_tset_other {α : Type} (d : α) (k j : Nat) (v : α) (t : Tab α) (h : j ≠ k) :
    tget d (tset k v t) j = tget d t j := by
  induction t with
  | nil => simp [tset, tget, Ne.symm h]
  | cons e t ih =>
    obtain ⟨a, w⟩ := e
    simp only [tset]
    split
    · simp [tget, Ne.symm h]
    · split
      · next h2 => subst h2; simp [tget, Ne.symm h]
      · simp [tget, ih]

/-- Every listed number is at least lo. -/
theorem risingFrom_mono {α : Type} (t : Tab α) : ∀ lo hi, lo ≤ hi → risingFrom hi t = true → risingFrom lo t = true := by
  intro lo hi hle h
  cases t with
  | nil => rfl
  | cons e t =>
    obtain ⟨a, v⟩ := e
    simp only [risingFrom, Bool.and_eq_true, decide_eq_true_eq] at h ⊢
    exact ⟨by omega, h.2⟩

theorem tget_below {α : Type} (d : α) (t : Tab α) : ∀ lo k, risingFrom lo t = true → k < lo → tget d t k = d := by
  induction t with
  | nil => intros; rfl
  | cons e t ih =>
    obtain ⟨a, v⟩ := e
    intro lo k h hk
    simp only [risingFrom, Bool.and_eq_true, decide_eq_true_eq] at h
    have : a ≠ k := by omega
    simp [tget, this, ih (a + 1) k h.2 (by omega)]

theorem risingFrom_tset {α : Type} (k : Nat) (v : α) (t : Tab α) :
    ∀ lo, lo ≤ k → risingFrom lo t = true → risingFrom lo (tset k v t) = true := by
  induction t with
  | nil => intro lo hk _; simp [tset, risingFrom, hk]
  | cons e t ih =>
    obtain ⟨a, w⟩ := e
    intro lo hk h
    simp only [risingFrom, Bool.and_eq_true, decide_eq_true_eq] at h
    simp only [tset]
    split
    · simp only [risingFrom, Bool.and_eq_true, decide_eq_true_eq]; exact ⟨hk, by omega, h.2⟩
    · split
      · next h2 => subst h2; simp only [risingFrom, Bool.and_eq_true, decide_eq_true_eq]; exact ⟨hk, h.2⟩
      · simp only [risingFrom, Bool.and_eq_true, decide_eq_true_eq]
        exact ⟨h.1, ih (a + 1) (by omega) h.2⟩

theorem risingFrom_tdel {α : Type} (k : Nat) (t : Tab α) :
    ∀ lo, risingFrom lo t = true → risingFrom lo (tdel k t) = true := by
  induction t with
  | nil => intro lo _; rfl
  | cons e t ih =>
    obtain ⟨a, w⟩ := e
    intro lo h
    simp only [risingFrom, Bool.and_eq_true, decide_eq_true_eq] at h
    simp only [tdel]
    split
    · exact risingFrom_mono t _ _ (by omega) h.2
    · simp only [risingFrom, Bool.and_eq_true, decide_eq_true_eq]; exact ⟨h.1, ih _ h.2⟩

theorem tget_tdel_same {α : Type} (d : α) (k : Nat) (t : Tab α) :
    ∀ lo, risingFrom lo t = true → tget d (tdel k t) k = d := by
  induction t with
  | nil => intros; rfl
  | cons e t ih =>
    obtain ⟨a, w⟩ := e
    intro lo h
    simp only [risingFrom, Bool.and_eq_true, decide_eq_true_eq] at h
    simp only [tdel]
    split
    · next h2 => subst h2; exact tget_below d t _ _ h.2 (by omega)
    · next h2 => simp [tget, h2, ih _ h.2]

theorem tget_tdel_other {α : Type} (d : α) (k j : Nat) (t : Tab α) (h : j ≠ k) : tget d (tdel k t) j = tget d t j := by
  induction t with
  | nil => rfl
  | cons e t ih =>
    obtain ⟨a, w⟩ := e
    simp only [tdel]
    split
    · next h2 => subst h2; simp [tget, Ne.symm h]
    · simp [tget, ih]

theorem all_tset {α : Type} (p : Nat × α → Bool) (k : Nat) (v : α) (t : Tab α) (hv : p (k, v) = true)
    (h : t.all p = true) : (tset k v t).all p = true := by
  induction t with
  | nil => simp [tset, hv]
  | cons e t ih =>
    obtain ⟨a, w⟩ := e
    simp only [List.all_cons, Bool.and_eq_true] at h
    simp only [tset]
    split
    · simp [hv, h.1, h.2]
    · split
      · simp [hv, h.2]
      · simp [h.1, ih h.2]

theorem all_tdel {α : Type} (p : Nat × α → Bool) (k : Nat) (t : Tab α) (h : t.all p = true) : (tdel k t).all p = true := by
  induction t with
  | nil => rfl
  | cons e t ih =>
    obtain ⟨a, w⟩ := e
    simp only [List.all_cons, Bool.and_eq_true] at h
    simp only [tdel]
    split
    · exact h.2
    · simp [h.1, ih h.2]

theorem memWf_nil : memWf [] = true := rfl

/-- A store of one byte keeps the canonical form. -/
theorem memWf_mwrite (m : Mem) (a : Nat) (b : Byte) (h : memWf m = true) : memWf (mwrite m a b) = true := by
  simp only [memWf, Bool.and_eq_true] at h ⊢
  unfold mwrite
  split
  · exact ⟨risingFrom_tdel a m 0 h.1, all_tdel _ a m h.2⟩
  · next hb => exact ⟨risingFrom_tset a b m 0 (Nat.zero_le _) h.1, all_tset _ a b m (by simp [hb]) h.2⟩

theorem memWf_mwrites (bs : List Byte) : ∀ (m : Mem) (a : Nat), memWf m = true → memWf (mwrites m a bs) = true := by
  induction bs with
  | nil => intro m a h; exact h
  | cons b bs ih => intro m a h; exact ih _ _ (memWf_mwrite m a b h)

theorem risingFrom_filter {α : Type} (p : Nat × α → Bool) (t : Tab α) :
    ∀ lo, risingFrom lo t = true → risingFrom lo (t.filter p) = true := by
  induction t with
  | nil => intros; rfl
  | cons e t ih =>
    obtain ⟨a, w⟩ := e
    intro lo h
    simp only [risingFrom, Bool.and_eq_true, decide_eq_true_eq] at h
    rw [List.filter_cons]
    split
    · simp only [risingFrom, Bool.and_eq_true, decide_eq_true_eq]; exact ⟨h.1, ih _ h.2⟩
    · exact risingFrom_mono _ _ _ (by omega) (ih _ h.2)

theorem memWf_mclear (m : Mem) (lo hi : Nat) (h : memWf m = true) : memWf (mclear m lo hi) = true := by
  simp only [memWf, mclear, Bool.and_eq_true] at h ⊢
  refine ⟨risingFrom_filter _ m 0 h.1, ?_⟩
  simp only [List.all_eq_true, List.mem_filter] at h ⊢
  intro x hx
  exact h.2 x hx.1

/-- A byte just stored reads back. -/
theorem mread_mwrite_same (m : Mem) (a : Nat) (b : Byte) (h : memWf m = true) : mread (mwrite m a b) a = b := by
  simp only [memWf, Bool.and_eq_true] at h
  unfold mread mwrite
  split
  · next hb => rw [tget_tdel_same 0#8 a m 0 h.1, hb]
  · exact tget_tset_same _ _ _ _

/-- Every other byte reads as before. -/
theorem mread_mwrite_other (m : Mem) (a j : Nat) (b : Byte) (hj : j ≠ a) : mread (mwrite m a b) j = mread m j := by
  unfold mread mwrite
  split
  · exact tget_tdel_other _ _ _ _ hj
  · exact tget_tset_other _ _ _ _ _ hj

theorem mread_mwrites_other (bs : List Byte) :
    ∀ (m : Mem) (a j : Nat), (j < a ∨ a + bs.length ≤ j) → mread (mwrites m a bs) j = mread m j := by
  induction bs with
  | nil => intros; rfl
  | cons b bs ih =>
    intro m a j h
    simp only [List.length_cons] at h
    show mread (mwrites (mwrite m a b) (a + 1) bs) j = _
    rw [ih _ _ _ (by omega), mread_mwrite_other _ _ _ _ (by omega)]


end Sys2Proof.Machine
end

