-- ==== Sys2Proof/Laws/Packet.lean ====
section
/-! SUPPORT. How a packet that meets a free interpreter starts, and how the one command in flight is answered. -/
namespace Sys2Proof.Machine
open Sys2Proof

@[simp] theorem tset_tset {α : Type} (k : Nat) (v w : α) (t : Tab α) : tset k v (tset k w t) = tset k v t := by
  induction t with
  | nil => simp [tset]
  | cons e t ih =>
    obtain ⟨a, u⟩ := e
    simp only [tset]
    split
    · simp [tset]
    · split
      · simp [tset]
      · simp [tset, *]

theorem State.freeFor_spec {s : State} {q : Nat} (h : s.freeFor q = true) :
    s.reaches q = true ∧ s.mayStart = true ∧ (s.queue q).cls ≠ .event ∧ (s.queue q).waitRecs.length < 64 ∧
    s.flight = [] ∧ q < 32 ∧ ∀ k, k < 32 → (s.queue k).unstarted = [] := by
  simp only [State.freeFor, Bool.and_eq_true, decide_eq_true_eq, List.all_eq_true, List.mem_range, List.isEmpty_iff] at h
  obtain ⟨⟨⟨⟨⟨⟨h1, h2⟩, h4⟩, h5⟩, h6⟩, h8⟩, h9⟩ := h
  exact ⟨h1, h2, h4, h5, h6, h8, h9⟩

theorem State.opensTo_free {s : State} {q : Nat} (h : s.opensTo q = true) : s.freeFor q = true := by
  simp only [State.opensTo, Bool.and_eq_true] at h; exact h.1

theorem State.opensTo_spec {s : State} {q : Nat} (h : s.opensTo q = true) :
    s.reaches q = true ∧ s.mayStart = true ∧ (s.queue q).cls ≠ .event ∧ (s.queue q).waitRecs.length < 64 ∧
    s.flight = [] ∧ s.eng.pendSet = none ∧ q < 32 ∧ ∀ k, k < 32 → (s.queue k).unstarted = [] := by
  obtain ⟨h1, h2, h4, h5, h6, h8, h9⟩ := State.freeFor_spec (State.opensTo_free h)
  simp only [State.opensTo, Bool.and_eq_true, Option.isNone_iff_eq_none] at h
  exact ⟨h1, h2, h4, h5, h6, h.2, h8, h9⟩

@[simp] theorem State.queue_setQueue_same (s : State) (q : Nat) (v : Queue) : (s.setQueue q v).queue q = v := by
  simp [State.queue, State.setQueue]

theorem State.queue_setQueue_other (s : State) (q k : Nat) (v : Queue) (h : k ≠ q) : (s.setQueue q v).queue k = s.queue k := by
  simp [State.queue, State.setQueue, tget_tset_other _ _ _ _ _ h]

/-- A list of options with one value at q. -/
theorem filterMap_range_one {α : Type} (f : Nat → Option α) (x : α) (q : Nat) :
    ∀ n, q < n → f q = some x → (∀ k, k < n → k ≠ q → f k = none) → (List.range n).filterMap f = [x] := by
  intro n
  induction n with
  | zero => intro h; omega
  | succ n ih =>
    intro hq hx h
    rw [List.range_succ, List.filterMap_append]
    by_cases hn : q = n
    · subst hn
      have : (List.range q).filterMap f = [] := by
        rw [List.filterMap_eq_nil_iff]
        intro a ha
        have := List.mem_range.mp ha
        exact h a (by omega) (by omega)
      simp [this, hx]
    · have h1 := ih (by omega) hx (fun k hk hne => h k (by omega) hne)
      have h2 := h n (by omega) (fun e => hn e.symm)
      simp [h1, h2]

theorem filterMap_range_none {α : Type} (f : Nat → Option α) (n : Nat) (h : ∀ k, k < n → f k = none) :
    (List.range n).filterMap f = [] := by
  rw [List.filterMap_eq_nil_iff]
  intro a ha
  exact h a (List.mem_range.mp ha)

theorem flatMap_range_one {α : Type} (f : Nat → List α) (x : List α) (q : Nat) :
    ∀ n, q < n → f q = x → (∀ k, k < n → k ≠ q → f k = []) → (List.range n).flatMap f = x := by
  intro n
  induction n with
  | zero => intro h; omega
  | succ n ih =>
    intro hq hx h
    rw [List.range_succ, List.flatMap_append]
    by_cases hn : q = n
    · subst hn
      have : (List.range q).flatMap f = [] := by
        rw [List.flatMap_eq_nil_iff]
        intro a ha
        have := List.mem_range.mp ha
        exact h a (by omega) (by omega)
      simp [this, hx]
    · have h1 := ih (by omega) hx (fun k hk hne => h k (by omega) hne)
      have h2 := h n (by omega) (fun e => hn e.symm)
      simp [h1, h2]

/-- The one packet that waits is the next to be served. -/
theorem State.nextPacket_one {s : State} {p : Packet} (hm : s.mayStart = true) (hq : p.queue < 32)
    (hf : s.flight = []) (hc : (s.queue p.queue).cls ≠ .event)
    (hu : (s.queue p.queue).unstarted = [p]) (ho : ∀ k, k < 32 → k ≠ p.queue → (s.queue k).unstarted = []) :
    s.nextPacket = some p := by
  have hab : s.aborts = if p.opc = 0x0003 then [p] else [] := by
    unfold State.aborts
    refine flatMap_range_one _ _ p.queue 32 hq ?_ ?_
    · rw [hu]; by_cases h3 : p.opc = 3 <;> simp [h3]
    · intro k hk hne; simp [ho k hk hne]
  have hhead : ∀ k, k < 32 → k ≠ p.queue → s.head k = none := by
    intro k hk hne; simp [State.head, ho k hk hne]
  by_cases h3 : p.opc = 3
  · simp [State.nextPacket, hm, hab, h3, earliest]
  · have hp : s.head p.queue = some p := by
      simp [State.head, hu, h3, State.inFlight, hf]
    have hone : s.heads (s.queue p.queue).cls = [p] := by
      unfold State.heads
      refine filterMap_range_one _ p p.queue 32 hq ?_ ?_
      · simp [hp]
      · intro k hk hne; simp [hhead k hk hne]
    have hnone : ∀ cls, cls ≠ (s.queue p.queue).cls → s.heads cls = [] := by
      intro cls hcls
      unfold State.heads
      refine filterMap_range_none _ 32 ?_
      intro k hk
      by_cases hkq : k = p.queue
      · subst hkq; simp [Ne.symm hcls]
      · simp [hhead k hk hkq]
    cases hcl : (s.queue p.queue).cls with
    | event => exact absurd hcl hc
    | urgent =>
      rw [hcl] at hone
      simp [State.nextPacket, hm, hab, h3, earliest, hone, State.places, hf]
    | normal =>
      rw [hcl] at hone hnone
      by_cases hr : s.rr ≤ p.queue
      · simp [State.nextPacket, hm, hab, h3, earliest, hone, State.places, hf, hnone .urgent, hr]
      · simp [State.nextPacket, hm, hab, h3, earliest, hone, State.places, hf, hnone .urgent, hr]
    | bulk =>
      rw [hcl] at hone hnone
      simp [State.nextPacket, hm, hab, h3, earliest, hone, State.places, hf, hnone .urgent, hnone .normal]

theorem serve_eq (p : Packet) (s : State) : serve p s =
    startPacket p (s.queue p.queue).port
      { s with queues := tset p.queue { s.queue p.queue with unstarted := (s.queue p.queue).unstarted.erase p } s.queues,
               rr := if (s.queue p.queue).cls = .normal ∧ p.opc ≠ 0x0003 then (p.queue + 1) % 32 else s.rr } := by
  unfold serve State.setQueue
  by_cases h : (s.queue p.queue).cls = QClass.normal ∧ p.opc ≠ 3
  · simp only [if_pos h]
  · simp only [if_neg h]

/-- A packet that meets a free interpreter starts as it arrives. -/
theorem arrive_opens {s : State} {c : Cmd} (opc : Nat) (h : s.freeFor c.queue = true) :
    arrive opc c s = startPacket (s.packet opc c) (s.queue c.queue).port (s.taken (s.packet opc c)) := by
  obtain ⟨h1, h2, h4, h5, h6, h8, h9⟩ := State.freeFor_spec h
  have hlev : ¬ 64 ≤ s.level c.queue := by
    simp [State.level, h4, h9 _ h8, State.inFlight, State.unrecorded, h6]; omega
  have hu := h9 _ h8
  have henq : ∀ p : Packet, p.queue = c.queue → s.enqueue p =
      { s with queues := tset c.queue { s.queue c.queue with unstarted := [{ p with arrival := s.arr }] } s.queues,
               arr := s.arr + 1 } := by
    intro p hp
    simp [State.enqueue, hp, h4, hlev, hu, State.setQueue]
  unfold arrive
  simp only [h1, Bool.not_true, Bool.false_eq_true, if_false]
  rw [henq _ rfl, State.nextPacket_one (p := s.packet opc c)]
  · simp only [State.packet, Nat.lt_succ_self, and_self, if_true, serve_eq]
    have hq : State.queue { s with
        queues := tset c.queue { s.queue c.queue with unstarted := [s.packet opc c] } s.queues, arr := s.arr + 1 } c.queue =
        { s.queue c.queue with unstarted := [s.packet opc c] } := by simp [State.queue]
    simp only [State.packet] at hq
    rw [hq]
    have he : ({ s.queue c.queue with unstarted := ([] : List Packet) } : Queue) = s.queue c.queue := by rw [← hu]
    simp only [List.erase_cons_head, tset_tset, he, State.taken]
  · exact h2
  · exact h8
  · exact h6
  · simpa [State.packet, State.queue] using h4
  · simp [State.packet, State.queue]
  · intro k hk hne
    have hk9 := h9 k hk
    have hne2 : k ≠ c.queue := hne
    simp only [State.queue] at hk9 ⊢
    rw [tget_tset_other _ _ _ _ _ hne2]
    exact hk9


/-- The one flight of a state in which a packet has started. -/
theorem State.began_flightOf (s : State) (p : Packet) :
    (s.began p).flightOf (s.seq + 1) =
      some { id := s.seq + 1, pkt := p, port := (s.queue p.queue).port, startNs := s.nowNs, startClk := s.clk, phase := .running } := by
  simp [State.flightOf, State.began]

/-- Taking the packet off its queue gives the state in which it has started. -/
theorem State.taken_takeOff {s : State} (p : Packet) (h : s.flight = []) :
    (s.taken p).takeOff p (s.queue p.queue).port .running = s.began p := by
  simp [State.taken, State.takeOff, State.began, h, State.nowNs]

/-- The check of a packet at its start does not depend on the queue it has left. -/
theorem arrive_refused {s : State} {c : Cmd} (opc : Nat) (e : Err) (h : s.freeFor c.queue = true)
    (he : startErr (s.packet opc c) (s.queue c.queue).port (s.taken (s.packet opc c)) = some e) :
    arrive opc c s = (s.began (s.packet opc c)).finishErr (s.seq + 1) e s.nowNs := by
  have hf := (State.freeFor_spec h).2.2.2.2.1
  rw [arrive_opens opc h]
  simp only [startPacket]
  have h2 := State.taken_takeOff (s.packet opc c) hf
  simp only [State.packet] at h2 he ⊢
  rw [h2, he]
  rfl

/-- A packet that passes its checks, and that no frame and no WHEN holds back, takes effect as it arrives. -/
theorem arrive_runs {s : State} {c : Cmd} (opc : Nat) (d : OpDef) (h : s.freeFor c.queue = true) (hd : opDef opc = some d)
    (he : startErr (s.packet opc c) (s.queue c.queue).port (s.taken (s.packet opc c)) = none) :
    arrive opc c s = launch
      { id := s.seq + 1, pkt := s.packet opc c, port := (s.queue c.queue).port, startNs := s.nowNs, startClk := s.clk,
        phase := .running } d (s.began (s.packet opc c)) := by
  have hf := (State.freeFor_spec h).2.2.2.2.1
  rw [arrive_opens opc h]
  simp only [startPacket]
  have h2 := State.taken_takeOff (s.packet opc c) hf
  have h3 := State.began_flightOf s (s.packet opc c)
  simp only [State.packet] at h2 h3 he ⊢
  rw [h2, he]
  have h4 : ∀ p : Packet, (s.began p).seq = s.seq + 1 := fun _ => rfl
  simp only [h4, h3, hd]

end Sys2Proof.Machine
end

