-- ==== Sys2Proof/Laws/Record.lean ====
section
/-! SUPPORT. Completion records: what handing a record on and the end of a command change, and what they leave alone. -/
namespace Sys2Proof.Machine
open Sys2Proof

/-- A record changes its queue and the completion windows only. -/
theorem State.postRec_frame (s : State) (q : Nat) (r : Rec) :
    ∃ (qs : Tab Queue) (m cm : Mem), s.postRec q r = { s with queues := qs, mem := m, tw0 := { s.tw0 with cmem := cm } } := by
  by_cases h : (s.queue q).waitRecs.isEmpty && s.recFits q r
  · by_cases hp : (s.queue q).port = 1
    · exact ⟨_, _, s.tw0.cmem, by simp only [State.postRec, State.putRec, State.setQueue, h, hp, if_true]; rfl⟩
    · exact ⟨_, s.mem, _, by simp only [State.postRec, State.putRec, State.setQueue, h, hp, if_true, if_false]; rfl⟩
  · exact ⟨_, s.mem, s.tw0.cmem, by simp only [State.postRec, State.setQueue, h]; rfl⟩

@[simp] theorem State.postRec_flight (s : State) (q : Nat) (r : Rec) : (s.postRec q r).flight = s.flight := by
  obtain ⟨_, _, _, h⟩ := s.postRec_frame q r; rw [h]
@[simp] theorem State.postRec_eng (s : State) (q : Nat) (r : Rec) : (s.postRec q r).eng = s.eng := by
  obtain ⟨_, _, _, h⟩ := s.postRec_frame q r; rw [h]
@[simp] theorem State.postRec_pwr (s : State) (q : Nat) (r : Rec) : (s.postRec q r).pwr = s.pwr := by
  obtain ⟨_, _, _, h⟩ := s.postRec_frame q r; rw [h]

/-- The record of a completed flight, handed to its queue. -/
def recordOf (s : State) (f : Flight) : State :=
  match flightRec f with
  | some r => s.postRec f.pkt.queue r
  | none => s

theorem settleFlight_eq (s : State) (f : Flight) : settleFlight s f =
    match f.phase with
    | .ended st _ _ =>
      if f.pkt.config then { recordOf s f with pwr := { (recordOf s f).pwr with cfgJob := none, cfgStatus := st } }
      else recordOf s f
    | _ => recordOf s f := rfl

/-- What a completed flight leaves changes records and the status of a configuration section only. -/
theorem settleFlight_frame (s : State) (f : Flight) :
    ∃ (qs : Tab Queue) (m cm : Mem) (j : Option Nat) (st : Nat), settleFlight s f =
      { s with queues := qs, mem := m, tw0 := { s.tw0 with cmem := cm }, pwr := { s.pwr with cfgJob := j, cfgStatus := st } } := by
  have h1 : ∃ (qs : Tab Queue) (m cm : Mem), recordOf s f = { s with queues := qs, mem := m, tw0 := { s.tw0 with cmem := cm } } := by
    unfold recordOf
    cases flightRec f with
    | none => exact ⟨s.queues, s.mem, s.tw0.cmem, rfl⟩
    | some r => exact s.postRec_frame _ _
  obtain ⟨qs, m, cm, h⟩ := h1
  rw [settleFlight_eq, h]
  cases f.phase with
  | ended st d dat =>
    cases f.pkt.config
    · exact ⟨qs, m, cm, s.pwr.cfgJob, s.pwr.cfgStatus, rfl⟩
    · exact ⟨qs, m, cm, none, st, rfl⟩
  | _ => exact ⟨qs, m, cm, s.pwr.cfgJob, s.pwr.cfgStatus, rfl⟩

theorem settleAll_frame (l : List Flight) : ∀ s : State,
    ∃ (qs : Tab Queue) (m cm : Mem) (j : Option Nat) (st : Nat), l.foldl settleFlight s =
      { s with queues := qs, mem := m, tw0 := { s.tw0 with cmem := cm }, pwr := { s.pwr with cfgJob := j, cfgStatus := st } } := by
  induction l with
  | nil => intro s; exact ⟨s.queues, s.mem, s.tw0.cmem, s.pwr.cfgJob, s.pwr.cfgStatus, rfl⟩
  | cons f l ih =>
    intro s
    obtain ⟨qs, m, cm, j, st, h⟩ := settleFlight_frame s f
    obtain ⟨qs2, m2, cm2, j2, st2, h2⟩ := ih (settleFlight s f)
    refine ⟨qs2, m2, cm2, j2, st2, ?_⟩
    rw [List.foldl_cons, h2, h]

/-- The end of a step: records go to their queues, the flights they belong to are gone, nothing else changes. -/
theorem State.flush_frame (s : State) :
    ∃ (qs : Tab Queue) (m cm : Mem) (j : Option Nat) (st : Nat), s.flush =
      { s with queues := qs, mem := m, tw0 := { s.tw0 with cmem := cm }, pwr := { s.pwr with cfgJob := j, cfgStatus := st },
               flight := s.flight.filter fun f => !s.settled f } := by
  obtain ⟨qs, m, cm, j, st, h⟩ := settleAll_frame (s.flight.filter s.settled)
    { s with flight := s.flight.filter fun f => !s.settled f }
  exact ⟨qs, m, cm, j, st, h⟩

@[simp] theorem State.flush_flight (s : State) : s.flush.flight = s.flight.filter fun f => !s.settled f := by
  obtain ⟨_, _, _, _, _, h⟩ := s.flush_frame; rw [h]
@[simp] theorem State.flush_eng (s : State) : s.flush.eng = s.eng := by
  obtain ⟨_, _, _, _, _, h⟩ := s.flush_frame; rw [h]

/-- Whether a record is held back depends on the flight and the engine only. -/
theorem State.heldBack_of_eng {s t : State} (h : t.eng = s.eng) (f : Flight) : t.heldBack f = s.heldBack f := by
  unfold State.heldBack; rw [h]

/-- Whether a record can be written depends on the flights and the engine only. -/
theorem State.settled_of_eng {s t : State} (h : t.eng = s.eng) (hf : t.flight = s.flight) (f : Flight) :
    t.settled f = s.settled f := by
  simp only [State.settled, State.heldBack_of_eng h, State.awaits, hf]

/-- A flight that has not ended is not settled. -/
theorem State.not_settled_of_running {s : State} {f : Flight} (h : f.isEnded = false) : s.settled f = false := by
  simp [State.settled, h]

/-- The end of a step leaves every flight that has not ended: what a record waits for, it waits for still. -/
theorem State.flush_awaits (s : State) (f : Flight) : s.flush.awaits f = s.awaits f := by
  simp only [State.awaits, State.flush_flight, List.any_filter]
  congr 1; funext g
  by_cases hg : g.isEnded = true
  · simp [hg]
  · simp [State.not_settled_of_running (s := s) (Bool.eq_false_iff.mpr hg)]

/-- A flight whose record is held back is not settled. -/
theorem State.not_settled_of_heldBack {s : State} {f : Flight} (h : s.heldBack f = true) : s.settled f = false := by
  simp [State.settled, h]

/-- The end of a step settles none of the flights it leaves. -/
theorem State.flush_settled (s : State) (f : Flight) : s.flush.settled f = s.settled f := by
  have h : (s.flight.filter fun f => !s.settled f).any (fun g => decide (g.id < f.id) && s.heldBack g) =
      s.flight.any fun g => decide (g.id < f.id) && s.heldBack g := by
    rw [List.any_filter]
    congr 1; funext g
    by_cases hg : s.heldBack g = true
    · simp [State.not_settled_of_heldBack hg]
    · simp [hg]
  simp only [State.settled, State.heldBack_of_eng s.flush_eng, State.flush_awaits, State.flush_flight] at h ⊢
  rw [h]

/-- Nothing that has completed is left behind by the end of a step. -/
theorem State.flush_inv (s : State) : s.flush.Inv := by
  intro f hf
  rw [State.flush_settled]
  rw [State.flush_flight] at hf
  have := (List.mem_filter.mp hf).2
  simpa using this

/-- With nothing completed the end of a step changes nothing. -/
theorem State.flush_none (s : State) (h : s.Inv) : s.flush = s := by
  have h1 : s.flight.filter s.settled = [] := by
    rw [List.filter_eq_nil_iff]; intro f hf; simp [h f hf]
  have h2 : (s.flight.filter fun f => !s.settled f) = s.flight := by
    rw [List.filter_eq_self]; intro f hf; simp [h f hf]
  unfold State.flush State.flushOf
  rw [h1, h2]
  rfl

/-- The only command in flight has completed: its answer. -/
theorem State.flush_answered (s : State) (f : Flight) (st done : Nat) (data : List Byte) (h : s.flight = [f])
    (hp : f.phase = .ended st done data) (hc : f.pkt.config = false) (he : s.eng.pendSet = none) :
    s.flush = s.answered f.pkt st done data := by
  have hh : ∀ g, s.heldBack g = false := by
    intro g; unfold State.heldBack; cases g.phase <;> simp [he]
  have hs : s.settled f = true := by simp [State.settled, State.awaits, h, hh, Flight.isEnded, hp]
  unfold State.flush State.flushOf State.answered
  simp only [h, List.filter_cons, hs, if_true, List.filter_nil, Bool.not_true, Bool.false_eq_true, if_false, List.foldl_cons,
    List.foldl_nil, settleFlight, flightRec, hp, hc, or_false]
  by_cases hq : st = stOk ∧ bit f.pkt.flags 3
  · simp only [if_pos hq]
  · simp only [if_neg hq]

/-- The only command in flight is refused or ends early: its answer. -/
theorem State.flush_finishErr {s : State} {f : Flight} {id : Nat} (e : Err) (t : Nat) (h : s.flight = [f]) (hid : f.id = id)
    (hc : f.pkt.config = false) (he : s.eng.pendSet = none) :
    (s.finishErr id e t).flush = s.answered f.pkt e.status t (errData e) := by
  rw [State.flush_answered (s.finishErr id e t) { f with phase := .ended e.status t (errData e) } e.status t (errData e)
    (by simp [State.finishErr, modFlight, h, hid]) rfl hc he]
  rfl

/-- The only command in flight completes with OK: its answer. -/
theorem State.flush_finishOk {s : State} {f : Flight} {id : Nat} (d : List Byte) (t : Nat) (h : s.flight = [f]) (hid : f.id = id)
    (hc : f.pkt.config = false) (hi : f.info = none) (he : s.eng.pendSet = none) :
    (s.finishOk id d t).flush = s.answered f.pkt stOk t d := by
  rw [State.flush_answered (s.finishOk id d t) { f with phase := .ended stOk t d } stOk t d
    (by simp [State.finishOk, modFlight, h, hid, hi]) rfl hc he]
  rfl

/-- The one flight of a packet that has just started. -/
abbrev State.firstFlight (s : State) (p : Packet) : Flight :=
  { id := s.seq + 1, pkt := p, port := (s.queue p.queue).port, startNs := s.nowNs, startClk := s.clk, phase := .running }

/-- Any state in which that flight runs alone answers it: refused, or OK. -/
theorem State.firstFlight_err {s t : State} {p : Packet} (e : Err) (n : Nat) (h : t.flight = [s.firstFlight p]) (hc : p.config = false)
    (he : t.eng.pendSet = none) : (t.finishErr (s.seq + 1) e n).flush = t.answered p e.status n (errData e) :=
  State.flush_finishErr e n h rfl hc he

theorem State.firstFlight_ok {s t : State} {p : Packet} (d : List Byte) (n : Nat) (h : t.flight = [s.firstFlight p]) (hc : p.config = false)
    (he : t.eng.pendSet = none) : (t.finishOk (s.seq + 1) d n).flush = t.answered p stOk n d :=
  State.flush_finishOk d n h rfl hc rfl he

end Sys2Proof.Machine
end

