-- ==== Sys2Proof/Laws/Ops.lean ====
section
/-! SUPPORT. What raising an event and the passing of time can change, and the rows that complete no command. -/
namespace Sys2Proof.Machine
open Sys2Proof

/-- t differs from s at most in what records and events touch. -/
def EventsOnly (s t : State) : Prop :=
  ∃ (qs : Tab Queue) (m cm : Mem) (d1 d2 d3 : Nat) (l : Tab Nat),
    t = { s with queues := qs, mem := m, tw0 := { s.tw0 with cmem := cm }, evDrop1 := d1, evDrop2 := d2, evDrop3 := d3, evLast := l }

theorem EventsOnly.rfl' (s : State) : EventsOnly s s :=
  ⟨s.queues, s.mem, s.tw0.cmem, s.evDrop1, s.evDrop2, s.evDrop3, s.evLast, rfl⟩

theorem EventsOnly.trans {s t u : State} (h : EventsOnly s t) (g : EventsOnly t u) : EventsOnly s u := by
  obtain ⟨_, _, _, _, _, _, _, rfl⟩ := h
  obtain ⟨_, _, _, _, _, _, _, rfl⟩ := g
  exact ⟨_, _, _, _, _, _, _, rfl⟩

theorem EventsOnly.postRec (s : State) (q : Nat) (r : Rec) : EventsOnly s (s.postRec q r) := by
  obtain ⟨qs, m, cm, h⟩ := s.postRec_frame q r
  exact ⟨qs, m, cm, s.evDrop1, s.evDrop2, s.evDrop3, s.evLast, h⟩

theorem EventsOnly.setDrop (s : State) (p n : Nat) : EventsOnly s (s.setDrop p n) := by
  unfold State.setDrop
  by_cases h1 : p = 1
  · rw [if_pos h1]; exact ⟨s.queues, s.mem, s.tw0.cmem, n, s.evDrop2, s.evDrop3, s.evLast, rfl⟩
  · rw [if_neg h1]
    by_cases h2 : p = 2
    · rw [if_pos h2]; exact ⟨s.queues, s.mem, s.tw0.cmem, s.evDrop1, n, s.evDrop3, s.evLast, rfl⟩
    · rw [if_neg h2]; exact ⟨s.queues, s.mem, s.tw0.cmem, s.evDrop1, s.evDrop2, n, s.evLast, rfl⟩

theorem EventsOnly.flushLost (s : State) (p : Nat) : EventsOnly s (s.flushLost p) := by
  unfold State.flushLost
  cases s.eventQueue p with
  | none => exact .rfl' s
  | some q =>
    dsimp only
    split
    · exact (EventsOnly.postRec s q _).trans (.setDrop _ _ _)
    · exact .rfl' s

theorem EventsOnly.raiseOn (s : State) (p c : Nat) (d : List Byte) (t : Nat) : EventsOnly s (s.raiseOn p c d t) := by
  unfold State.raiseOn
  split
  · exact .rfl' s
  · refine (EventsOnly.flushLost s p).trans ?_
    dsimp only
    cases (s.flushLost p).eventQueue p with
    | none => exact .setDrop _ _ _
    | some q =>
      dsimp only
      split
      · exact .postRec _ _ _
      · exact .setDrop _ _ _

theorem EventsOnly.raiseAt (s : State) (c : Nat) (d : List Byte) (t : Nat) : EventsOnly s (s.raiseAt c d t) := by
  unfold State.raiseAt
  split
  · exact ((EventsOnly.raiseOn s 1 c d t).trans (.raiseOn _ 2 c d t)).trans (.raiseOn _ 3 c d t)
  · exact .rfl' s

theorem EventsOnly.raise (s : State) (c : Nat) (d : List Byte) : EventsOnly s (s.raise c d) := .raiseAt s c d _

theorem EventsOnly.raiseLimAt (s : State) (c k t : Nat) (d : List Byte) (n : Nat) : EventsOnly s (s.raiseLimAt c k t d n) := by
  have h : EventsOnly s { s with evLast := tset (c * 65536 + k) n s.evLast } :=
    ⟨s.queues, s.mem, s.tw0.cmem, s.evDrop1, s.evDrop2, s.evDrop3, _, rfl⟩
  unfold State.raiseLimAt
  dsimp only
  cases tget? s.evLast (c * 65536 + k) with
  | none => exact h.trans (.raiseAt _ _ _ _)
  | some l =>
    dsimp only
    split
    · exact .rfl' s
    · exact h.trans (.raiseAt _ _ _ _)

theorem EventsOnly.raiseLim (s : State) (c k t : Nat) (d : List Byte) : EventsOnly s (s.raiseLim c k t d) := .raiseLimAt s c k t d _

theorem EventsOnly.flight {s t : State} (h : EventsOnly s t) : t.flight = s.flight := by
  obtain ⟨_, _, _, _, _, _, _, rfl⟩ := h; rfl
theorem EventsOnly.eng {s t : State} (h : EventsOnly s t) : t.eng = s.eng := by
  obtain ⟨_, _, _, _, _, _, _, rfl⟩ := h; rfl

@[simp] theorem State.raise_flight (s : State) (c : Nat) (d : List Byte) : (s.raise c d).flight = s.flight := (EventsOnly.raise s c d).flight
@[simp] theorem State.raise_eng (s : State) (c : Nat) (d : List Byte) : (s.raise c d).eng = s.eng := (EventsOnly.raise s c d).eng
@[simp] theorem State.raiseAt_flight (s : State) (c : Nat) (d : List Byte) (t : Nat) : (s.raiseAt c d t).flight = s.flight :=
  (EventsOnly.raiseAt s c d t).flight
@[simp] theorem State.raiseAt_eng (s : State) (c : Nat) (d : List Byte) (t : Nat) : (s.raiseAt c d t).eng = s.eng :=
  (EventsOnly.raiseAt s c d t).eng
@[simp] theorem State.raiseLimAt_flight (s : State) (c k t : Nat) (d : List Byte) (n : Nat) :
    (s.raiseLimAt c k t d n).flight = s.flight := (EventsOnly.raiseLimAt s c k t d n).flight
@[simp] theorem State.raiseLimAt_eng (s : State) (c k t : Nat) (d : List Byte) (n : Nat) : (s.raiseLimAt c k t d n).eng = s.eng :=
  (EventsOnly.raiseLimAt s c k t d n).eng
@[simp] theorem State.raiseLim_flight (s : State) (c k t : Nat) (d : List Byte) : (s.raiseLim c k t d).flight = s.flight :=
  (EventsOnly.raiseLim s c k t d).flight
@[simp] theorem State.raiseLim_eng (s : State) (c k t : Nat) (d : List Byte) : (s.raiseLim c k t d).eng = s.eng :=
  (EventsOnly.raiseLim s c k t d).eng
@[simp] theorem State.flushLost_flight (s : State) (p : Nat) : (s.flushLost p).flight = s.flight := (EventsOnly.flushLost s p).flight
@[simp] theorem State.flushLost_eng (s : State) (p : Nat) : (s.flushLost p).eng = s.eng := (EventsOnly.flushLost s p).eng

@[simp] theorem State.pass_flight (s : State) (dt : Nat) : (s.pass dt).flight = s.flight := by unfold State.pass; split <;> rfl
@[simp] theorem State.pass_eng (s : State) (dt : Nat) : (s.pass dt).eng = s.eng := by unfold State.pass; split <;> rfl

/-- Time that passes leaves the commands in flight and the engine alone. -/
@[simp] theorem State.advance_flight (s : State) (dt : Nat) : (s.advance dt).flight = s.flight := by
  unfold State.advance State.wrapTime
  split <;> simp
@[simp] theorem State.advance_eng (s : State) (dt : Nat) : (s.advance dt).eng = s.eng := by
  unfold State.advance State.wrapTime
  split <;> simp

/-- The invariant depends on the commands in flight and on what the engine has pending. -/
theorem State.Inv.of_same {s t : State} (h : s.Inv) (hf : t.flight = s.flight) (hs : t.eng.pendSet = s.eng.pendSet)
    (hb : t.eng.pendB = s.eng.pendB) : t.Inv := by
  have hh : ∀ f, t.heldBack f = s.heldBack f := by
    intro f; unfold State.heldBack; rw [hs, hb]
  intro f hm
  rw [hf] at hm
  have := h f hm
  simp only [State.settled, State.awaits, hf, hh] at this ⊢
  exact this

theorem State.Inv.advance {s : State} (h : s.Inv) (dt : Nat) : (s.advance dt).Inv :=
  h.of_same (by simp) (by simp) (by simp)

/-- A row that completes no command and leaves the engine's pending set answers its effect. -/
theorem run_quiet {i : Instr} {s : State} {f : State → State} (hw : i.wf = true) (h : s.Inv)
    (hf : (f (s.advance i.dt)).flight = s.flight) (hs : (f (s.advance i.dt)).eng.pendSet = s.eng.pendSet)
    (hb : (f (s.advance i.dt)).eng.pendB = s.eng.pendB) :
    run i s f = .next (f (s.advance i.dt)) := by
  unfold run
  rw [if_pos hw, State.flush_none _ (h.of_same hf hs hb)]

/-- Every row that answers a next state ends with its records handed on. -/
theorem run_next {i : Instr} {s : State} {f : State → State} (hw : i.wf = true) : run i s f = .next ((f (s.advance i.dt)).flush) := by
  unfold run; rw [if_pos hw]

end Sys2Proof.Machine
end

