-- ==== Sys2Proof/Laws/Ports.lean ====
section
/-! SUPPORT. The register file: what a port's write can change, and what a burst stores. -/
namespace Sys2Proof.Machine
open Sys2Proof

/-- t leaves the commands in flight, memory, TW0 and what the engine has pending as s has them. -/
structure PortsOnly (s t : State) : Prop where
  flight : t.flight = s.flight
  mem : t.mem = s.mem
  tw0 : t.tw0 = s.tw0
  pendSet : t.eng.pendSet = s.eng.pendSet
  pendB : t.eng.pendB = s.eng.pendB
  applyQ : t.eng.applyQ = s.eng.applyQ

theorem PortsOnly.refl (s : State) : PortsOnly s s := ⟨rfl, rfl, rfl, rfl, rfl, rfl⟩
theorem PortsOnly.trans {s t u : State} (h : PortsOnly s t) (g : PortsOnly t u) : PortsOnly s u :=
  ⟨g.1.trans h.1, g.2.trans h.2, g.3.trans h.3, g.4.trans h.4, g.5.trans h.5, g.6.trans h.6⟩
theorem PortsOnly.ite {c : Prop} [Decidable c] {s t u : State} (h : PortsOnly s t) (g : PortsOnly s u) :
    PortsOnly s (if c then t else u) := by
  by_cases hc : c
  · rw [if_pos hc]; exact h
  · rw [if_neg hc]; exact g

@[simp] theorem State.setPr_flight (s : State) (p : Nat) (v : PortRegs) : (s.setPr p v).flight = s.flight := by
  unfold State.setPr; split <;> rfl
@[simp] theorem State.setPr_eng (s : State) (p : Nat) (v : PortRegs) : (s.setPr p v).eng = s.eng := by
  unfold State.setPr; split <;> rfl
@[simp] theorem State.setPr_mem (s : State) (p : Nat) (v : PortRegs) : (s.setPr p v).mem = s.mem := by
  unfold State.setPr; split <;> rfl
@[simp] theorem State.setPr_tw0 (s : State) (p : Nat) (v : PortRegs) : (s.setPr p v).tw0 = s.tw0 := by
  unfold State.setPr; split <;> rfl
@[simp] theorem State.portErr_flight (s : State) (p c q : Nat) : (s.portErr p c q).flight = s.flight := s.setPr_flight _ _
@[simp] theorem State.portErr_eng (s : State) (p c q : Nat) : (s.portErr p c q).eng = s.eng := s.setPr_eng _ _

theorem PortsOnly.setPr (s : State) (p : Nat) (v : PortRegs) : PortsOnly s (s.setPr p v) :=
  ⟨by simp, by simp, by simp, by simp, by simp, by simp⟩
theorem PortsOnly.setQueue (s : State) (q : Nat) (v : Queue) : PortsOnly s (s.setQueue q v) := ⟨rfl, rfl, rfl, rfl, rfl, rfl⟩
theorem PortsOnly.enqueue (s : State) (p : Packet) : PortsOnly s (s.enqueue p) := by
  unfold State.enqueue
  dsimp only
  split
  · exact .setQueue _ _ _
  · exact ⟨rfl, rfl, rfl, rfl, rfl, rfl⟩

theorem PortsOnly.takePackets (q n : Nat) : ∀ s, PortsOnly s (takePackets q n s) := by
  induction n with
  | zero => intro s; exact .refl s
  | succ n ih =>
    intro s
    unfold Machine.takePackets
    dsimp only
    split
    · exact .refl s
    · exact ((PortsOnly.setQueue _ _ _).trans (.enqueue _ _)).trans (ih _)

theorem PortsOnly.doorbell (p q v : Nat) (s : State) : PortsOnly s (doorbell p q v s) :=
  .ite (.setPr _ _ _) (.ite (.setPr _ _ _) ((PortsOnly.setQueue _ _ _).trans (.takePackets _ _ _)))

theorem PortsOnly.cqRelease (p q v : Nat) (s : State) : PortsOnly s (cqRelease p q v s) :=
  .ite (.refl _) (.ite (.setQueue _ _ _) (.setPr _ _ _))

/-- A register write changes registers, the engine's counters and queues only. -/
theorem PortsOnly.regWrite (p a v m : Nat) (s : State) : PortsOnly s (regWrite p a v m s) :=
  .ite (.refl _) <| .ite (.setPr _ _ _) <| .ite (.setPr _ _ _) <| .ite (.setPr _ _ _) <| .ite (.setPr _ _ _) <|
  .ite (.ite (.setPr _ _ _) (.refl _)) <| .ite ⟨rfl, rfl, rfl, rfl, rfl, rfl⟩ <| .ite ⟨rfl, rfl, rfl, rfl, rfl, rfl⟩ <|
  .ite ⟨rfl, rfl, rfl, rfl, rfl, rfl⟩ <| .ite (.doorbell _ _ _ _) <| .ite (.cqRelease _ _ _ _) <|
  .ite (.ite (.setQueue _ _ _) (.refl _)) <| .ite (.setPr _ _ _) <| .ite (.setPr _ _ _) (.refl _)

/-- One byte of a burst outside the register file stores at its address or not at all. -/
theorem State.qspiStore_frame (s : State) (x : Nat) (b : Byte) : (s.qspiStore x b).flight = s.flight ∧
    (s.qspiStore x b).tw0 = s.tw0 ∧ (s.qspiStore x b).eng = s.eng ∧
    ((s.qspiStore x b).mem = s.mem ∨ (s.qspiStore x b).mem = mwrite s.mem x b) := by
  unfold State.qspiStore
  dsimp only
  split
  · split
    · exact ⟨rfl, rfl, rfl, .inr rfl⟩
    · exact ⟨State.setPr_flight _ _ _, State.setPr_tw0 _ _ _, State.setPr_eng _ _ _, .inl (State.setPr_mem _ _ _)⟩
  · split
    · exact ⟨rfl, rfl, rfl, .inr rfl⟩
    · exact ⟨rfl, rfl, rfl, .inl rfl⟩

theorem burstAddr_next (k : Nat) : ∀ x, burstAddr (nextAddr x) k = burstAddr x (k + 1) := by
  induction k with
  | zero => intro x; rfl
  | succ k ih => intro x; simp only [burstAddr] at ih ⊢; rw [ih]

/-- A row that completes no command and leaves the engine's pending set answers its effect, from the state dt ns later. -/
theorem run_answers {i : Instr} {s a : State} {f : State → State} {t : State} (ha : s.advance i.dt = a) (hw : i.wf = true) (h : s.Inv)
    (ht : f a = t) (hf : t.flight = a.flight) (hs : t.eng.pendSet = a.eng.pendSet) (hb : t.eng.pendB = a.eng.pendB) :
    run i s f = .next t := by
  subst ha; subst ht
  exact run_quiet hw h (by rw [hf, State.advance_flight]) (by rw [hs, State.advance_eng]) (by rw [hb, State.advance_eng])

/-! The bytes of a TW0 write. -/

theorem tw0WriteStep_off {a : State} (h : a.tw0On = false) (bs : List Byte) (stop : Bool) : tw0WriteStep bs stop a = a := by
  unfold tw0WriteStep; rw [h]; rfl

/-- At another address TW0 takes no byte. -/
theorem tw0WriteStep_other {a : State} (ho : a.tw0On = true) {x : Byte} (hx : a.tw0Acks x false = false) (bs : List Byte) (stop : Bool) :
    tw0WriteStep (x :: bs) stop a = if stop then twStop a else a := by
  unfold tw0WriteStep; simp [ho, hx]

theorem tw0WriteStep_pointer {a : State} (ho : a.tw0On = true) {x : Byte} (hx : a.tw0Acks x false = true) (h l : Byte) (stop : Bool) :
    tw0WriteStep [x, h, l] stop a =
      (if stop then twStop { a with tw0 := { a.tw0 with ptr := h.toNat * 256 + l.toNat } }
       else { a with tw0 := { a.tw0 with ptr := h.toNat * 256 + l.toNat } }) := by
  unfold tw0WriteStep; simp [ho, hx]

theorem tw0WriteStep_bytes {a : State} (ho : a.tw0On = true) {x : Byte} (hx : a.tw0Acks x false = true) (h l b : Byte) (bs : List Byte)
    (stop : Bool) :
    tw0WriteStep (x :: h :: l :: b :: bs) stop a =
      (if stop then twStop (bs.foldl (fun x y => x.twByte false y)
          (State.twByte { a with tw0 := { a.tw0 with ptr := h.toNat * 256 + l.toNat } } true b))
       else bs.foldl (fun x y => x.twByte false y)
          (State.twByte { a with tw0 := { a.tw0 with ptr := h.toNat * 256 + l.toNat } } true b)) := by
  unfold tw0WriteStep; simp [ho, hx]

end Sys2Proof.Machine
end

