-- ==== Sys2Proof/Laws/Rows.lean ====
section
/-!
SUPPORT. Per row: which effect `exec` runs. Every row but COMMAND_START and CONFIG_PACKET_RUN, which may refuse a command of the
test group, is `run` of its effect.
-/
namespace Sys2Proof.Machine
open Sys2Proof

theorem exec_nop (dt : Nat) (c : Cmd) (s : State) : exec (.nop dt c) s = run (.nop dt c) s (arrive 0x0001 c) := rfl
theorem exec_caps (dt : Nat) (c : Cmd) (s : State) : exec (.caps dt c) s = run (.caps dt c) s (arrive 0x0002 c) := rfl
theorem exec_abort (dt : Nat) (c : Cmd) (s : State) :
    exec (.abort dt c) s = run (.abort dt c) s (arrive 0x0003 c) := rfl
theorem exec_resetUnit (dt : Nat) (c : Cmd) (s : State) :
    exec (.resetUnit dt c) s = run (.resetUnit dt c) s (arrive 0x0004 c) := rfl
theorem exec_powerState (dt : Nat) (c : Cmd) (s : State) :
    exec (.powerState dt c) s = run (.powerState dt c) s (arrive 0x0005 c) := rfl
theorem exec_eventMask (dt : Nat) (c : Cmd) (s : State) :
    exec (.eventMask dt c) s = run (.eventMask dt c) s (arrive 0x0006 c) := rfl
theorem exec_queueConfig (dt : Nat) (c : Cmd) (s : State) :
    exec (.queueConfig dt c) s = run (.queueConfig dt c) s (arrive 0x0007 c) := rfl
theorem exec_timeRead (dt : Nat) (c : Cmd) (s : State) :
    exec (.timeRead dt c) s = run (.timeRead dt c) s (arrive 0x0008 c) := rfl
theorem exec_routeSet (dt : Nat) (c : Cmd) (s : State) :
    exec (.routeSet dt c) s = run (.routeSet dt c) s (arrive 0x0101 c) := rfl
theorem exec_routeGet (dt : Nat) (c : Cmd) (s : State) :
    exec (.routeGet dt c) s = run (.routeGet dt c) s (arrive 0x0102 c) := rfl
theorem exec_routeFadeCfg (dt : Nat) (c : Cmd) (s : State) :
    exec (.routeFadeCfg dt c) s = run (.routeFadeCfg dt c) s (arrive 0x0103 c) := rfl
theorem exec_mixStage (dt : Nat) (c : Cmd) (s : State) :
    exec (.mixStage dt c) s = run (.mixStage dt c) s (arrive 0x0201 c) := rfl
theorem exec_mixCommit (dt : Nat) (c : Cmd) (s : State) :
    exec (.mixCommit dt c) s = run (.mixCommit dt c) s (arrive 0x0202 c) := rfl
theorem exec_busCfg (dt : Nat) (c : Cmd) (s : State) :
    exec (.busCfg dt c) s = run (.busCfg dt c) s (arrive 0x0203 c) := rfl
theorem exec_limiterCfg (dt : Nat) (c : Cmd) (s : State) :
    exec (.limiterCfg dt c) s = run (.limiterCfg dt c) s (arrive 0x0204 c) := rfl
theorem exec_meterCfg (dt : Nat) (c : Cmd) (s : State) :
    exec (.meterCfg dt c) s = run (.meterCfg dt c) s (arrive 0x0301 c) := rfl
theorem exec_meterRead (dt : Nat) (c : Cmd) (s : State) :
    exec (.meterRead dt c) s = run (.meterRead dt c) s (arrive 0x0302 c) := rfl
theorem exec_meterReset (dt : Nat) (c : Cmd) (s : State) :
    exec (.meterReset dt c) s = run (.meterReset dt c) s (arrive 0x0303 c) := rfl
theorem exec_ainCfg (dt : Nat) (c : Cmd) (s : State) :
    exec (.ainCfg dt c) s = run (.ainCfg dt c) s (arrive 0x0401 c) := rfl
theorem exec_ainPad (dt : Nat) (c : Cmd) (s : State) :
    exec (.ainPad dt c) s = run (.ainPad dt c) s (arrive 0x0402 c) := rfl
theorem exec_chainCfg (dt : Nat) (c : Cmd) (s : State) :
    exec (.chainCfg dt c) s = run (.chainCfg dt c) s (arrive 0x0404 c) := rfl
theorem exec_chainSync (dt : Nat) (c : Cmd) (s : State) :
    exec (.chainSync dt c) s = run (.chainSync dt c) s (arrive 0x0405 c) := rfl
theorem exec_mergeStatus (dt : Nat) (c : Cmd) (s : State) :
    exec (.mergeStatus dt c) s = run (.mergeStatus dt c) s (arrive 0x0403 c) := rfl
theorem exec_outCfg (dt : Nat) (c : Cmd) (s : State) :
    exec (.outCfg dt c) s = run (.outCfg dt c) s (arrive 0x0501 c) := rfl
theorem exec_jackCfg (dt : Nat) (c : Cmd) (s : State) :
    exec (.jackCfg dt c) s = run (.jackCfg dt c) s (arrive 0x0502 c) := rfl
theorem exec_firkinAlloc (dt : Nat) (c : Cmd) (s : State) :
    exec (.firkinAlloc dt c) s = run (.firkinAlloc dt c) s (arrive 0x0601 c) := rfl
theorem exec_firkinFree (dt : Nat) (c : Cmd) (s : State) :
    exec (.firkinFree dt c) s = run (.firkinFree dt c) s (arrive 0x0602 c) := rfl
theorem exec_delayCfg (dt : Nat) (c : Cmd) (s : State) :
    exec (.delayCfg dt c) s = run (.delayCfg dt c) s (arrive 0x0603 c) := rfl
theorem exec_firkinRead (dt : Nat) (c : Cmd) (s : State) :
    exec (.firkinRead dt c) s = run (.firkinRead dt c) s (arrive 0x0604 c) := rfl
theorem exec_firkinWrite (dt : Nat) (c : Cmd) (s : State) :
    exec (.firkinWrite dt c) s = run (.firkinWrite dt c) s (arrive 0x0605 c) := rfl
theorem exec_netPortCfg (dt : Nat) (c : Cmd) (s : State) :
    exec (.netPortCfg dt c) s = run (.netPortCfg dt c) s (arrive 0x0701 c) := rfl
theorem exec_txstreamCfg (dt : Nat) (c : Cmd) (s : State) :
    exec (.txstreamCfg dt c) s = run (.txstreamCfg dt c) s (arrive 0x0702 c) := rfl
theorem exec_rxstreamCfg (dt : Nat) (c : Cmd) (s : State) :
    exec (.rxstreamCfg dt c) s = run (.rxstreamCfg dt c) s (arrive 0x0703 c) := rfl
theorem exec_hostFrameSend (dt : Nat) (c : Cmd) (s : State) :
    exec (.hostFrameSend dt c) s = run (.hostFrameSend dt c) s (arrive 0x0704 c) := rfl
theorem exec_ptpCfg (dt : Nat) (c : Cmd) (s : State) :
    exec (.ptpCfg dt c) s = run (.ptpCfg dt c) s (arrive 0x0801 c) := rfl
theorem exec_ttSelect (dt : Nat) (c : Cmd) (s : State) :
    exec (.ttSelect dt c) s = run (.ttSelect dt c) s (arrive 0x0802 c) := rfl
theorem exec_timePolicy (dt : Nat) (c : Cmd) (s : State) :
    exec (.timePolicy dt c) s = run (.timePolicy dt c) s (arrive 0x0803 c) := rfl
theorem exec_pllCfg (dt : Nat) (c : Cmd) (s : State) :
    exec (.pllCfg dt c) s = run (.pllCfg dt c) s (arrive 0x0901 c) := rfl
theorem exec_rampLoad (dt : Nat) (c : Cmd) (s : State) :
    exec (.rampLoad dt c) s = run (.rampLoad dt c) s (arrive 0x0902 c) := rfl
theorem exec_ckoCfg (dt : Nat) (c : Cmd) (s : State) :
    exec (.ckoCfg dt c) s = run (.ckoCfg dt c) s (arrive 0x0903 c) := rfl
theorem exec_tdmCfg (dt : Nat) (c : Cmd) (s : State) :
    exec (.tdmCfg dt c) s = run (.tdmCfg dt c) s (arrive 0x0A01 c) := rfl
theorem exec_asrcCfg (dt : Nat) (c : Cmd) (s : State) :
    exec (.asrcCfg dt c) s = run (.asrcCfg dt c) s (arrive 0x0A02 c) := rfl
theorem exec_listenCfg (dt : Nat) (c : Cmd) (s : State) :
    exec (.listenCfg dt c) s = run (.listenCfg dt c) s (arrive 0x0B01 c) := rfl
theorem exec_modelLoad (dt : Nat) (c : Cmd) (s : State) :
    exec (.modelLoad dt c) s = run (.modelLoad dt c) s (arrive 0x0B02 c) := rfl
theorem exec_historyRead (dt : Nat) (c : Cmd) (s : State) :
    exec (.historyRead dt c) s = run (.historyRead dt c) s (arrive 0x0B03 c) := rfl
theorem exec_gaugeSeq (dt : Nat) (c : Cmd) (s : State) :
    exec (.gaugeSeq dt c) s = run (.gaugeSeq dt c) s (arrive 0x0C01 c) := rfl
theorem exec_gaugeWindow (dt : Nat) (c : Cmd) (s : State) :
    exec (.gaugeWindow dt c) s = run (.gaugeWindow dt c) s (arrive 0x0C02 c) := rfl
theorem exec_gaugeCal (dt : Nat) (c : Cmd) (s : State) :
    exec (.gaugeCal dt c) s = run (.gaugeCal dt c) s (arrive 0x0C03 c) := rfl
theorem exec_gaugeUrgent (dt : Nat) (c : Cmd) (s : State) :
    exec (.gaugeUrgent dt c) s = run (.gaugeUrgent dt c) s (arrive 0x0C04 c) := rfl
theorem exec_gaugePlaus (dt : Nat) (c : Cmd) (s : State) :
    exec (.gaugePlaus dt c) s = run (.gaugePlaus dt c) s (arrive 0x0C05 c) := rfl
theorem exec_tw1Xfer (dt : Nat) (c : Cmd) (s : State) :
    exec (.tw1Xfer dt c) s = run (.tw1Xfer dt c) s (arrive 0x0D01 c) := rfl
theorem exec_portCfg (dt : Nat) (c : Cmd) (s : State) :
    exec (.portCfg dt c) s = run (.portCfg dt c) s (arrive 0x0D02 c) := rfl
theorem exec_sqTailDoorbell (dt : Nat) (q : Nat) (v : Nat) (s : State) :
    exec (.sqTailDoorbell dt q v) s = run (.sqTailDoorbell dt q v) s (portWrite 1 (0x100 + 4 * q) v) := rfl
theorem exec_cqHeadRelease (dt : Nat) (port : Nat) (q : Nat) (v : Nat) (s : State) :
    exec (.cqHeadRelease dt port q v) s = run (.cqHeadRelease dt port q v) s (portWrite port (0x280 + 4 * q) v) := rfl
theorem exec_qStatOvfClear (dt : Nat) (port : Nat) (q : Nat) (v : Nat) (s : State) :
    exec (.qStatOvfClear dt port q v) s = run (.qStatOvfClear dt port q v) s (portWrite port (0x300 + 4 * q) v) := rfl
theorem exec_irqStatClear (dt : Nat) (port : Nat) (v : Nat) (s : State) :
    exec (.irqStatClear dt port v) s = run (.irqStatClear dt port v) s (portWrite port 0x010 v) := rfl
theorem exec_portErrClear (dt : Nat) (port : Nat) (v : Nat) (s : State) :
    exec (.portErrClear dt port v) s = run (.portErrClear dt port v) s (portWrite port 0x01C v) := rfl
theorem exec_snapLatch (dt : Nat) (port : Nat) (v : Nat) (s : State) :
    exec (.snapLatch dt port v) s = run (.snapLatch dt port v) s (portWrite port 0x040 v) := rfl
theorem exec_engPaceClear (dt : Nat) (v : Nat) (s : State) :
    exec (.engPaceClear dt v) s = run (.engPaceClear dt v) s (portWrite 1 0x080 v) := rfl
theorem exec_engStatDiscClear (dt : Nat) (v : Nat) (s : State) :
    exec (.engStatDiscClear dt v) s = run (.engStatDiscClear dt v) s (portWrite 1 0x084 v) := rfl
theorem exec_engLateClear (dt : Nat) (v : Nat) (s : State) :
    exec (.engLateClear dt v) s = run (.engLateClear dt v) s (portWrite 1 0x088 v) := rfl
theorem exec_registerWrite (dt : Nat) (port : Nat) (addr : Nat) (v : Nat) (s : State) :
    exec (.registerWrite dt port addr v) s = run (.registerWrite dt port addr v) s (portWrite port addr v) := rfl
theorem exec_hostSlotRelease (dt : Nat) (slot : Nat) (s : State) :
    exec (.hostSlotRelease dt slot) s = run (.hostSlotRelease dt slot) s (hostSlotReleaseStep slot) := rfl
theorem exec_read (dt : Nat) (addr : Nat) (n : Nat) (s : State) :
    exec (.read dt addr n) s = run (.read dt addr n) s (qspiRead addr n) := rfl
theorem exec_fastRead (dt : Nat) (addr : Nat) (n : Nat) (s : State) :
    exec (.fastRead dt addr n) s = run (.fastRead dt addr n) s (qspiRead addr n) := rfl
theorem exec_quadRead (dt : Nat) (addr : Nat) (n : Nat) (s : State) :
    exec (.quadRead dt addr n) s = run (.quadRead dt addr n) s (qspiRead addr n) := rfl
theorem exec_write (dt : Nat) (addr : Nat) (data : List Byte) (s : State) :
    exec (.write dt addr data) s = run (.write dt addr data) s (qspiWrite addr data) := rfl
theorem exec_quadWrite (dt : Nat) (addr : Nat) (data : List Byte) (s : State) :
    exec (.quadWrite dt addr data) s = run (.quadWrite dt addr data) s (qspiWrite addr data) := rfl
theorem exec_readStatus (dt : Nat) (n : Nat) (s : State) :
    exec (.readStatus dt n) s = run (.readStatus dt n) s
      (fun x => if x.qspiOn then { x with qout := repeated (le 1 x.devStat) n } else x) := rfl
theorem exec_readId (dt : Nat) (n : Nat) (s : State) :
    exec (.readId dt n) s = run (.readId dt n) s
      (fun x => if x.qspiOn then { x with qout := repeated (le 4 (idcodeOf x.part.variant)) n } else x) := rfl
theorem exec_qspiUnknownInstruction (dt : Nat) (code : Nat) (s : State) :
    exec (.qspiUnknownInstruction dt code) s = run (.qspiUnknownInstruction dt code) s (qspiUnknown code) := rfl
theorem exec_tw0Write (dt : Nat) (data : List Byte) (stop : Bool) (s : State) :
    exec (.tw0Write dt data stop) s = run (.tw0Write dt data stop) s (tw0WriteStep data stop) := rfl
theorem exec_tw0Read (dt : Nat) (r : TwRead) (s : State) :
    exec (.tw0Read dt r) s = run (.tw0Read dt r) s (tw0ReadStep r) := rfl
theorem exec_tw0ReadShadowExpire (dt : Nat) (s : State) :
    exec (.tw0ReadShadowExpire dt) s = run (.tw0ReadShadowExpire dt) s tw0RdExpire := rfl
theorem exec_tw0WriteShadowExpire (dt : Nat) (s : State) :
    exec (.tw0WriteShadowExpire dt) s = run (.tw0WriteShadowExpire dt) s tw0WrExpire := rfl
theorem exec_tw0StuckRelease (dt : Nat) (s : State) :
    exec (.tw0StuckRelease dt) s = run (.tw0StuckRelease dt) s tw0StuckStep := rfl
theorem exec_tw0WakeMatch (dt : Nat) (s : State) :
    exec (.tw0WakeMatch dt) s = run (.tw0WakeMatch dt) s tw0WakeStep := rfl
theorem exec_extest (dt : Nat) (sc : Scan) (s : State) :
    exec (.extest dt sc) s = run (.extest dt sc) s (testLoad 0 sc) := rfl
theorem exec_samplePreload (dt : Nat) (sc : Scan) (s : State) :
    exec (.samplePreload dt sc) s = run (.samplePreload dt sc) s (plainLoad 1 sc) := rfl
theorem exec_idcode (op : TapOp) (s : State) :
    exec (.idcode op) s = run (.idcode op) s (plainLoad 2 { straps := op.straps }) := rfl
theorem exec_clamp (dt : Nat) (s : State) : exec (.clamp dt) s = run (.clamp dt) s (testLoad 3 {}) := rfl
theorem exec_highz (dt : Nat) (s : State) : exec (.highz dt) s = run (.highz dt) s (testLoad 4 {}) := rfl
theorem exec_extestPulse (dt : Nat) (sc : Scan) (s : State) :
    exec (.extestPulse dt sc) s = run (.extestPulse dt sc) s (testLoad 5 sc) := rfl
theorem exec_extestTrain (dt : Nat) (sc : Scan) (s : State) :
    exec (.extestTrain dt sc) s = run (.extestTrain dt sc) s (testLoad 6 sc) := rfl
theorem exec_bypass (op : TapOp) (s : State) :
    exec (.bypass op) s = run (.bypass op) s (plainLoad op.code { straps := op.straps }) := rfl
theorem exec_tapReset (op : TapOp) (s : State) :
    exec (.tapReset op) s = run (.tapReset op) s (tapResetStep op.straps) := rfl
theorem exec_tmodeChange (dt : Nat) (level : Bool) (s : State) :
    exec (.tmodeChange dt level) s = run (.tmodeChange dt level) s
      (fun x => { x with pins := { x.pins with tmode := level } }) := rfl
theorem exec_rstNAssert (dt : Nat) (s : State) : exec (.rstNAssert dt) s = run (.rstNAssert dt) s rstAssertStep := rfl
theorem exec_powerOnReset (dt : Nat) (s : State) :
    exec (.powerOnReset dt) s = run (.powerOnReset dt) s powerOnResetStep := rfl
theorem exec_crystalStop (dt : Nat) (s : State) :
    exec (.crystalStop dt) s = run (.crystalStop dt) s crystalStopStep := rfl
theorem exec_pgInRise (dt : Nat) (s : State) : exec (.pgInRise dt) s = run (.pgInRise dt) s pgRiseStep := rfl
theorem exec_bootStep (dt : Nat) (image : Option (List Byte)) (bus : BusClear) (s : State) :
    exec (.bootStep dt image bus) s = run (.bootStep dt image bus) s (bootStepGo image bus) := rfl
theorem exec_bootWindowPoll (dt : Nat) (s : State) :
    exec (.bootWindowPoll dt) s = run (.bootWindowPoll dt) s bootPoll := rfl
theorem exec_configTimeout (dt : Nat) (s : State) :
    exec (.configTimeout dt) s = run (.configTimeout dt) s configTimeoutStep := rfl
theorem exec_pgInLost (dt : Nat) (s : State) : exec (.pgInLost dt) s = run (.pgInLost dt) s pgLostStep := rfl
theorem exec_pwrEnRetry (dt : Nat) (s : State) : exec (.pwrEnRetry dt) s = run (.pwrEnRetry dt) s pwrRetryStep := rfl
theorem exec_vcoreBrownOut (dt : Nat) (mv : Nat) (s : State) :
    exec (.vcoreBrownOut dt mv) s = run (.vcoreBrownOut dt mv) s (brownOutStep mv) := rfl
theorem exec_vcoreLow (dt : Nat) (mv : Nat) (s : State) :
    exec (.vcoreLow dt mv) s = run (.vcoreLow dt mv) s (vcoreLowStep mv) := rfl
theorem exec_wakeN (dt : Nat) (s : State) : exec (.wakeN dt) s = run (.wakeN dt) s wakeNStep := rfl
theorem exec_heldWake (dt : Nat) (s : State) : exec (.heldWake dt) s = run (.heldWake dt) s heldWakeStep := rfl
theorem exec_runEntryStep (dt : Nat) (s : State) :
    exec (.runEntryStep dt) s = run (.runEntryStep dt) s runEntry := rfl
theorem exec_hibernateEntryStep (dt : Nat) (s : State) :
    exec (.hibernateEntryStep dt) s = run (.hibernateEntryStep dt) s hibernateEntry := rfl
theorem exec_privNAssert (dt : Nat) (s : State) :
    exec (.privNAssert dt) s = run (.privNAssert dt) s (fun x => deferCheck (privAssertStep x)) := rfl
theorem exec_privNRelease (dt : Nat) (s : State) :
    exec (.privNRelease dt) s = run (.privNRelease dt) s privReleaseStep := rfl
theorem exec_thermal (dt : Nat) (tjC : Int) (tjE : Int) (s : State) :
    exec (.thermal dt tjC tjE) s = run (.thermal dt tjC tjE) s (thermalStep tjC tjE) := rfl
theorem exec_thermalRestart (dt : Nat) (s : State) :
    exec (.thermalRestart dt) s = run (.thermalRestart dt) s thermalRestartStep := rfl
theorem exec_spkOvercurrent (dt : Nat) (k : Nat) (s : State) :
    exec (.spkOvercurrent dt k) s = run (.spkOvercurrent dt k) s (spkTrip k 1) := rfl
theorem exec_spkDcFault (dt : Nat) (k : Nat) (s : State) :
    exec (.spkDcFault dt k) s = run (.spkDcFault dt k) s (spkTrip k 5) := rfl
theorem exec_hpCurrentLimit (dt : Nat) (k : Nat) (s : State) :
    exec (.hpCurrentLimit dt k) s = run (.hpCurrentLimit dt k) s (hpTrip k) := rfl
theorem exec_pvddUnder (dt : Nat) (mv : Nat) (s : State) :
    exec (.pvddUnder dt mv) s = run (.pvddUnder dt mv) s (pvddTrip 3 mv (decide (mv < 7000))) := rfl
theorem exec_pvddOver (dt : Nat) (mv : Nat) (s : State) :
    exec (.pvddOver dt mv) s = run (.pvddOver dt mv) s (pvddTrip 4 mv (decide (17000 < mv))) := rfl
theorem exec_pvddRecovery (dt : Nat) (mv : Nat) (s : State) :
    exec (.pvddRecovery dt mv) s = run (.pvddRecovery dt mv) s (pvddRecover mv) := rfl
theorem exec_outSeqStep (dt : Nat) (g : Nat) (s : State) :
    exec (.outSeqStep dt g) s = run (.outSeqStep dt g) s (outSeqStep g) := rfl
theorem exec_cpRailLower (dt : Nat) (k : Nat) (s : State) :
    exec (.cpRailLower dt k) s = run (.cpRailLower dt k) s (cpRailLowerStep k) := rfl
theorem exec_jackEdge (dt : Nat) (j : Nat) (level : Bool) (s : State) :
    exec (.jackEdge dt j level) s = run (.jackEdge dt j level) s (jackEdgeStep j level) := rfl
theorem exec_jackDebounceExpire (dt : Nat) (j : Nat) (s : State) :
    exec (.jackDebounceExpire dt j) s = run (.jackDebounceExpire dt j) s (jackExpireStep j) := rfl
theorem exec_headsetMeasureDone (dt : Nat) (j : Nat) (i1 : Nat) (i2 : Nat) (s : State) :
    exec (.headsetMeasureDone dt j i1 i2) s = run (.headsetMeasureDone dt j i1 i2) s (measureDoneStep j i1 i2) := rfl
theorem exec_buttonPoll (dt : Nat) (j : Nat) (i : Nat) (s : State) :
    exec (.buttonPoll dt j i) s = run (.buttonPoll dt j i) s (buttonPollStep j i) := rfl
theorem exec_frameBoundary (dt : Nat) (inp : InputSet) (done : Bool) (s : State) :
    exec (.frameBoundary dt inp done) s = run (.frameBoundary dt inp done) s (frameBoundaryStep inp done) := rfl
theorem exec_engineWorkStart (dt : Nat) (s : State) :
    exec (.engineWorkStart dt) s = run (.engineWorkStart dt) s workStart := rfl
theorem exec_lateMuteStart (dt : Nat) (s : State) :
    exec (.lateMuteStart dt) s = run (.lateMuteStart dt) s lateMuteStartStep := rfl
theorem exec_lateMuteEnd (dt : Nat) (s : State) :
    exec (.lateMuteEnd dt) s = run (.lateMuteEnd dt) s lateMuteEndStep := rfl
theorem exec_engineMuteClear (dt : Nat) (s : State) :
    exec (.engineMuteClear dt) s = run (.engineMuteClear dt) s engineMuteClearStep := rfl
theorem exec_paceWindow (dt : Nat) (pace : Nat) (load : Nat) (s : State) :
    exec (.paceWindow dt pace load) s = run (.paceWindow dt pace load) s (paceWindowStep pace load) := rfl
theorem exec_schedApply (dt : Nat) (s : State) :
    exec (.schedApply dt) s = run (.schedApply dt) s schedApplyStep := rfl
theorem exec_cqRecordWrite (dt q : Nat) (s : State) :
    exec (.cqRecordWrite dt q) s = run (.cqRecordWrite dt q) s (cqRecordStep q) := rfl
theorem exec_eventLost (dt port : Nat) (s : State) :
    exec (.eventLost dt port) s = run (.eventLost dt port) s (fun a => a.flushLost port) := rfl
theorem exec_routeFadeEnd (dt : Nat) (dst : Nat) (s : State) :
    exec (.routeFadeEnd dt dst) s = run (.routeFadeEnd dt dst) s (routeFadeEndStep dst) := rfl
theorem exec_routeHeldApply (dt : Nat) (dst : Nat) (s : State) :
    exec (.routeHeldApply dt dst) s = run (.routeHeldApply dt dst) s
      (fun x => if x.frameAtHand then x.applyHeld dst x.apFrame x.apT else x) := rfl
theorem exec_zeroFallback (dt : Nat) (dst : Nat) (s : State) :
    exec (.zeroFallback dt dst) s = run (.zeroFallback dt dst) s
      (fun x => if x.frameAtHand then zeroFallbackStep dst x else x) := rfl
theorem exec_mixFadeEnd (dt : Nat) (s : State) :
    exec (.mixFadeEnd dt) s = run (.mixFadeEnd dt) s mixFadeEndStep := rfl
theorem exec_delayXfadeEnd (dt : Nat) (k : Nat) (s : State) :
    exec (.delayXfadeEnd dt k) s = run (.delayXfadeEnd dt k) s (delayXfadeEndStep k) := rfl
theorem exec_delayHeldApply (dt : Nat) (k : Nat) (s : State) :
    exec (.delayHeldApply dt k) s = run (.delayHeldApply dt k) s (delayHeldApplyStep k) := rfl
theorem exec_unbindFadeEnd (dt : Nat) (k : Nat) (s : State) :
    exec (.unbindFadeEnd dt k) s = run (.unbindFadeEnd dt k) s (unbindFadeEndStep k) := rfl
theorem exec_padSteppedStart (dt : Nat) (ch : Nat) (s : State) :
    exec (.padSteppedStart dt ch) s = run (.padSteppedStart dt ch) s (padSteppedStartStep ch) := rfl
theorem exec_padChangeDone (dt : Nat) (ch : Nat) (s : State) :
    exec (.padChangeDone dt ch) s = run (.padChangeDone dt ch) s (padChangeDoneStep ch) := rfl
theorem exec_mergeCalBlock (dt : Nat) (ch : Nat) (pair : Nat) (tjC : Int) (s : State) :
    exec (.mergeCalBlock dt ch pair tjC) s = run (.mergeCalBlock dt ch pair tjC) s (mergeCalBlockStep ch pair tjC) := rfl
theorem exec_frontEndPowered (dt : Nat) (ch : Nat) (s : State) :
    exec (.frontEndPowered dt ch) s = run (.frontEndPowered dt ch) s (frontEndPoweredStep ch) := rfl
theorem exec_settleEnd (dt : Nat) (ch : Nat) (s : State) :
    exec (.settleEnd dt ch) s = run (.settleEnd dt ch) s (settleEndStep ch) := rfl
theorem exec_linkChange (dt : Nat) (p : Nat) (speed : Nat) (an : Bool) (rf : Bool) (s : State) :
    exec (.linkChange dt p speed an rf) s = run (.linkChange dt p speed an rf) s
      (fun x => ttChecks (linkChangeStep p speed an rf x)) := rfl
theorem exec_ethFrameRx (dt : Nat) (p : Nat) (frame : List Byte) (ok : Bool) (s : State) :
    exec (.ethFrameRx dt p frame ok) s = run (.ethFrameRx dt p frame ok) s (ethRxStep p frame ok) := rfl
theorem exec_igmpReportSend (dt : Nat) (p : Nat) (s : State) :
    exec (.igmpReportSend dt p) s = run (.igmpReportSend dt p) s (igmpSendStep p) := rfl
theorem exec_txMediaPacket (dt : Nat) (p : Nat) (st : Nat) (s : State) :
    exec (.txMediaPacket dt p st) s = run (.txMediaPacket dt p st) s (txPacketStep p st) := rfl
theorem exec_hostFrameDepart (dt : Nat) (p : Nat) (s : State) :
    exec (.hostFrameDepart dt p) s = run (.hostFrameDepart dt p) s (hostDepartStep p) := rfl
theorem exec_rxNoSignal (dt : Nat) (st : Nat) (s : State) :
    exec (.rxNoSignal dt st) s = run (.rxNoSignal dt st) s (rxNoSignalStep st) := rfl
theorem exec_rxPathTimeout (dt : Nat) (st : Nat) (p : Nat) (s : State) :
    exec (.rxPathTimeout dt st p) s = run (.rxPathTimeout dt st p) s (rxPathTimeoutStep st p) := rfl
theorem exec_rxStream (dt : Nat) (st : Nat) (s : State) :
    exec (.rxStream dt st) s = run (.rxStream dt st) s (fun a => rxReport st a.landed) := rfl
theorem exec_fjarordEventSend (dt : Nat) (s : State) :
    exec (.fjarordEventSend dt) s = run (.fjarordEventSend dt) s fjEventStep := rfl
theorem exec_ptpDelayReqSend (dt : Nat) (t : Nat) (s : State) :
    exec (.ptpDelayReqSend dt t) s = run (.ptpDelayReqSend dt t) s (delayReqStep t) := rfl
theorem exec_leaderAnnounceSync (dt : Nat) (t : Nat) (sync : Bool) (s : State) :
    exec (.leaderAnnounceSync dt t sync) s = run (.leaderAnnounceSync dt t sync) s (leaderSendStep t sync) := rfl
theorem exec_announceTimeout (dt : Nat) (t : Nat) (s : State) :
    exec (.announceTimeout dt t) s = run (.announceTimeout dt t) s (announceTimeoutStep t) := rfl
theorem exec_followerForget (dt : Nat) (t : Nat) (s : State) :
    exec (.followerForget dt t) s = run (.followerForget dt t) s (followerForgetStep t) := rfl
theorem exec_trackerEval (dt : Nat) (s : State) :
    exec (.trackerEval dt) s = run (.trackerEval dt) s trackerEvalStep := rfl
theorem exec_stepApply (dt : Nat) (s : State) : exec (.stepApply dt) s = run (.stepApply dt) s stepApplyFrame := rfl
theorem exec_slewEnd (dt : Nat) (s : State) : exec (.slewEnd dt) s = run (.slewEnd dt) s slewEndStep := rfl
theorem exec_mpllRefLoss (dt : Nat) (m : Nat) (s : State) :
    exec (.mpllRefLoss dt m) s = run (.mpllRefLoss dt m) s (refLossStep m) := rfl
theorem exec_mpllRefReturn (dt : Nat) (m : Nat) (phi : Int) (ppb : Int) (s : State) :
    exec (.mpllRefReturn dt m phi ppb) s = run (.mpllRefReturn dt m phi ppb) s (refReturnStep m phi ppb) := rfl
theorem exec_mpllPhaseLock (dt : Nat) (m : Nat) (s : State) :
    exec (.mpllPhaseLock dt m) s = run (.mpllPhaseLock dt m) s (phaseLockStep m) := rfl
theorem exec_phaseSlewEnd (dt : Nat) (m : Nat) (s : State) :
    exec (.phaseSlewEnd dt m) s = run (.phaseSlewEnd dt m) s (phaseSlewEndStep m) := rfl
theorem exec_mpllLossOfLock (dt : Nat) (m : Nat) (s : State) :
    exec (.mpllLossOfLock dt m) s = run (.mpllLossOfLock dt m) s (lossOfLockStep m) := rfl
theorem exec_mpllRelockStep (dt : Nat) (m : Nat) (s : State) :
    exec (.mpllRelockStep dt m) s = run (.mpllRelockStep dt m) s (relockStep m) := rfl
theorem exec_mpllLock (dt : Nat) (m : Nat) (s : State) :
    exec (.mpllLock dt m) s = run (.mpllLock dt m) s (fun x => listenUp (pllLocked m x)) := rfl
theorem exec_rampSegmentEnd (dt : Nat) (m : Nat) (s : State) :
    exec (.rampSegmentEnd dt m) s = run (.rampSegmentEnd dt m) s (segmentEnd m) := rfl
theorem exec_pullRampEnd (dt : Nat) (m : Nat) (s : State) :
    exec (.pullRampEnd dt m) s = run (.pullRampEnd dt m) s (pullEndStep m) := rfl
theorem exec_rateChangeApply (dt : Nat) (s : State) :
    exec (.rateChangeApply dt) s = run (.rateChangeApply dt) s rateApplyStep := rfl
theorem exec_ckoApply (dt : Nat) (k : Nat) (s : State) :
    exec (.ckoApply dt k) s = run (.ckoApply dt k) s (ckoApplyStep k) := rfl
theorem exec_tpFrame (dt : Nat) (p : Nat) (slots : List Nat) (valid : Bool) (mhz : Nat) (s : State) :
    exec (.tpFrame dt p slots valid mhz) s = run (.tpFrame dt p slots valid mhz) s (tpFrameStep p slots valid mhz) := rfl
theorem exec_tpClockLoss (dt : Nat) (p : Nat) (s : State) :
    exec (.tpClockLoss dt p) s = run (.tpClockLoss dt p) s (tpClockLossStep p) := rfl
theorem exec_asrcLock (dt : Nat) (ch : Nat) (ratio : Nat) (s : State) :
    exec (.asrcLock dt ch ratio) s = run (.asrcLock dt ch ratio) s (asrcLockStep ch ratio) := rfl
theorem exec_asrcUnlock (dt : Nat) (ch : Nat) (ratio : Nat) (s : State) :
    exec (.asrcUnlock dt ch ratio) s = run (.asrcUnlock dt ch ratio) s (asrcUnlockStep ch ratio) := rfl
theorem exec_listenSample (dt : Nat) (m0 m1 : List Int) (s : State) :
    exec (.listenSample dt m0 m1) s = run (.listenSample dt m0 m1) s (listenSampleStep m0 m1) := rfl
theorem exec_listenClockSwitch (dt : Nat) (s : State) :
    exec (.listenClockSwitch dt) s = run (.listenClockSwitch dt) s
      (fun x => if x.listenRuns then { x with ls := { x.ls with clkSrc := x.listenSrc } } else x) := rfl
theorem exec_vadBlock (dt : Nat) (s : State) :
    exec (.vadBlock dt) s = run (.vadBlock dt) s (fun x => deferCheck (vadBlockStep x)) := rfl
theorem exec_phraseHop (dt : Nat) (s : State) : exec (.phraseHop dt) s = run (.phraseHop dt) s phraseHopStep := rfl
theorem exec_candidateTimeout (dt : Nat) (s : State) :
    exec (.candidateTimeout dt) s = run (.candidateTimeout dt) s (fun x => deferCheck (candTimeoutStep x)) := rfl
theorem exec_hibernateDeferralExpire (dt : Nat) (s : State) :
    exec (.hibernateDeferralExpire dt) s = run (.hibernateDeferralExpire dt) s deferExpireStep := rfl
theorem exec_historyWaitDone (dt : Nat) (s : State) :
    exec (.historyWaitDone dt) s = run (.historyWaitDone dt) s historyWaitStep := rfl
theorem exec_modelCommitDone (dt : Nat) (s : State) :
    exec (.modelCommitDone dt) s = run (.modelCommitDone dt) s (fun x => deferCheck (modelCommitStep x)) := rfl
theorem exec_gaugePassDue (dt : Nat) (c : Nat) (s : State) :
    exec (.gaugePassDue dt c) s = run (.gaugePassDue dt c) s (gaugePassDueStep c) := rfl
theorem exec_urgentConversionStart (dt : Nat) (c : Nat) (s : State) :
    exec (.urgentConversionStart dt c) s = run (.urgentConversionStart dt c) s (gaugeUrgStart c) := rfl
theorem exec_gaugeConversionEnd (dt : Nat) (c : Nat) (raw : Int) (ovr : Bool) (s : State) :
    exec (.gaugeConversionEnd dt c raw ovr) s = run (.gaugeConversionEnd dt c raw ovr) s (gaugeConvEnd c raw ovr) := rfl
theorem exec_gaugeCalStepDone (dt : Nat) (c : Nat) (raws : List Int) (ovrAt : Option Nat) (s : State) :
    exec (.gaugeCalStepDone dt c raws ovrAt) s = run (.gaugeCalStepDone dt c raws ovrAt) s (gaugeCalDone c raws ovrAt) := rfl
theorem exec_regionClearDone (dt : Nat) (s : State) :
    exec (.regionClearDone dt) s = run (.regionClearDone dt) s regionClearDoneStep := rfl
theorem exec_bulkTransferDone (dt : Nat) (s : State) :
    exec (.bulkTransferDone dt) s = run (.bulkTransferDone dt) s bulkTransferDoneStep := rfl
theorem exec_tw1AttemptStart (dt : Nat) (pulses : Nat) (stuck : Bool) (arb : Option (Nat × Nat)) (s : State) :
    exec (.tw1AttemptStart dt pulses stuck arb) s = run (.tw1AttemptStart dt pulses stuck arb) s (tw1AttemptStep pulses stuck arb) := rfl
theorem exec_tw1StretchTimeout (dt : Nat) (moved : Nat) (s : State) :
    exec (.tw1StretchTimeout dt moved) s = run (.tw1StretchTimeout dt moved) s (tw1StretchStep moved) := rfl
theorem exec_tw1XferDone (dt : Nat) (acked : Nat) (addrOk : Bool) (data : List Byte) (s : State) :
    exec (.tw1XferDone dt acked addrOk data) s = run (.tw1XferDone dt acked addrOk data) s (tw1DoneStep acked addrOk data) := rfl
theorem exec_rstNRelease (dt : Nat) (straps : Straps) (s : State) :
    exec (.rstNRelease dt straps) s = run (.rstNRelease dt straps) s (rstReleaseStep straps) := rfl
theorem exec_vaonValid (dt : Nat) (straps : Straps) (s : State) :
    exec (.vaonValid dt straps) s = run (.vaonValid dt straps) s (vaonValidStep straps) := rfl
theorem exec_crystalRestart (dt : Nat) (straps : Straps) (s : State) :
    exec (.crystalRestart dt straps) s = run (.crystalRestart dt straps) s (crystalRestartStep straps) := rfl
theorem exec_vcoreRecovery (dt : Nat) (mv : Nat) (s : State) :
    exec (.vcoreRecovery dt mv) s = run (.vcoreRecovery dt mv) s (vcoreRecoveryStep mv) := rfl
theorem exec_pwrEnRaise (dt : Nat) (s : State) : exec (.pwrEnRaise dt) s = run (.pwrEnRaise dt) s pwrRaiseStep := rfl
theorem exec_resetUnitDone (dt : Nat) (s : State) :
    exec (.resetUnitDone dt) s = run (.resetUnitDone dt) s resetUnitDoneStep := rfl
theorem exec_headsetMeasurementStart (dt : Nat) (j : Nat) (s : State) :
    exec (.headsetMeasurementStart dt j) s = run (.headsetMeasurementStart dt j) s (measureStartStep j) := rfl

/-- Every row but two runs one effect. -/
theorem exec_eq_run (i : Instr) (s : State) (h1 : ∀ dt, i ≠ .commandStart dt) (h2 : ∀ dt, i ≠ .configPacketRun dt) :
    ∃ f, exec i s = run i s f :=
  match i, h1, h2 with
  | .nop a b, _, _ => ⟨_, exec_nop a b s⟩
  | .caps a b, _, _ => ⟨_, exec_caps a b s⟩
  | .abort a b, _, _ => ⟨_, exec_abort a b s⟩
  | .resetUnit a b, _, _ => ⟨_, exec_resetUnit a b s⟩
  | .powerState a b, _, _ => ⟨_, exec_powerState a b s⟩
  | .eventMask a b, _, _ => ⟨_, exec_eventMask a b s⟩
  | .queueConfig a b, _, _ => ⟨_, exec_queueConfig a b s⟩
  | .timeRead a b, _, _ => ⟨_, exec_timeRead a b s⟩
  | .routeSet a b, _, _ => ⟨_, exec_routeSet a b s⟩
  | .routeGet a b, _, _ => ⟨_, exec_routeGet a b s⟩
  | .routeFadeCfg a b, _, _ => ⟨_, exec_routeFadeCfg a b s⟩
  | .mixStage a b, _, _ => ⟨_, exec_mixStage a b s⟩
  | .mixCommit a b, _, _ => ⟨_, exec_mixCommit a b s⟩
  | .busCfg a b, _, _ => ⟨_, exec_busCfg a b s⟩
  | .limiterCfg a b, _, _ => ⟨_, exec_limiterCfg a b s⟩
  | .meterCfg a b, _, _ => ⟨_, exec_meterCfg a b s⟩
  | .meterRead a b, _, _ => ⟨_, exec_meterRead a b s⟩
  | .meterReset a b, _, _ => ⟨_, exec_meterReset a b s⟩
  | .ainCfg a b, _, _ => ⟨_, exec_ainCfg a b s⟩
  | .ainPad a b, _, _ => ⟨_, exec_ainPad a b s⟩
  | .chainCfg a b, _, _ => ⟨_, exec_chainCfg a b s⟩
  | .chainSync a b, _, _ => ⟨_, exec_chainSync a b s⟩
  | .mergeStatus a b, _, _ => ⟨_, exec_mergeStatus a b s⟩
  | .outCfg a b, _, _ => ⟨_, exec_outCfg a b s⟩
  | .jackCfg a b, _, _ => ⟨_, exec_jackCfg a b s⟩
  | .firkinAlloc a b, _, _ => ⟨_, exec_firkinAlloc a b s⟩
  | .firkinFree a b, _, _ => ⟨_, exec_firkinFree a b s⟩
  | .delayCfg a b, _, _ => ⟨_, exec_delayCfg a b s⟩
  | .firkinRead a b, _, _ => ⟨_, exec_firkinRead a b s⟩
  | .firkinWrite a b, _, _ => ⟨_, exec_firkinWrite a b s⟩
  | .netPortCfg a b, _, _ => ⟨_, exec_netPortCfg a b s⟩
  | .txstreamCfg a b, _, _ => ⟨_, exec_txstreamCfg a b s⟩
  | .rxstreamCfg a b, _, _ => ⟨_, exec_rxstreamCfg a b s⟩
  | .hostFrameSend a b, _, _ => ⟨_, exec_hostFrameSend a b s⟩
  | .ptpCfg a b, _, _ => ⟨_, exec_ptpCfg a b s⟩
  | .ttSelect a b, _, _ => ⟨_, exec_ttSelect a b s⟩
  | .timePolicy a b, _, _ => ⟨_, exec_timePolicy a b s⟩
  | .pllCfg a b, _, _ => ⟨_, exec_pllCfg a b s⟩
  | .rampLoad a b, _, _ => ⟨_, exec_rampLoad a b s⟩
  | .ckoCfg a b, _, _ => ⟨_, exec_ckoCfg a b s⟩
  | .tdmCfg a b, _, _ => ⟨_, exec_tdmCfg a b s⟩
  | .asrcCfg a b, _, _ => ⟨_, exec_asrcCfg a b s⟩
  | .listenCfg a b, _, _ => ⟨_, exec_listenCfg a b s⟩
  | .modelLoad a b, _, _ => ⟨_, exec_modelLoad a b s⟩
  | .historyRead a b, _, _ => ⟨_, exec_historyRead a b s⟩
  | .gaugeSeq a b, _, _ => ⟨_, exec_gaugeSeq a b s⟩
  | .gaugeWindow a b, _, _ => ⟨_, exec_gaugeWindow a b s⟩
  | .gaugeCal a b, _, _ => ⟨_, exec_gaugeCal a b s⟩
  | .gaugeUrgent a b, _, _ => ⟨_, exec_gaugeUrgent a b s⟩
  | .gaugePlaus a b, _, _ => ⟨_, exec_gaugePlaus a b s⟩
  | .tw1Xfer a b, _, _ => ⟨_, exec_tw1Xfer a b s⟩
  | .portCfg a b, _, _ => ⟨_, exec_portCfg a b s⟩
  | .sqTailDoorbell a b c, _, _ => ⟨_, exec_sqTailDoorbell a b c s⟩
  | .cqHeadRelease a b c d, _, _ => ⟨_, exec_cqHeadRelease a b c d s⟩
  | .qStatOvfClear a b c d, _, _ => ⟨_, exec_qStatOvfClear a b c d s⟩
  | .irqStatClear a b c, _, _ => ⟨_, exec_irqStatClear a b c s⟩
  | .portErrClear a b c, _, _ => ⟨_, exec_portErrClear a b c s⟩
  | .snapLatch a b c, _, _ => ⟨_, exec_snapLatch a b c s⟩
  | .engPaceClear a b, _, _ => ⟨_, exec_engPaceClear a b s⟩
  | .engStatDiscClear a b, _, _ => ⟨_, exec_engStatDiscClear a b s⟩
  | .engLateClear a b, _, _ => ⟨_, exec_engLateClear a b s⟩
  | .registerWrite a b c d, _, _ => ⟨_, exec_registerWrite a b c d s⟩
  | .hostSlotRelease a b, _, _ => ⟨_, exec_hostSlotRelease a b s⟩
  | .read a b c, _, _ => ⟨_, exec_read a b c s⟩
  | .fastRead a b c, _, _ => ⟨_, exec_fastRead a b c s⟩
  | .quadRead a b c, _, _ => ⟨_, exec_quadRead a b c s⟩
  | .write a b c, _, _ => ⟨_, exec_write a b c s⟩
  | .quadWrite a b c, _, _ => ⟨_, exec_quadWrite a b c s⟩
  | .readStatus a b, _, _ => ⟨_, exec_readStatus a b s⟩
  | .readId a b, _, _ => ⟨_, exec_readId a b s⟩
  | .qspiUnknownInstruction a b, _, _ => ⟨_, exec_qspiUnknownInstruction a b s⟩
  | .tw0Write a b c, _, _ => ⟨_, exec_tw0Write a b c s⟩
  | .tw0Read a b, _, _ => ⟨_, exec_tw0Read a b s⟩
  | .tw0ReadShadowExpire a, _, _ => ⟨_, exec_tw0ReadShadowExpire a s⟩
  | .tw0WriteShadowExpire a, _, _ => ⟨_, exec_tw0WriteShadowExpire a s⟩
  | .tw0StuckRelease a, _, _ => ⟨_, exec_tw0StuckRelease a s⟩
  | .tw0WakeMatch a, _, _ => ⟨_, exec_tw0WakeMatch a s⟩
  | .extest a b, _, _ => ⟨_, exec_extest a b s⟩
  | .samplePreload a b, _, _ => ⟨_, exec_samplePreload a b s⟩
  | .idcode a, _, _ => ⟨_, exec_idcode a s⟩
  | .clamp a, _, _ => ⟨_, exec_clamp a s⟩
  | .highz a, _, _ => ⟨_, exec_highz a s⟩
  | .extestPulse a b, _, _ => ⟨_, exec_extestPulse a b s⟩
  | .extestTrain a b, _, _ => ⟨_, exec_extestTrain a b s⟩
  | .bypass a, _, _ => ⟨_, exec_bypass a s⟩
  | .tapReset a, _, _ => ⟨_, exec_tapReset a s⟩
  | .tmodeChange a b, _, _ => ⟨_, exec_tmodeChange a b s⟩
  | .rstNAssert a, _, _ => ⟨_, exec_rstNAssert a s⟩
  | .powerOnReset a, _, _ => ⟨_, exec_powerOnReset a s⟩
  | .crystalStop a, _, _ => ⟨_, exec_crystalStop a s⟩
  | .pgInRise a, _, _ => ⟨_, exec_pgInRise a s⟩
  | .bootStep a b c, _, _ => ⟨_, exec_bootStep a b c s⟩
  | .bootWindowPoll a, _, _ => ⟨_, exec_bootWindowPoll a s⟩
  | .configPacketRun dt, _, h => absurd rfl (h dt)
  | .configTimeout a, _, _ => ⟨_, exec_configTimeout a s⟩
  | .pgInLost a, _, _ => ⟨_, exec_pgInLost a s⟩
  | .pwrEnRetry a, _, _ => ⟨_, exec_pwrEnRetry a s⟩
  | .vcoreBrownOut a b, _, _ => ⟨_, exec_vcoreBrownOut a b s⟩
  | .vcoreLow a b, _, _ => ⟨_, exec_vcoreLow a b s⟩
  | .wakeN a, _, _ => ⟨_, exec_wakeN a s⟩
  | .heldWake a, _, _ => ⟨_, exec_heldWake a s⟩
  | .runEntryStep a, _, _ => ⟨_, exec_runEntryStep a s⟩
  | .hibernateEntryStep a, _, _ => ⟨_, exec_hibernateEntryStep a s⟩
  | .privNAssert a, _, _ => ⟨_, exec_privNAssert a s⟩
  | .privNRelease a, _, _ => ⟨_, exec_privNRelease a s⟩
  | .thermal a b c, _, _ => ⟨_, exec_thermal a b c s⟩
  | .thermalRestart a, _, _ => ⟨_, exec_thermalRestart a s⟩
  | .spkOvercurrent a b, _, _ => ⟨_, exec_spkOvercurrent a b s⟩
  | .spkDcFault a b, _, _ => ⟨_, exec_spkDcFault a b s⟩
  | .hpCurrentLimit a b, _, _ => ⟨_, exec_hpCurrentLimit a b s⟩
  | .pvddUnder a b, _, _ => ⟨_, exec_pvddUnder a b s⟩
  | .pvddOver a b, _, _ => ⟨_, exec_pvddOver a b s⟩
  | .pvddRecovery a b, _, _ => ⟨_, exec_pvddRecovery a b s⟩
  | .outSeqStep a b, _, _ => ⟨_, exec_outSeqStep a b s⟩
  | .cpRailLower a b, _, _ => ⟨_, exec_cpRailLower a b s⟩
  | .jackEdge a b c, _, _ => ⟨_, exec_jackEdge a b c s⟩
  | .jackDebounceExpire a b, _, _ => ⟨_, exec_jackDebounceExpire a b s⟩
  | .headsetMeasureDone a b c d, _, _ => ⟨_, exec_headsetMeasureDone a b c d s⟩
  | .buttonPoll a b c, _, _ => ⟨_, exec_buttonPoll a b c s⟩
  | .frameBoundary a b c, _, _ => ⟨_, exec_frameBoundary a b c s⟩
  | .engineWorkStart a, _, _ => ⟨_, exec_engineWorkStart a s⟩
  | .lateMuteStart a, _, _ => ⟨_, exec_lateMuteStart a s⟩
  | .lateMuteEnd a, _, _ => ⟨_, exec_lateMuteEnd a s⟩
  | .engineMuteClear a, _, _ => ⟨_, exec_engineMuteClear a s⟩
  | .paceWindow a b c, _, _ => ⟨_, exec_paceWindow a b c s⟩
  | .commandStart dt, h, _ => absurd rfl (h dt)
  | .schedApply a, _, _ => ⟨_, exec_schedApply a s⟩
  | .cqRecordWrite a b, _, _ => ⟨_, exec_cqRecordWrite a b s⟩
  | .eventLost a b, _, _ => ⟨_, exec_eventLost a b s⟩
  | .routeFadeEnd a b, _, _ => ⟨_, exec_routeFadeEnd a b s⟩
  | .routeHeldApply a b, _, _ => ⟨_, exec_routeHeldApply a b s⟩
  | .zeroFallback a b, _, _ => ⟨_, exec_zeroFallback a b s⟩
  | .mixFadeEnd a, _, _ => ⟨_, exec_mixFadeEnd a s⟩
  | .delayXfadeEnd a b, _, _ => ⟨_, exec_delayXfadeEnd a b s⟩
  | .delayHeldApply a b, _, _ => ⟨_, exec_delayHeldApply a b s⟩
  | .unbindFadeEnd a b, _, _ => ⟨_, exec_unbindFadeEnd a b s⟩
  | .padSteppedStart a b, _, _ => ⟨_, exec_padSteppedStart a b s⟩
  | .padChangeDone a b, _, _ => ⟨_, exec_padChangeDone a b s⟩
  | .mergeCalBlock a b c d, _, _ => ⟨_, exec_mergeCalBlock a b c d s⟩
  | .frontEndPowered a b, _, _ => ⟨_, exec_frontEndPowered a b s⟩
  | .settleEnd a b, _, _ => ⟨_, exec_settleEnd a b s⟩
  | .linkChange a b c d e, _, _ => ⟨_, exec_linkChange a b c d e s⟩
  | .ethFrameRx a b c d, _, _ => ⟨_, exec_ethFrameRx a b c d s⟩
  | .igmpReportSend a b, _, _ => ⟨_, exec_igmpReportSend a b s⟩
  | .txMediaPacket a b c, _, _ => ⟨_, exec_txMediaPacket a b c s⟩
  | .hostFrameDepart a b, _, _ => ⟨_, exec_hostFrameDepart a b s⟩
  | .rxNoSignal a b, _, _ => ⟨_, exec_rxNoSignal a b s⟩
  | .rxPathTimeout a b c, _, _ => ⟨_, exec_rxPathTimeout a b c s⟩
  | .rxStream a b, _, _ => ⟨_, exec_rxStream a b s⟩
  | .fjarordEventSend a, _, _ => ⟨_, exec_fjarordEventSend a s⟩
  | .ptpDelayReqSend a b, _, _ => ⟨_, exec_ptpDelayReqSend a b s⟩
  | .leaderAnnounceSync a b c, _, _ => ⟨_, exec_leaderAnnounceSync a b c s⟩
  | .announceTimeout a b, _, _ => ⟨_, exec_announceTimeout a b s⟩
  | .followerForget a b, _, _ => ⟨_, exec_followerForget a b s⟩
  | .trackerEval a, _, _ => ⟨_, exec_trackerEval a s⟩
  | .stepApply a, _, _ => ⟨_, exec_stepApply a s⟩
  | .slewEnd a, _, _ => ⟨_, exec_slewEnd a s⟩
  | .mpllRefLoss a b, _, _ => ⟨_, exec_mpllRefLoss a b s⟩
  | .mpllRefReturn a b c d, _, _ => ⟨_, exec_mpllRefReturn a b c d s⟩
  | .mpllPhaseLock a b, _, _ => ⟨_, exec_mpllPhaseLock a b s⟩
  | .phaseSlewEnd a b, _, _ => ⟨_, exec_phaseSlewEnd a b s⟩
  | .mpllLossOfLock a b, _, _ => ⟨_, exec_mpllLossOfLock a b s⟩
  | .mpllRelockStep a b, _, _ => ⟨_, exec_mpllRelockStep a b s⟩
  | .mpllLock a b, _, _ => ⟨_, exec_mpllLock a b s⟩
  | .rampSegmentEnd a b, _, _ => ⟨_, exec_rampSegmentEnd a b s⟩
  | .pullRampEnd a b, _, _ => ⟨_, exec_pullRampEnd a b s⟩
  | .rateChangeApply a, _, _ => ⟨_, exec_rateChangeApply a s⟩
  | .ckoApply a b, _, _ => ⟨_, exec_ckoApply a b s⟩
  | .tpFrame a b c d e, _, _ => ⟨_, exec_tpFrame a b c d e s⟩
  | .tpClockLoss a b, _, _ => ⟨_, exec_tpClockLoss a b s⟩
  | .asrcLock a b c, _, _ => ⟨_, exec_asrcLock a b c s⟩
  | .asrcUnlock a b c, _, _ => ⟨_, exec_asrcUnlock a b c s⟩
  | .listenSample a b c, _, _ => ⟨_, exec_listenSample a b c s⟩
  | .listenClockSwitch a, _, _ => ⟨_, exec_listenClockSwitch a s⟩
  | .vadBlock a, _, _ => ⟨_, exec_vadBlock a s⟩
  | .phraseHop a, _, _ => ⟨_, exec_phraseHop a s⟩
  | .candidateTimeout a, _, _ => ⟨_, exec_candidateTimeout a s⟩
  | .hibernateDeferralExpire a, _, _ => ⟨_, exec_hibernateDeferralExpire a s⟩
  | .historyWaitDone a, _, _ => ⟨_, exec_historyWaitDone a s⟩
  | .modelCommitDone a, _, _ => ⟨_, exec_modelCommitDone a s⟩
  | .gaugePassDue a b, _, _ => ⟨_, exec_gaugePassDue a b s⟩
  | .urgentConversionStart a b, _, _ => ⟨_, exec_urgentConversionStart a b s⟩
  | .gaugeConversionEnd a b c d, _, _ => ⟨_, exec_gaugeConversionEnd a b c d s⟩
  | .gaugeCalStepDone a b c d, _, _ => ⟨_, exec_gaugeCalStepDone a b c d s⟩
  | .regionClearDone a, _, _ => ⟨_, exec_regionClearDone a s⟩
  | .bulkTransferDone a, _, _ => ⟨_, exec_bulkTransferDone a s⟩
  | .tw1AttemptStart a b c d, _, _ => ⟨_, exec_tw1AttemptStart a b c d s⟩
  | .tw1StretchTimeout a b, _, _ => ⟨_, exec_tw1StretchTimeout a b s⟩
  | .tw1XferDone a b c d, _, _ => ⟨_, exec_tw1XferDone a b c d s⟩
  | .rstNRelease a b, _, _ => ⟨_, exec_rstNRelease a b s⟩
  | .vaonValid a b, _, _ => ⟨_, exec_vaonValid a b s⟩
  | .crystalRestart a b, _, _ => ⟨_, exec_crystalRestart a b s⟩
  | .vcoreRecovery a b, _, _ => ⟨_, exec_vcoreRecovery a b s⟩
  | .pwrEnRaise a, _, _ => ⟨_, exec_pwrEnRaise a s⟩
  | .resetUnitDone a, _, _ => ⟨_, exec_resetUnitDone a s⟩
  | .headsetMeasurementStart a b, _, _ => ⟨_, exec_headsetMeasurementStart a b s⟩

/-- A row that is a packet is the arrival of that packet. -/
theorem exec_packetRow {i : Instr} {opc : Nat} {c : Cmd} (s : State) (h : packetRow i = some (opc, c)) :
    exec i s = run i s (arrive opc c) ∧ i.wf = c.wf := by
  cases i <;> simp only [packetRow, Option.some.injEq, Prod.mk.injEq, reduceCtorEq] at h <;>
    (obtain ⟨rfl, rfl⟩ := h; exact ⟨rfl, rfl⟩)

theorem exec_packetRow_next {i : Instr} {opc : Nat} {c : Cmd} (s : State) (h : packetRow i = some (opc, c)) (hw : c.wf = true) :
    exec i s = .next (arrive opc c (s.advance i.dt)).flush := by
  obtain ⟨h1, h2⟩ := exec_packetRow s h
  rw [h1, run_next (by rw [h2, hw])]

end Sys2Proof.Machine
end

