-- ==== Sys2Proof/Laws/State.lean ====
section
/-!
SUPPORT. Per setter of a table: what is read back, and that every other piece of state stays. A proof rewrites with these and
never unfolds an update.
-/
namespace Sys2Proof.Machine
open Sys2Proof

@[simp] theorem State.route_setRoute (s : State) (k : Nat) (v : Route) : (s.setRoute k v).route k = v := tget_tset_same _ _ _ _
theorem State.route_setRoute_other (s : State) (k j : Nat) (v : Route) (h : j ≠ k) : (s.setRoute k v).route j = s.route j :=
  tget_tset_other _ _ _ _ _ h
@[simp] theorem State.setRoute_pending (s : State) (k : Nat) (v : Route) : (s.setRoute k v).pending = s.pending := rfl
@[simp] theorem State.setRoute_clk (s : State) (k : Nat) (v : Route) : (s.setRoute k v).clk = s.clk := rfl
@[simp] theorem State.setRoute_part (s : State) (k : Nat) (v : Route) : (s.setRoute k v).part = s.part := rfl
@[simp] theorem State.setRoute_pins (s : State) (k : Nat) (v : Route) : (s.setRoute k v).pins = s.pins := rfl
@[simp] theorem State.setRoute_env (s : State) (k : Nat) (v : Route) : (s.setRoute k v).env = s.env := rfl
@[simp] theorem State.setRoute_pwr (s : State) (k : Nat) (v : Route) : (s.setRoute k v).pwr = s.pwr := rfl
@[simp] theorem State.setRoute_jtag (s : State) (k : Nat) (v : Route) : (s.setRoute k v).jtag = s.jtag := rfl
@[simp] theorem State.setRoute_tm (s : State) (k : Nat) (v : Route) : (s.setRoute k v).tm = s.tm := rfl
@[simp] theorem State.setRoute_eng (s : State) (k : Nat) (v : Route) : (s.setRoute k v).eng = s.eng := rfl
@[simp] theorem State.setRoute_queues (s : State) (k : Nat) (v : Route) : (s.setRoute k v).queues = s.queues := rfl
@[simp] theorem State.setRoute_flight (s : State) (k : Nat) (v : Route) : (s.setRoute k v).flight = s.flight := rfl
@[simp] theorem State.setRoute_mem (s : State) (k : Nat) (v : Route) : (s.setRoute k v).mem = s.mem := rfl
@[simp] theorem State.setRoute_fk (s : State) (k : Nat) (v : Route) : (s.setRoute k v).fk = s.fk := rfl
@[simp] theorem State.setRoute_tw0 (s : State) (k : Nat) (v : Route) : (s.setRoute k v).tw0 = s.tw0 := rfl
@[simp] theorem State.setRoute_freeCtr (s : State) (k : Nat) (v : Route) : (s.setRoute k v).freeCtr = s.freeCtr := rfl
@[simp] theorem State.setRoute_outs (s : State) (k : Nat) (v : Route) : (s.setRoute k v).outs = s.outs := rfl
@[simp] theorem State.setRoute_grps (s : State) (k : Nat) (v : Route) : (s.setRoute k v).grps = s.grps := rfl
@[simp] theorem State.setRoute_lines (s : State) (k : Nat) (v : Route) : (s.setRoute k v).lines = s.lines := rfl
@[simp] theorem State.setRoute_tx (s : State) (k : Nat) (v : Route) : (s.setRoute k v).tx = s.tx := rfl
@[simp] theorem State.setRoute_rx (s : State) (k : Nat) (v : Route) : (s.setRoute k v).rx = s.rx := rfl
@[simp] theorem State.setRoute_plls (s : State) (k : Nat) (v : Route) : (s.setRoute k v).plls = s.plls := rfl
@[simp] theorem State.setRoute_rateChg (s : State) (k : Nat) (v : Route) : (s.setRoute k v).rateChg = s.rateChg := rfl
@[simp] theorem State.setRoute_ains (s : State) (k : Nat) (v : Route) : (s.setRoute k v).ains = s.ains := rfl

@[simp] theorem State.meter_setMeter (s : State) (k : Nat) (v : Meter) : (s.setMeter k v).meter k = v := tget_tset_same _ _ _ _
theorem State.meter_setMeter_other (s : State) (k j : Nat) (v : Meter) (h : j ≠ k) : (s.setMeter k v).meter j = s.meter j :=
  tget_tset_other _ _ _ _ _ h
@[simp] theorem State.setMeter_pending (s : State) (k : Nat) (v : Meter) : (s.setMeter k v).pending = s.pending := rfl
@[simp] theorem State.setMeter_clk (s : State) (k : Nat) (v : Meter) : (s.setMeter k v).clk = s.clk := rfl
@[simp] theorem State.setMeter_part (s : State) (k : Nat) (v : Meter) : (s.setMeter k v).part = s.part := rfl
@[simp] theorem State.setMeter_pins (s : State) (k : Nat) (v : Meter) : (s.setMeter k v).pins = s.pins := rfl
@[simp] theorem State.setMeter_env (s : State) (k : Nat) (v : Meter) : (s.setMeter k v).env = s.env := rfl
@[simp] theorem State.setMeter_pwr (s : State) (k : Nat) (v : Meter) : (s.setMeter k v).pwr = s.pwr := rfl
@[simp] theorem State.setMeter_jtag (s : State) (k : Nat) (v : Meter) : (s.setMeter k v).jtag = s.jtag := rfl
@[simp] theorem State.setMeter_tm (s : State) (k : Nat) (v : Meter) : (s.setMeter k v).tm = s.tm := rfl
@[simp] theorem State.setMeter_eng (s : State) (k : Nat) (v : Meter) : (s.setMeter k v).eng = s.eng := rfl
@[simp] theorem State.setMeter_queues (s : State) (k : Nat) (v : Meter) : (s.setMeter k v).queues = s.queues := rfl
@[simp] theorem State.setMeter_flight (s : State) (k : Nat) (v : Meter) : (s.setMeter k v).flight = s.flight := rfl
@[simp] theorem State.setMeter_mem (s : State) (k : Nat) (v : Meter) : (s.setMeter k v).mem = s.mem := rfl
@[simp] theorem State.setMeter_fk (s : State) (k : Nat) (v : Meter) : (s.setMeter k v).fk = s.fk := rfl
@[simp] theorem State.setMeter_tw0 (s : State) (k : Nat) (v : Meter) : (s.setMeter k v).tw0 = s.tw0 := rfl
@[simp] theorem State.setMeter_freeCtr (s : State) (k : Nat) (v : Meter) : (s.setMeter k v).freeCtr = s.freeCtr := rfl
@[simp] theorem State.setMeter_routes (s : State) (k : Nat) (v : Meter) : (s.setMeter k v).routes = s.routes := rfl
@[simp] theorem State.setMeter_outs (s : State) (k : Nat) (v : Meter) : (s.setMeter k v).outs = s.outs := rfl
@[simp] theorem State.setMeter_grps (s : State) (k : Nat) (v : Meter) : (s.setMeter k v).grps = s.grps := rfl
@[simp] theorem State.setMeter_lines (s : State) (k : Nat) (v : Meter) : (s.setMeter k v).lines = s.lines := rfl
@[simp] theorem State.setMeter_tx (s : State) (k : Nat) (v : Meter) : (s.setMeter k v).tx = s.tx := rfl
@[simp] theorem State.setMeter_rx (s : State) (k : Nat) (v : Meter) : (s.setMeter k v).rx = s.rx := rfl
@[simp] theorem State.setMeter_plls (s : State) (k : Nat) (v : Meter) : (s.setMeter k v).plls = s.plls := rfl
@[simp] theorem State.setMeter_rateChg (s : State) (k : Nat) (v : Meter) : (s.setMeter k v).rateChg = s.rateChg := rfl
@[simp] theorem State.setMeter_ains (s : State) (k : Nat) (v : Meter) : (s.setMeter k v).ains = s.ains := rfl

@[simp] theorem State.mixE_setMixE (s : State) (k : Nat) (v : MixE) : (s.setMixE k v).mixE k = v := tget_tset_same _ _ _ _
theorem State.mixE_setMixE_other (s : State) (k j : Nat) (v : MixE) (h : j ≠ k) : (s.setMixE k v).mixE j = s.mixE j :=
  tget_tset_other _ _ _ _ _ h
@[simp] theorem State.setMixE_pending (s : State) (k : Nat) (v : MixE) : (s.setMixE k v).pending = s.pending := rfl
@[simp] theorem State.setMixE_clk (s : State) (k : Nat) (v : MixE) : (s.setMixE k v).clk = s.clk := rfl
@[simp] theorem State.setMixE_part (s : State) (k : Nat) (v : MixE) : (s.setMixE k v).part = s.part := rfl
@[simp] theorem State.setMixE_pins (s : State) (k : Nat) (v : MixE) : (s.setMixE k v).pins = s.pins := rfl
@[simp] theorem State.setMixE_env (s : State) (k : Nat) (v : MixE) : (s.setMixE k v).env = s.env := rfl
@[simp] theorem State.setMixE_pwr (s : State) (k : Nat) (v : MixE) : (s.setMixE k v).pwr = s.pwr := rfl
@[simp] theorem State.setMixE_jtag (s : State) (k : Nat) (v : MixE) : (s.setMixE k v).jtag = s.jtag := rfl
@[simp] theorem State.setMixE_tm (s : State) (k : Nat) (v : MixE) : (s.setMixE k v).tm = s.tm := rfl
@[simp] theorem State.setMixE_eng (s : State) (k : Nat) (v : MixE) : (s.setMixE k v).eng = s.eng := rfl
@[simp] theorem State.setMixE_queues (s : State) (k : Nat) (v : MixE) : (s.setMixE k v).queues = s.queues := rfl
@[simp] theorem State.setMixE_flight (s : State) (k : Nat) (v : MixE) : (s.setMixE k v).flight = s.flight := rfl
@[simp] theorem State.setMixE_mem (s : State) (k : Nat) (v : MixE) : (s.setMixE k v).mem = s.mem := rfl
@[simp] theorem State.setMixE_fk (s : State) (k : Nat) (v : MixE) : (s.setMixE k v).fk = s.fk := rfl
@[simp] theorem State.setMixE_tw0 (s : State) (k : Nat) (v : MixE) : (s.setMixE k v).tw0 = s.tw0 := rfl
@[simp] theorem State.setMixE_freeCtr (s : State) (k : Nat) (v : MixE) : (s.setMixE k v).freeCtr = s.freeCtr := rfl
@[simp] theorem State.setMixE_routes (s : State) (k : Nat) (v : MixE) : (s.setMixE k v).routes = s.routes := rfl
@[simp] theorem State.setMixE_outs (s : State) (k : Nat) (v : MixE) : (s.setMixE k v).outs = s.outs := rfl
@[simp] theorem State.setMixE_grps (s : State) (k : Nat) (v : MixE) : (s.setMixE k v).grps = s.grps := rfl
@[simp] theorem State.setMixE_lines (s : State) (k : Nat) (v : MixE) : (s.setMixE k v).lines = s.lines := rfl
@[simp] theorem State.setMixE_tx (s : State) (k : Nat) (v : MixE) : (s.setMixE k v).tx = s.tx := rfl
@[simp] theorem State.setMixE_rx (s : State) (k : Nat) (v : MixE) : (s.setMixE k v).rx = s.rx := rfl
@[simp] theorem State.setMixE_plls (s : State) (k : Nat) (v : MixE) : (s.setMixE k v).plls = s.plls := rfl
@[simp] theorem State.setMixE_rateChg (s : State) (k : Nat) (v : MixE) : (s.setMixE k v).rateChg = s.rateChg := rfl
@[simp] theorem State.setMixE_ains (s : State) (k : Nat) (v : MixE) : (s.setMixE k v).ains = s.ains := rfl

@[simp] theorem State.bus_setBus (s : State) (k : Nat) (v : Bus) : (s.setBus k v).bus k = v := tget_tset_same _ _ _ _
theorem State.bus_setBus_other (s : State) (k j : Nat) (v : Bus) (h : j ≠ k) : (s.setBus k v).bus j = s.bus j :=
  tget_tset_other _ _ _ _ _ h
@[simp] theorem State.setBus_pending (s : State) (k : Nat) (v : Bus) : (s.setBus k v).pending = s.pending := rfl
@[simp] theorem State.setBus_clk (s : State) (k : Nat) (v : Bus) : (s.setBus k v).clk = s.clk := rfl
@[simp] theorem State.setBus_part (s : State) (k : Nat) (v : Bus) : (s.setBus k v).part = s.part := rfl
@[simp] theorem State.setBus_pins (s : State) (k : Nat) (v : Bus) : (s.setBus k v).pins = s.pins := rfl
@[simp] theorem State.setBus_env (s : State) (k : Nat) (v : Bus) : (s.setBus k v).env = s.env := rfl
@[simp] theorem State.setBus_pwr (s : State) (k : Nat) (v : Bus) : (s.setBus k v).pwr = s.pwr := rfl
@[simp] theorem State.setBus_jtag (s : State) (k : Nat) (v : Bus) : (s.setBus k v).jtag = s.jtag := rfl
@[simp] theorem State.setBus_tm (s : State) (k : Nat) (v : Bus) : (s.setBus k v).tm = s.tm := rfl
@[simp] theorem State.setBus_eng (s : State) (k : Nat) (v : Bus) : (s.setBus k v).eng = s.eng := rfl
@[simp] theorem State.setBus_queues (s : State) (k : Nat) (v : Bus) : (s.setBus k v).queues = s.queues := rfl
@[simp] theorem State.setBus_flight (s : State) (k : Nat) (v : Bus) : (s.setBus k v).flight = s.flight := rfl
@[simp] theorem State.setBus_mem (s : State) (k : Nat) (v : Bus) : (s.setBus k v).mem = s.mem := rfl
@[simp] theorem State.setBus_fk (s : State) (k : Nat) (v : Bus) : (s.setBus k v).fk = s.fk := rfl
@[simp] theorem State.setBus_tw0 (s : State) (k : Nat) (v : Bus) : (s.setBus k v).tw0 = s.tw0 := rfl
@[simp] theorem State.setBus_freeCtr (s : State) (k : Nat) (v : Bus) : (s.setBus k v).freeCtr = s.freeCtr := rfl
@[simp] theorem State.setBus_routes (s : State) (k : Nat) (v : Bus) : (s.setBus k v).routes = s.routes := rfl
@[simp] theorem State.setBus_outs (s : State) (k : Nat) (v : Bus) : (s.setBus k v).outs = s.outs := rfl
@[simp] theorem State.setBus_grps (s : State) (k : Nat) (v : Bus) : (s.setBus k v).grps = s.grps := rfl
@[simp] theorem State.setBus_lines (s : State) (k : Nat) (v : Bus) : (s.setBus k v).lines = s.lines := rfl
@[simp] theorem State.setBus_tx (s : State) (k : Nat) (v : Bus) : (s.setBus k v).tx = s.tx := rfl
@[simp] theorem State.setBus_rx (s : State) (k : Nat) (v : Bus) : (s.setBus k v).rx = s.rx := rfl
@[simp] theorem State.setBus_plls (s : State) (k : Nat) (v : Bus) : (s.setBus k v).plls = s.plls := rfl
@[simp] theorem State.setBus_rateChg (s : State) (k : Nat) (v : Bus) : (s.setBus k v).rateChg = s.rateChg := rfl
@[simp] theorem State.setBus_ains (s : State) (k : Nat) (v : Bus) : (s.setBus k v).ains = s.ains := rfl

@[simp] theorem State.line_setLine (s : State) (k : Nat) (v : Line) : (s.setLine k v).line k = v := tget_tset_same _ _ _ _
theorem State.line_setLine_other (s : State) (k j : Nat) (v : Line) (h : j ≠ k) : (s.setLine k v).line j = s.line j :=
  tget_tset_other _ _ _ _ _ h
@[simp] theorem State.setLine_pending (s : State) (k : Nat) (v : Line) : (s.setLine k v).pending = s.pending := rfl
@[simp] theorem State.setLine_clk (s : State) (k : Nat) (v : Line) : (s.setLine k v).clk = s.clk := rfl
@[simp] theorem State.setLine_part (s : State) (k : Nat) (v : Line) : (s.setLine k v).part = s.part := rfl
@[simp] theorem State.setLine_pins (s : State) (k : Nat) (v : Line) : (s.setLine k v).pins = s.pins := rfl
@[simp] theorem State.setLine_env (s : State) (k : Nat) (v : Line) : (s.setLine k v).env = s.env := rfl
@[simp] theorem State.setLine_pwr (s : State) (k : Nat) (v : Line) : (s.setLine k v).pwr = s.pwr := rfl
@[simp] theorem State.setLine_jtag (s : State) (k : Nat) (v : Line) : (s.setLine k v).jtag = s.jtag := rfl
@[simp] theorem State.setLine_tm (s : State) (k : Nat) (v : Line) : (s.setLine k v).tm = s.tm := rfl
@[simp] theorem State.setLine_eng (s : State) (k : Nat) (v : Line) : (s.setLine k v).eng = s.eng := rfl
@[simp] theorem State.setLine_queues (s : State) (k : Nat) (v : Line) : (s.setLine k v).queues = s.queues := rfl
@[simp] theorem State.setLine_flight (s : State) (k : Nat) (v : Line) : (s.setLine k v).flight = s.flight := rfl
@[simp] theorem State.setLine_mem (s : State) (k : Nat) (v : Line) : (s.setLine k v).mem = s.mem := rfl
@[simp] theorem State.setLine_fk (s : State) (k : Nat) (v : Line) : (s.setLine k v).fk = s.fk := rfl
@[simp] theorem State.setLine_tw0 (s : State) (k : Nat) (v : Line) : (s.setLine k v).tw0 = s.tw0 := rfl
@[simp] theorem State.setLine_freeCtr (s : State) (k : Nat) (v : Line) : (s.setLine k v).freeCtr = s.freeCtr := rfl
@[simp] theorem State.setLine_routes (s : State) (k : Nat) (v : Line) : (s.setLine k v).routes = s.routes := rfl
@[simp] theorem State.setLine_outs (s : State) (k : Nat) (v : Line) : (s.setLine k v).outs = s.outs := rfl
@[simp] theorem State.setLine_grps (s : State) (k : Nat) (v : Line) : (s.setLine k v).grps = s.grps := rfl
@[simp] theorem State.setLine_tx (s : State) (k : Nat) (v : Line) : (s.setLine k v).tx = s.tx := rfl
@[simp] theorem State.setLine_rx (s : State) (k : Nat) (v : Line) : (s.setLine k v).rx = s.rx := rfl
@[simp] theorem State.setLine_plls (s : State) (k : Nat) (v : Line) : (s.setLine k v).plls = s.plls := rfl
@[simp] theorem State.setLine_rateChg (s : State) (k : Nat) (v : Line) : (s.setLine k v).rateChg = s.rateChg := rfl
@[simp] theorem State.setLine_ains (s : State) (k : Nat) (v : Line) : (s.setLine k v).ains = s.ains := rfl

@[simp] theorem State.out_setOut (s : State) (k : Nat) (v : Out) : (s.setOut k v).out k = v := tget_tset_same _ _ _ _
theorem State.out_setOut_other (s : State) (k j : Nat) (v : Out) (h : j ≠ k) : (s.setOut k v).out j = s.out j :=
  tget_tset_other _ _ _ _ _ h
@[simp] theorem State.setOut_pending (s : State) (k : Nat) (v : Out) : (s.setOut k v).pending = s.pending := rfl
@[simp] theorem State.setOut_clk (s : State) (k : Nat) (v : Out) : (s.setOut k v).clk = s.clk := rfl
@[simp] theorem State.setOut_part (s : State) (k : Nat) (v : Out) : (s.setOut k v).part = s.part := rfl
@[simp] theorem State.setOut_pins (s : State) (k : Nat) (v : Out) : (s.setOut k v).pins = s.pins := rfl
@[simp] theorem State.setOut_env (s : State) (k : Nat) (v : Out) : (s.setOut k v).env = s.env := rfl
@[simp] theorem State.setOut_pwr (s : State) (k : Nat) (v : Out) : (s.setOut k v).pwr = s.pwr := rfl
@[simp] theorem State.setOut_jtag (s : State) (k : Nat) (v : Out) : (s.setOut k v).jtag = s.jtag := rfl
@[simp] theorem State.setOut_tm (s : State) (k : Nat) (v : Out) : (s.setOut k v).tm = s.tm := rfl
@[simp] theorem State.setOut_eng (s : State) (k : Nat) (v : Out) : (s.setOut k v).eng = s.eng := rfl
@[simp] theorem State.setOut_queues (s : State) (k : Nat) (v : Out) : (s.setOut k v).queues = s.queues := rfl
@[simp] theorem State.setOut_flight (s : State) (k : Nat) (v : Out) : (s.setOut k v).flight = s.flight := rfl
@[simp] theorem State.setOut_mem (s : State) (k : Nat) (v : Out) : (s.setOut k v).mem = s.mem := rfl
@[simp] theorem State.setOut_fk (s : State) (k : Nat) (v : Out) : (s.setOut k v).fk = s.fk := rfl
@[simp] theorem State.setOut_tw0 (s : State) (k : Nat) (v : Out) : (s.setOut k v).tw0 = s.tw0 := rfl
@[simp] theorem State.setOut_freeCtr (s : State) (k : Nat) (v : Out) : (s.setOut k v).freeCtr = s.freeCtr := rfl
@[simp] theorem State.setOut_routes (s : State) (k : Nat) (v : Out) : (s.setOut k v).routes = s.routes := rfl
@[simp] theorem State.setOut_grps (s : State) (k : Nat) (v : Out) : (s.setOut k v).grps = s.grps := rfl
@[simp] theorem State.setOut_lines (s : State) (k : Nat) (v : Out) : (s.setOut k v).lines = s.lines := rfl
@[simp] theorem State.setOut_tx (s : State) (k : Nat) (v : Out) : (s.setOut k v).tx = s.tx := rfl
@[simp] theorem State.setOut_rx (s : State) (k : Nat) (v : Out) : (s.setOut k v).rx = s.rx := rfl
@[simp] theorem State.setOut_plls (s : State) (k : Nat) (v : Out) : (s.setOut k v).plls = s.plls := rfl
@[simp] theorem State.setOut_rateChg (s : State) (k : Nat) (v : Out) : (s.setOut k v).rateChg = s.rateChg := rfl
@[simp] theorem State.setOut_ains (s : State) (k : Nat) (v : Out) : (s.setOut k v).ains = s.ains := rfl

@[simp] theorem State.grp_setGrp (s : State) (k : Nat) (v : Grp) : (s.setGrp k v).grp k = v := tget_tset_same _ _ _ _
theorem State.grp_setGrp_other (s : State) (k j : Nat) (v : Grp) (h : j ≠ k) : (s.setGrp k v).grp j = s.grp j :=
  tget_tset_other _ _ _ _ _ h
@[simp] theorem State.setGrp_pending (s : State) (k : Nat) (v : Grp) : (s.setGrp k v).pending = s.pending := rfl
@[simp] theorem State.setGrp_clk (s : State) (k : Nat) (v : Grp) : (s.setGrp k v).clk = s.clk := rfl
@[simp] theorem State.setGrp_part (s : State) (k : Nat) (v : Grp) : (s.setGrp k v).part = s.part := rfl
@[simp] theorem State.setGrp_pins (s : State) (k : Nat) (v : Grp) : (s.setGrp k v).pins = s.pins := rfl
@[simp] theorem State.setGrp_env (s : State) (k : Nat) (v : Grp) : (s.setGrp k v).env = s.env := rfl
@[simp] theorem State.setGrp_pwr (s : State) (k : Nat) (v : Grp) : (s.setGrp k v).pwr = s.pwr := rfl
@[simp] theorem State.setGrp_jtag (s : State) (k : Nat) (v : Grp) : (s.setGrp k v).jtag = s.jtag := rfl
@[simp] theorem State.setGrp_tm (s : State) (k : Nat) (v : Grp) : (s.setGrp k v).tm = s.tm := rfl
@[simp] theorem State.setGrp_eng (s : State) (k : Nat) (v : Grp) : (s.setGrp k v).eng = s.eng := rfl
@[simp] theorem State.setGrp_queues (s : State) (k : Nat) (v : Grp) : (s.setGrp k v).queues = s.queues := rfl
@[simp] theorem State.setGrp_flight (s : State) (k : Nat) (v : Grp) : (s.setGrp k v).flight = s.flight := rfl
@[simp] theorem State.setGrp_mem (s : State) (k : Nat) (v : Grp) : (s.setGrp k v).mem = s.mem := rfl
@[simp] theorem State.setGrp_fk (s : State) (k : Nat) (v : Grp) : (s.setGrp k v).fk = s.fk := rfl
@[simp] theorem State.setGrp_tw0 (s : State) (k : Nat) (v : Grp) : (s.setGrp k v).tw0 = s.tw0 := rfl
@[simp] theorem State.setGrp_freeCtr (s : State) (k : Nat) (v : Grp) : (s.setGrp k v).freeCtr = s.freeCtr := rfl
@[simp] theorem State.setGrp_routes (s : State) (k : Nat) (v : Grp) : (s.setGrp k v).routes = s.routes := rfl
@[simp] theorem State.setGrp_outs (s : State) (k : Nat) (v : Grp) : (s.setGrp k v).outs = s.outs := rfl
@[simp] theorem State.setGrp_lines (s : State) (k : Nat) (v : Grp) : (s.setGrp k v).lines = s.lines := rfl
@[simp] theorem State.setGrp_tx (s : State) (k : Nat) (v : Grp) : (s.setGrp k v).tx = s.tx := rfl
@[simp] theorem State.setGrp_rx (s : State) (k : Nat) (v : Grp) : (s.setGrp k v).rx = s.rx := rfl
@[simp] theorem State.setGrp_plls (s : State) (k : Nat) (v : Grp) : (s.setGrp k v).plls = s.plls := rfl
@[simp] theorem State.setGrp_rateChg (s : State) (k : Nat) (v : Grp) : (s.setGrp k v).rateChg = s.rateChg := rfl
@[simp] theorem State.setGrp_ains (s : State) (k : Nat) (v : Grp) : (s.setGrp k v).ains = s.ains := rfl

@[simp] theorem State.jack_setJack (s : State) (k : Nat) (v : Jack) : (s.setJack k v).jack k = v := tget_tset_same _ _ _ _
theorem State.jack_setJack_other (s : State) (k j : Nat) (v : Jack) (h : j ≠ k) : (s.setJack k v).jack j = s.jack j :=
  tget_tset_other _ _ _ _ _ h
@[simp] theorem State.setJack_pending (s : State) (k : Nat) (v : Jack) : (s.setJack k v).pending = s.pending := rfl
@[simp] theorem State.setJack_clk (s : State) (k : Nat) (v : Jack) : (s.setJack k v).clk = s.clk := rfl
@[simp] theorem State.setJack_part (s : State) (k : Nat) (v : Jack) : (s.setJack k v).part = s.part := rfl
@[simp] theorem State.setJack_pins (s : State) (k : Nat) (v : Jack) : (s.setJack k v).pins = s.pins := rfl
@[simp] theorem State.setJack_env (s : State) (k : Nat) (v : Jack) : (s.setJack k v).env = s.env := rfl
@[simp] theorem State.setJack_pwr (s : State) (k : Nat) (v : Jack) : (s.setJack k v).pwr = s.pwr := rfl
@[simp] theorem State.setJack_jtag (s : State) (k : Nat) (v : Jack) : (s.setJack k v).jtag = s.jtag := rfl
@[simp] theorem State.setJack_tm (s : State) (k : Nat) (v : Jack) : (s.setJack k v).tm = s.tm := rfl
@[simp] theorem State.setJack_eng (s : State) (k : Nat) (v : Jack) : (s.setJack k v).eng = s.eng := rfl
@[simp] theorem State.setJack_queues (s : State) (k : Nat) (v : Jack) : (s.setJack k v).queues = s.queues := rfl
@[simp] theorem State.setJack_flight (s : State) (k : Nat) (v : Jack) : (s.setJack k v).flight = s.flight := rfl
@[simp] theorem State.setJack_mem (s : State) (k : Nat) (v : Jack) : (s.setJack k v).mem = s.mem := rfl
@[simp] theorem State.setJack_fk (s : State) (k : Nat) (v : Jack) : (s.setJack k v).fk = s.fk := rfl
@[simp] theorem State.setJack_tw0 (s : State) (k : Nat) (v : Jack) : (s.setJack k v).tw0 = s.tw0 := rfl
@[simp] theorem State.setJack_freeCtr (s : State) (k : Nat) (v : Jack) : (s.setJack k v).freeCtr = s.freeCtr := rfl
@[simp] theorem State.setJack_routes (s : State) (k : Nat) (v : Jack) : (s.setJack k v).routes = s.routes := rfl
@[simp] theorem State.setJack_outs (s : State) (k : Nat) (v : Jack) : (s.setJack k v).outs = s.outs := rfl
@[simp] theorem State.setJack_grps (s : State) (k : Nat) (v : Jack) : (s.setJack k v).grps = s.grps := rfl
@[simp] theorem State.setJack_lines (s : State) (k : Nat) (v : Jack) : (s.setJack k v).lines = s.lines := rfl
@[simp] theorem State.setJack_tx (s : State) (k : Nat) (v : Jack) : (s.setJack k v).tx = s.tx := rfl
@[simp] theorem State.setJack_rx (s : State) (k : Nat) (v : Jack) : (s.setJack k v).rx = s.rx := rfl
@[simp] theorem State.setJack_plls (s : State) (k : Nat) (v : Jack) : (s.setJack k v).plls = s.plls := rfl
@[simp] theorem State.setJack_rateChg (s : State) (k : Nat) (v : Jack) : (s.setJack k v).rateChg = s.rateChg := rfl
@[simp] theorem State.setJack_ains (s : State) (k : Nat) (v : Jack) : (s.setJack k v).ains = s.ains := rfl

@[simp] theorem State.mb_setMb (s : State) (k : Nat) (v : MicB) : (s.setMb k v).mb k = v := tget_tset_same _ _ _ _
theorem State.mb_setMb_other (s : State) (k j : Nat) (v : MicB) (h : j ≠ k) : (s.setMb k v).mb j = s.mb j :=
  tget_tset_other _ _ _ _ _ h
@[simp] theorem State.setMb_pending (s : State) (k : Nat) (v : MicB) : (s.setMb k v).pending = s.pending := rfl
@[simp] theorem State.setMb_clk (s : State) (k : Nat) (v : MicB) : (s.setMb k v).clk = s.clk := rfl
@[simp] theorem State.setMb_part (s : State) (k : Nat) (v : MicB) : (s.setMb k v).part = s.part := rfl
@[simp] theorem State.setMb_pins (s : State) (k : Nat) (v : MicB) : (s.setMb k v).pins = s.pins := rfl
@[simp] theorem State.setMb_env (s : State) (k : Nat) (v : MicB) : (s.setMb k v).env = s.env := rfl
@[simp] theorem State.setMb_pwr (s : State) (k : Nat) (v : MicB) : (s.setMb k v).pwr = s.pwr := rfl
@[simp] theorem State.setMb_jtag (s : State) (k : Nat) (v : MicB) : (s.setMb k v).jtag = s.jtag := rfl
@[simp] theorem State.setMb_tm (s : State) (k : Nat) (v : MicB) : (s.setMb k v).tm = s.tm := rfl
@[simp] theorem State.setMb_eng (s : State) (k : Nat) (v : MicB) : (s.setMb k v).eng = s.eng := rfl
@[simp] theorem State.setMb_queues (s : State) (k : Nat) (v : MicB) : (s.setMb k v).queues = s.queues := rfl
@[simp] theorem State.setMb_flight (s : State) (k : Nat) (v : MicB) : (s.setMb k v).flight = s.flight := rfl
@[simp] theorem State.setMb_mem (s : State) (k : Nat) (v : MicB) : (s.setMb k v).mem = s.mem := rfl
@[simp] theorem State.setMb_fk (s : State) (k : Nat) (v : MicB) : (s.setMb k v).fk = s.fk := rfl
@[simp] theorem State.setMb_tw0 (s : State) (k : Nat) (v : MicB) : (s.setMb k v).tw0 = s.tw0 := rfl
@[simp] theorem State.setMb_freeCtr (s : State) (k : Nat) (v : MicB) : (s.setMb k v).freeCtr = s.freeCtr := rfl
@[simp] theorem State.setMb_routes (s : State) (k : Nat) (v : MicB) : (s.setMb k v).routes = s.routes := rfl
@[simp] theorem State.setMb_outs (s : State) (k : Nat) (v : MicB) : (s.setMb k v).outs = s.outs := rfl
@[simp] theorem State.setMb_grps (s : State) (k : Nat) (v : MicB) : (s.setMb k v).grps = s.grps := rfl
@[simp] theorem State.setMb_lines (s : State) (k : Nat) (v : MicB) : (s.setMb k v).lines = s.lines := rfl
@[simp] theorem State.setMb_tx (s : State) (k : Nat) (v : MicB) : (s.setMb k v).tx = s.tx := rfl
@[simp] theorem State.setMb_rx (s : State) (k : Nat) (v : MicB) : (s.setMb k v).rx = s.rx := rfl
@[simp] theorem State.setMb_plls (s : State) (k : Nat) (v : MicB) : (s.setMb k v).plls = s.plls := rfl
@[simp] theorem State.setMb_rateChg (s : State) (k : Nat) (v : MicB) : (s.setMb k v).rateChg = s.rateChg := rfl
@[simp] theorem State.setMb_ains (s : State) (k : Nat) (v : MicB) : (s.setMb k v).ains = s.ains := rfl

@[simp] theorem State.ain_setAin (s : State) (k : Nat) (v : Ain) : (s.setAin k v).ain k = v := tget_tset_same _ _ _ _
theorem State.ain_setAin_other (s : State) (k j : Nat) (v : Ain) (h : j ≠ k) : (s.setAin k v).ain j = s.ain j :=
  tget_tset_other _ _ _ _ _ h
@[simp] theorem State.setAin_pending (s : State) (k : Nat) (v : Ain) : (s.setAin k v).pending = s.pending := rfl
@[simp] theorem State.setAin_clk (s : State) (k : Nat) (v : Ain) : (s.setAin k v).clk = s.clk := rfl
@[simp] theorem State.setAin_part (s : State) (k : Nat) (v : Ain) : (s.setAin k v).part = s.part := rfl
@[simp] theorem State.setAin_pins (s : State) (k : Nat) (v : Ain) : (s.setAin k v).pins = s.pins := rfl
@[simp] theorem State.setAin_env (s : State) (k : Nat) (v : Ain) : (s.setAin k v).env = s.env := rfl
@[simp] theorem State.setAin_pwr (s : State) (k : Nat) (v : Ain) : (s.setAin k v).pwr = s.pwr := rfl
@[simp] theorem State.setAin_jtag (s : State) (k : Nat) (v : Ain) : (s.setAin k v).jtag = s.jtag := rfl
@[simp] theorem State.setAin_tm (s : State) (k : Nat) (v : Ain) : (s.setAin k v).tm = s.tm := rfl
@[simp] theorem State.setAin_eng (s : State) (k : Nat) (v : Ain) : (s.setAin k v).eng = s.eng := rfl
@[simp] theorem State.setAin_queues (s : State) (k : Nat) (v : Ain) : (s.setAin k v).queues = s.queues := rfl
@[simp] theorem State.setAin_flight (s : State) (k : Nat) (v : Ain) : (s.setAin k v).flight = s.flight := rfl
@[simp] theorem State.setAin_mem (s : State) (k : Nat) (v : Ain) : (s.setAin k v).mem = s.mem := rfl
@[simp] theorem State.setAin_fk (s : State) (k : Nat) (v : Ain) : (s.setAin k v).fk = s.fk := rfl
@[simp] theorem State.setAin_tw0 (s : State) (k : Nat) (v : Ain) : (s.setAin k v).tw0 = s.tw0 := rfl
@[simp] theorem State.setAin_freeCtr (s : State) (k : Nat) (v : Ain) : (s.setAin k v).freeCtr = s.freeCtr := rfl
@[simp] theorem State.setAin_routes (s : State) (k : Nat) (v : Ain) : (s.setAin k v).routes = s.routes := rfl
@[simp] theorem State.setAin_outs (s : State) (k : Nat) (v : Ain) : (s.setAin k v).outs = s.outs := rfl
@[simp] theorem State.setAin_grps (s : State) (k : Nat) (v : Ain) : (s.setAin k v).grps = s.grps := rfl
@[simp] theorem State.setAin_lines (s : State) (k : Nat) (v : Ain) : (s.setAin k v).lines = s.lines := rfl
@[simp] theorem State.setAin_tx (s : State) (k : Nat) (v : Ain) : (s.setAin k v).tx = s.tx := rfl
@[simp] theorem State.setAin_rx (s : State) (k : Nat) (v : Ain) : (s.setAin k v).rx = s.rx := rfl
@[simp] theorem State.setAin_plls (s : State) (k : Nat) (v : Ain) : (s.setAin k v).plls = s.plls := rfl
@[simp] theorem State.setAin_rateChg (s : State) (k : Nat) (v : Ain) : (s.setAin k v).rateChg = s.rateChg := rfl

@[simp] theorem State.netP_setNet (s : State) (k : Nat) (v : Net) : (s.setNet k v).netP k = v := tget_tset_same _ _ _ _
theorem State.netP_setNet_other (s : State) (k j : Nat) (v : Net) (h : j ≠ k) : (s.setNet k v).netP j = s.netP j :=
  tget_tset_other _ _ _ _ _ h
@[simp] theorem State.setNet_pending (s : State) (k : Nat) (v : Net) : (s.setNet k v).pending = s.pending := rfl
@[simp] theorem State.setNet_clk (s : State) (k : Nat) (v : Net) : (s.setNet k v).clk = s.clk := rfl
@[simp] theorem State.setNet_part (s : State) (k : Nat) (v : Net) : (s.setNet k v).part = s.part := rfl
@[simp] theorem State.setNet_pins (s : State) (k : Nat) (v : Net) : (s.setNet k v).pins = s.pins := rfl
@[simp] theorem State.setNet_env (s : State) (k : Nat) (v : Net) : (s.setNet k v).env = s.env := rfl
@[simp] theorem State.setNet_pwr (s : State) (k : Nat) (v : Net) : (s.setNet k v).pwr = s.pwr := rfl
@[simp] theorem State.setNet_jtag (s : State) (k : Nat) (v : Net) : (s.setNet k v).jtag = s.jtag := rfl
@[simp] theorem State.setNet_tm (s : State) (k : Nat) (v : Net) : (s.setNet k v).tm = s.tm := rfl
@[simp] theorem State.setNet_eng (s : State) (k : Nat) (v : Net) : (s.setNet k v).eng = s.eng := rfl
@[simp] theorem State.setNet_queues (s : State) (k : Nat) (v : Net) : (s.setNet k v).queues = s.queues := rfl
@[simp] theorem State.setNet_flight (s : State) (k : Nat) (v : Net) : (s.setNet k v).flight = s.flight := rfl
@[simp] theorem State.setNet_mem (s : State) (k : Nat) (v : Net) : (s.setNet k v).mem = s.mem := rfl
@[simp] theorem State.setNet_fk (s : State) (k : Nat) (v : Net) : (s.setNet k v).fk = s.fk := rfl
@[simp] theorem State.setNet_tw0 (s : State) (k : Nat) (v : Net) : (s.setNet k v).tw0 = s.tw0 := rfl
@[simp] theorem State.setNet_freeCtr (s : State) (k : Nat) (v : Net) : (s.setNet k v).freeCtr = s.freeCtr := rfl
@[simp] theorem State.setNet_routes (s : State) (k : Nat) (v : Net) : (s.setNet k v).routes = s.routes := rfl
@[simp] theorem State.setNet_outs (s : State) (k : Nat) (v : Net) : (s.setNet k v).outs = s.outs := rfl
@[simp] theorem State.setNet_grps (s : State) (k : Nat) (v : Net) : (s.setNet k v).grps = s.grps := rfl
@[simp] theorem State.setNet_lines (s : State) (k : Nat) (v : Net) : (s.setNet k v).lines = s.lines := rfl
@[simp] theorem State.setNet_tx (s : State) (k : Nat) (v : Net) : (s.setNet k v).tx = s.tx := rfl
@[simp] theorem State.setNet_rx (s : State) (k : Nat) (v : Net) : (s.setNet k v).rx = s.rx := rfl
@[simp] theorem State.setNet_plls (s : State) (k : Nat) (v : Net) : (s.setNet k v).plls = s.plls := rfl
@[simp] theorem State.setNet_rateChg (s : State) (k : Nat) (v : Net) : (s.setNet k v).rateChg = s.rateChg := rfl
@[simp] theorem State.setNet_ains (s : State) (k : Nat) (v : Net) : (s.setNet k v).ains = s.ains := rfl

@[simp] theorem State.txs_setTx (s : State) (k : Nat) (v : Tx) : (s.setTx k v).txs k = v := tget_tset_same _ _ _ _
theorem State.txs_setTx_other (s : State) (k j : Nat) (v : Tx) (h : j ≠ k) : (s.setTx k v).txs j = s.txs j :=
  tget_tset_other _ _ _ _ _ h
@[simp] theorem State.setTx_pending (s : State) (k : Nat) (v : Tx) : (s.setTx k v).pending = s.pending := rfl
@[simp] theorem State.setTx_clk (s : State) (k : Nat) (v : Tx) : (s.setTx k v).clk = s.clk := rfl
@[simp] theorem State.setTx_part (s : State) (k : Nat) (v : Tx) : (s.setTx k v).part = s.part := rfl
@[simp] theorem State.setTx_pins (s : State) (k : Nat) (v : Tx) : (s.setTx k v).pins = s.pins := rfl
@[simp] theorem State.setTx_env (s : State) (k : Nat) (v : Tx) : (s.setTx k v).env = s.env := rfl
@[simp] theorem State.setTx_pwr (s : State) (k : Nat) (v : Tx) : (s.setTx k v).pwr = s.pwr := rfl
@[simp] theorem State.setTx_jtag (s : State) (k : Nat) (v : Tx) : (s.setTx k v).jtag = s.jtag := rfl
@[simp] theorem State.setTx_tm (s : State) (k : Nat) (v : Tx) : (s.setTx k v).tm = s.tm := rfl
@[simp] theorem State.setTx_eng (s : State) (k : Nat) (v : Tx) : (s.setTx k v).eng = s.eng := rfl
@[simp] theorem State.setTx_queues (s : State) (k : Nat) (v : Tx) : (s.setTx k v).queues = s.queues := rfl
@[simp] theorem State.setTx_flight (s : State) (k : Nat) (v : Tx) : (s.setTx k v).flight = s.flight := rfl
@[simp] theorem State.setTx_mem (s : State) (k : Nat) (v : Tx) : (s.setTx k v).mem = s.mem := rfl
@[simp] theorem State.setTx_fk (s : State) (k : Nat) (v : Tx) : (s.setTx k v).fk = s.fk := rfl
@[simp] theorem State.setTx_tw0 (s : State) (k : Nat) (v : Tx) : (s.setTx k v).tw0 = s.tw0 := rfl
@[simp] theorem State.setTx_freeCtr (s : State) (k : Nat) (v : Tx) : (s.setTx k v).freeCtr = s.freeCtr := rfl
@[simp] theorem State.setTx_routes (s : State) (k : Nat) (v : Tx) : (s.setTx k v).routes = s.routes := rfl
@[simp] theorem State.setTx_outs (s : State) (k : Nat) (v : Tx) : (s.setTx k v).outs = s.outs := rfl
@[simp] theorem State.setTx_grps (s : State) (k : Nat) (v : Tx) : (s.setTx k v).grps = s.grps := rfl
@[simp] theorem State.setTx_lines (s : State) (k : Nat) (v : Tx) : (s.setTx k v).lines = s.lines := rfl
@[simp] theorem State.setTx_rx (s : State) (k : Nat) (v : Tx) : (s.setTx k v).rx = s.rx := rfl
@[simp] theorem State.setTx_plls (s : State) (k : Nat) (v : Tx) : (s.setTx k v).plls = s.plls := rfl
@[simp] theorem State.setTx_rateChg (s : State) (k : Nat) (v : Tx) : (s.setTx k v).rateChg = s.rateChg := rfl
@[simp] theorem State.setTx_ains (s : State) (k : Nat) (v : Tx) : (s.setTx k v).ains = s.ains := rfl

@[simp] theorem State.rxs_setRx (s : State) (k : Nat) (v : Rx) : (s.setRx k v).rxs k = v := tget_tset_same _ _ _ _
theorem State.rxs_setRx_other (s : State) (k j : Nat) (v : Rx) (h : j ≠ k) : (s.setRx k v).rxs j = s.rxs j :=
  tget_tset_other _ _ _ _ _ h
@[simp] theorem State.setRx_pending (s : State) (k : Nat) (v : Rx) : (s.setRx k v).pending = s.pending := rfl
@[simp] theorem State.setRx_clk (s : State) (k : Nat) (v : Rx) : (s.setRx k v).clk = s.clk := rfl
@[simp] theorem State.setRx_part (s : State) (k : Nat) (v : Rx) : (s.setRx k v).part = s.part := rfl
@[simp] theorem State.setRx_pins (s : State) (k : Nat) (v : Rx) : (s.setRx k v).pins = s.pins := rfl
@[simp] theorem State.setRx_env (s : State) (k : Nat) (v : Rx) : (s.setRx k v).env = s.env := rfl
@[simp] theorem State.setRx_pwr (s : State) (k : Nat) (v : Rx) : (s.setRx k v).pwr = s.pwr := rfl
@[simp] theorem State.setRx_jtag (s : State) (k : Nat) (v : Rx) : (s.setRx k v).jtag = s.jtag := rfl
@[simp] theorem State.setRx_tm (s : State) (k : Nat) (v : Rx) : (s.setRx k v).tm = s.tm := rfl
@[simp] theorem State.setRx_eng (s : State) (k : Nat) (v : Rx) : (s.setRx k v).eng = s.eng := rfl
@[simp] theorem State.setRx_queues (s : State) (k : Nat) (v : Rx) : (s.setRx k v).queues = s.queues := rfl
@[simp] theorem State.setRx_flight (s : State) (k : Nat) (v : Rx) : (s.setRx k v).flight = s.flight := rfl
@[simp] theorem State.setRx_mem (s : State) (k : Nat) (v : Rx) : (s.setRx k v).mem = s.mem := rfl
@[simp] theorem State.setRx_fk (s : State) (k : Nat) (v : Rx) : (s.setRx k v).fk = s.fk := rfl
@[simp] theorem State.setRx_tw0 (s : State) (k : Nat) (v : Rx) : (s.setRx k v).tw0 = s.tw0 := rfl
@[simp] theorem State.setRx_freeCtr (s : State) (k : Nat) (v : Rx) : (s.setRx k v).freeCtr = s.freeCtr := rfl
@[simp] theorem State.setRx_routes (s : State) (k : Nat) (v : Rx) : (s.setRx k v).routes = s.routes := rfl
@[simp] theorem State.setRx_outs (s : State) (k : Nat) (v : Rx) : (s.setRx k v).outs = s.outs := rfl
@[simp] theorem State.setRx_grps (s : State) (k : Nat) (v : Rx) : (s.setRx k v).grps = s.grps := rfl
@[simp] theorem State.setRx_lines (s : State) (k : Nat) (v : Rx) : (s.setRx k v).lines = s.lines := rfl
@[simp] theorem State.setRx_tx (s : State) (k : Nat) (v : Rx) : (s.setRx k v).tx = s.tx := rfl
@[simp] theorem State.setRx_plls (s : State) (k : Nat) (v : Rx) : (s.setRx k v).plls = s.plls := rfl
@[simp] theorem State.setRx_rateChg (s : State) (k : Nat) (v : Rx) : (s.setRx k v).rateChg = s.rateChg := rfl
@[simp] theorem State.setRx_ains (s : State) (k : Nat) (v : Rx) : (s.setRx k v).ains = s.ains := rfl

@[simp] theorem State.pll_setPll (s : State) (k : Nat) (v : Pll) : (s.setPll k v).pll k = v := tget_tset_same _ _ _ _
theorem State.pll_setPll_other (s : State) (k j : Nat) (v : Pll) (h : j ≠ k) : (s.setPll k v).pll j = s.pll j :=
  tget_tset_other _ _ _ _ _ h
@[simp] theorem State.setPll_pending (s : State) (k : Nat) (v : Pll) : (s.setPll k v).pending = s.pending := rfl
@[simp] theorem State.setPll_clk (s : State) (k : Nat) (v : Pll) : (s.setPll k v).clk = s.clk := rfl
@[simp] theorem State.setPll_part (s : State) (k : Nat) (v : Pll) : (s.setPll k v).part = s.part := rfl
@[simp] theorem State.setPll_pins (s : State) (k : Nat) (v : Pll) : (s.setPll k v).pins = s.pins := rfl
@[simp] theorem State.setPll_env (s : State) (k : Nat) (v : Pll) : (s.setPll k v).env = s.env := rfl
@[simp] theorem State.setPll_pwr (s : State) (k : Nat) (v : Pll) : (s.setPll k v).pwr = s.pwr := rfl
@[simp] theorem State.setPll_jtag (s : State) (k : Nat) (v : Pll) : (s.setPll k v).jtag = s.jtag := rfl
@[simp] theorem State.setPll_tm (s : State) (k : Nat) (v : Pll) : (s.setPll k v).tm = s.tm := rfl
@[simp] theorem State.setPll_eng (s : State) (k : Nat) (v : Pll) : (s.setPll k v).eng = s.eng := rfl
@[simp] theorem State.setPll_queues (s : State) (k : Nat) (v : Pll) : (s.setPll k v).queues = s.queues := rfl
@[simp] theorem State.setPll_flight (s : State) (k : Nat) (v : Pll) : (s.setPll k v).flight = s.flight := rfl
@[simp] theorem State.setPll_mem (s : State) (k : Nat) (v : Pll) : (s.setPll k v).mem = s.mem := rfl
@[simp] theorem State.setPll_fk (s : State) (k : Nat) (v : Pll) : (s.setPll k v).fk = s.fk := rfl
@[simp] theorem State.setPll_tw0 (s : State) (k : Nat) (v : Pll) : (s.setPll k v).tw0 = s.tw0 := rfl
@[simp] theorem State.setPll_freeCtr (s : State) (k : Nat) (v : Pll) : (s.setPll k v).freeCtr = s.freeCtr := rfl
@[simp] theorem State.setPll_routes (s : State) (k : Nat) (v : Pll) : (s.setPll k v).routes = s.routes := rfl
@[simp] theorem State.setPll_outs (s : State) (k : Nat) (v : Pll) : (s.setPll k v).outs = s.outs := rfl
@[simp] theorem State.setPll_grps (s : State) (k : Nat) (v : Pll) : (s.setPll k v).grps = s.grps := rfl
@[simp] theorem State.setPll_lines (s : State) (k : Nat) (v : Pll) : (s.setPll k v).lines = s.lines := rfl
@[simp] theorem State.setPll_tx (s : State) (k : Nat) (v : Pll) : (s.setPll k v).tx = s.tx := rfl
@[simp] theorem State.setPll_rx (s : State) (k : Nat) (v : Pll) : (s.setPll k v).rx = s.rx := rfl
@[simp] theorem State.setPll_rateChg (s : State) (k : Nat) (v : Pll) : (s.setPll k v).rateChg = s.rateChg := rfl
@[simp] theorem State.setPll_ains (s : State) (k : Nat) (v : Pll) : (s.setPll k v).ains = s.ains := rfl

@[simp] theorem State.cko_setCko (s : State) (k : Nat) (v : Cko) : (s.setCko k v).cko k = v := tget_tset_same _ _ _ _
theorem State.cko_setCko_other (s : State) (k j : Nat) (v : Cko) (h : j ≠ k) : (s.setCko k v).cko j = s.cko j :=
  tget_tset_other _ _ _ _ _ h
@[simp] theorem State.setCko_pending (s : State) (k : Nat) (v : Cko) : (s.setCko k v).pending = s.pending := rfl
@[simp] theorem State.setCko_clk (s : State) (k : Nat) (v : Cko) : (s.setCko k v).clk = s.clk := rfl
@[simp] theorem State.setCko_part (s : State) (k : Nat) (v : Cko) : (s.setCko k v).part = s.part := rfl
@[simp] theorem State.setCko_pins (s : State) (k : Nat) (v : Cko) : (s.setCko k v).pins = s.pins := rfl
@[simp] theorem State.setCko_env (s : State) (k : Nat) (v : Cko) : (s.setCko k v).env = s.env := rfl
@[simp] theorem State.setCko_pwr (s : State) (k : Nat) (v : Cko) : (s.setCko k v).pwr = s.pwr := rfl
@[simp] theorem State.setCko_jtag (s : State) (k : Nat) (v : Cko) : (s.setCko k v).jtag = s.jtag := rfl
@[simp] theorem State.setCko_tm (s : State) (k : Nat) (v : Cko) : (s.setCko k v).tm = s.tm := rfl
@[simp] theorem State.setCko_eng (s : State) (k : Nat) (v : Cko) : (s.setCko k v).eng = s.eng := rfl
@[simp] theorem State.setCko_queues (s : State) (k : Nat) (v : Cko) : (s.setCko k v).queues = s.queues := rfl
@[simp] theorem State.setCko_flight (s : State) (k : Nat) (v : Cko) : (s.setCko k v).flight = s.flight := rfl
@[simp] theorem State.setCko_mem (s : State) (k : Nat) (v : Cko) : (s.setCko k v).mem = s.mem := rfl
@[simp] theorem State.setCko_fk (s : State) (k : Nat) (v : Cko) : (s.setCko k v).fk = s.fk := rfl
@[simp] theorem State.setCko_tw0 (s : State) (k : Nat) (v : Cko) : (s.setCko k v).tw0 = s.tw0 := rfl
@[simp] theorem State.setCko_freeCtr (s : State) (k : Nat) (v : Cko) : (s.setCko k v).freeCtr = s.freeCtr := rfl
@[simp] theorem State.setCko_routes (s : State) (k : Nat) (v : Cko) : (s.setCko k v).routes = s.routes := rfl
@[simp] theorem State.setCko_outs (s : State) (k : Nat) (v : Cko) : (s.setCko k v).outs = s.outs := rfl
@[simp] theorem State.setCko_grps (s : State) (k : Nat) (v : Cko) : (s.setCko k v).grps = s.grps := rfl
@[simp] theorem State.setCko_lines (s : State) (k : Nat) (v : Cko) : (s.setCko k v).lines = s.lines := rfl
@[simp] theorem State.setCko_tx (s : State) (k : Nat) (v : Cko) : (s.setCko k v).tx = s.tx := rfl
@[simp] theorem State.setCko_rx (s : State) (k : Nat) (v : Cko) : (s.setCko k v).rx = s.rx := rfl
@[simp] theorem State.setCko_plls (s : State) (k : Nat) (v : Cko) : (s.setCko k v).plls = s.plls := rfl
@[simp] theorem State.setCko_rateChg (s : State) (k : Nat) (v : Cko) : (s.setCko k v).rateChg = s.rateChg := rfl
@[simp] theorem State.setCko_ains (s : State) (k : Nat) (v : Cko) : (s.setCko k v).ains = s.ains := rfl

@[simp] theorem State.tp_setTp (s : State) (k : Nat) (v : Tp) : (s.setTp k v).tp k = v := tget_tset_same _ _ _ _
theorem State.tp_setTp_other (s : State) (k j : Nat) (v : Tp) (h : j ≠ k) : (s.setTp k v).tp j = s.tp j :=
  tget_tset_other _ _ _ _ _ h
@[simp] theorem State.setTp_pending (s : State) (k : Nat) (v : Tp) : (s.setTp k v).pending = s.pending := rfl
@[simp] theorem State.setTp_clk (s : State) (k : Nat) (v : Tp) : (s.setTp k v).clk = s.clk := rfl
@[simp] theorem State.setTp_part (s : State) (k : Nat) (v : Tp) : (s.setTp k v).part = s.part := rfl
@[simp] theorem State.setTp_pins (s : State) (k : Nat) (v : Tp) : (s.setTp k v).pins = s.pins := rfl
@[simp] theorem State.setTp_env (s : State) (k : Nat) (v : Tp) : (s.setTp k v).env = s.env := rfl
@[simp] theorem State.setTp_pwr (s : State) (k : Nat) (v : Tp) : (s.setTp k v).pwr = s.pwr := rfl
@[simp] theorem State.setTp_jtag (s : State) (k : Nat) (v : Tp) : (s.setTp k v).jtag = s.jtag := rfl
@[simp] theorem State.setTp_tm (s : State) (k : Nat) (v : Tp) : (s.setTp k v).tm = s.tm := rfl
@[simp] theorem State.setTp_eng (s : State) (k : Nat) (v : Tp) : (s.setTp k v).eng = s.eng := rfl
@[simp] theorem State.setTp_queues (s : State) (k : Nat) (v : Tp) : (s.setTp k v).queues = s.queues := rfl
@[simp] theorem State.setTp_flight (s : State) (k : Nat) (v : Tp) : (s.setTp k v).flight = s.flight := rfl
@[simp] theorem State.setTp_mem (s : State) (k : Nat) (v : Tp) : (s.setTp k v).mem = s.mem := rfl
@[simp] theorem State.setTp_fk (s : State) (k : Nat) (v : Tp) : (s.setTp k v).fk = s.fk := rfl
@[simp] theorem State.setTp_tw0 (s : State) (k : Nat) (v : Tp) : (s.setTp k v).tw0 = s.tw0 := rfl
@[simp] theorem State.setTp_freeCtr (s : State) (k : Nat) (v : Tp) : (s.setTp k v).freeCtr = s.freeCtr := rfl
@[simp] theorem State.setTp_routes (s : State) (k : Nat) (v : Tp) : (s.setTp k v).routes = s.routes := rfl
@[simp] theorem State.setTp_outs (s : State) (k : Nat) (v : Tp) : (s.setTp k v).outs = s.outs := rfl
@[simp] theorem State.setTp_grps (s : State) (k : Nat) (v : Tp) : (s.setTp k v).grps = s.grps := rfl
@[simp] theorem State.setTp_lines (s : State) (k : Nat) (v : Tp) : (s.setTp k v).lines = s.lines := rfl
@[simp] theorem State.setTp_tx (s : State) (k : Nat) (v : Tp) : (s.setTp k v).tx = s.tx := rfl
@[simp] theorem State.setTp_rx (s : State) (k : Nat) (v : Tp) : (s.setTp k v).rx = s.rx := rfl
@[simp] theorem State.setTp_plls (s : State) (k : Nat) (v : Tp) : (s.setTp k v).plls = s.plls := rfl
@[simp] theorem State.setTp_rateChg (s : State) (k : Nat) (v : Tp) : (s.setTp k v).rateChg = s.rateChg := rfl
@[simp] theorem State.setTp_ains (s : State) (k : Nat) (v : Tp) : (s.setTp k v).ains = s.ains := rfl

@[simp] theorem State.asr_setAsr (s : State) (k : Nat) (v : Asrc) : (s.setAsr k v).asr k = v := tget_tset_same _ _ _ _
theorem State.asr_setAsr_other (s : State) (k j : Nat) (v : Asrc) (h : j ≠ k) : (s.setAsr k v).asr j = s.asr j :=
  tget_tset_other _ _ _ _ _ h
@[simp] theorem State.setAsr_pending (s : State) (k : Nat) (v : Asrc) : (s.setAsr k v).pending = s.pending := rfl
@[simp] theorem State.setAsr_clk (s : State) (k : Nat) (v : Asrc) : (s.setAsr k v).clk = s.clk := rfl
@[simp] theorem State.setAsr_part (s : State) (k : Nat) (v : Asrc) : (s.setAsr k v).part = s.part := rfl
@[simp] theorem State.setAsr_pins (s : State) (k : Nat) (v : Asrc) : (s.setAsr k v).pins = s.pins := rfl
@[simp] theorem State.setAsr_env (s : State) (k : Nat) (v : Asrc) : (s.setAsr k v).env = s.env := rfl
@[simp] theorem State.setAsr_pwr (s : State) (k : Nat) (v : Asrc) : (s.setAsr k v).pwr = s.pwr := rfl
@[simp] theorem State.setAsr_jtag (s : State) (k : Nat) (v : Asrc) : (s.setAsr k v).jtag = s.jtag := rfl
@[simp] theorem State.setAsr_tm (s : State) (k : Nat) (v : Asrc) : (s.setAsr k v).tm = s.tm := rfl
@[simp] theorem State.setAsr_eng (s : State) (k : Nat) (v : Asrc) : (s.setAsr k v).eng = s.eng := rfl
@[simp] theorem State.setAsr_queues (s : State) (k : Nat) (v : Asrc) : (s.setAsr k v).queues = s.queues := rfl
@[simp] theorem State.setAsr_flight (s : State) (k : Nat) (v : Asrc) : (s.setAsr k v).flight = s.flight := rfl
@[simp] theorem State.setAsr_mem (s : State) (k : Nat) (v : Asrc) : (s.setAsr k v).mem = s.mem := rfl
@[simp] theorem State.setAsr_fk (s : State) (k : Nat) (v : Asrc) : (s.setAsr k v).fk = s.fk := rfl
@[simp] theorem State.setAsr_tw0 (s : State) (k : Nat) (v : Asrc) : (s.setAsr k v).tw0 = s.tw0 := rfl
@[simp] theorem State.setAsr_freeCtr (s : State) (k : Nat) (v : Asrc) : (s.setAsr k v).freeCtr = s.freeCtr := rfl
@[simp] theorem State.setAsr_routes (s : State) (k : Nat) (v : Asrc) : (s.setAsr k v).routes = s.routes := rfl
@[simp] theorem State.setAsr_outs (s : State) (k : Nat) (v : Asrc) : (s.setAsr k v).outs = s.outs := rfl
@[simp] theorem State.setAsr_grps (s : State) (k : Nat) (v : Asrc) : (s.setAsr k v).grps = s.grps := rfl
@[simp] theorem State.setAsr_lines (s : State) (k : Nat) (v : Asrc) : (s.setAsr k v).lines = s.lines := rfl
@[simp] theorem State.setAsr_tx (s : State) (k : Nat) (v : Asrc) : (s.setAsr k v).tx = s.tx := rfl
@[simp] theorem State.setAsr_rx (s : State) (k : Nat) (v : Asrc) : (s.setAsr k v).rx = s.rx := rfl
@[simp] theorem State.setAsr_plls (s : State) (k : Nat) (v : Asrc) : (s.setAsr k v).plls = s.plls := rfl
@[simp] theorem State.setAsr_rateChg (s : State) (k : Nat) (v : Asrc) : (s.setAsr k v).rateChg = s.rateChg := rfl
@[simp] theorem State.setAsr_ains (s : State) (k : Nat) (v : Asrc) : (s.setAsr k v).ains = s.ains := rfl

@[simp] theorem State.win_setWin (s : State) (k : Nat) (v : GWin) : (s.setWin k v).win k = v := tget_tset_same _ _ _ _
theorem State.win_setWin_other (s : State) (k j : Nat) (v : GWin) (h : j ≠ k) : (s.setWin k v).win j = s.win j :=
  tget_tset_other _ _ _ _ _ h
@[simp] theorem State.setWin_pending (s : State) (k : Nat) (v : GWin) : (s.setWin k v).pending = s.pending := rfl
@[simp] theorem State.setWin_clk (s : State) (k : Nat) (v : GWin) : (s.setWin k v).clk = s.clk := rfl
@[simp] theorem State.setWin_part (s : State) (k : Nat) (v : GWin) : (s.setWin k v).part = s.part := rfl
@[simp] theorem State.setWin_pins (s : State) (k : Nat) (v : GWin) : (s.setWin k v).pins = s.pins := rfl
@[simp] theorem State.setWin_env (s : State) (k : Nat) (v : GWin) : (s.setWin k v).env = s.env := rfl
@[simp] theorem State.setWin_pwr (s : State) (k : Nat) (v : GWin) : (s.setWin k v).pwr = s.pwr := rfl
@[simp] theorem State.setWin_jtag (s : State) (k : Nat) (v : GWin) : (s.setWin k v).jtag = s.jtag := rfl
@[simp] theorem State.setWin_tm (s : State) (k : Nat) (v : GWin) : (s.setWin k v).tm = s.tm := rfl
@[simp] theorem State.setWin_eng (s : State) (k : Nat) (v : GWin) : (s.setWin k v).eng = s.eng := rfl
@[simp] theorem State.setWin_queues (s : State) (k : Nat) (v : GWin) : (s.setWin k v).queues = s.queues := rfl
@[simp] theorem State.setWin_flight (s : State) (k : Nat) (v : GWin) : (s.setWin k v).flight = s.flight := rfl
@[simp] theorem State.setWin_mem (s : State) (k : Nat) (v : GWin) : (s.setWin k v).mem = s.mem := rfl
@[simp] theorem State.setWin_fk (s : State) (k : Nat) (v : GWin) : (s.setWin k v).fk = s.fk := rfl
@[simp] theorem State.setWin_tw0 (s : State) (k : Nat) (v : GWin) : (s.setWin k v).tw0 = s.tw0 := rfl
@[simp] theorem State.setWin_freeCtr (s : State) (k : Nat) (v : GWin) : (s.setWin k v).freeCtr = s.freeCtr := rfl
@[simp] theorem State.setWin_routes (s : State) (k : Nat) (v : GWin) : (s.setWin k v).routes = s.routes := rfl
@[simp] theorem State.setWin_outs (s : State) (k : Nat) (v : GWin) : (s.setWin k v).outs = s.outs := rfl
@[simp] theorem State.setWin_grps (s : State) (k : Nat) (v : GWin) : (s.setWin k v).grps = s.grps := rfl
@[simp] theorem State.setWin_lines (s : State) (k : Nat) (v : GWin) : (s.setWin k v).lines = s.lines := rfl
@[simp] theorem State.setWin_tx (s : State) (k : Nat) (v : GWin) : (s.setWin k v).tx = s.tx := rfl
@[simp] theorem State.setWin_rx (s : State) (k : Nat) (v : GWin) : (s.setWin k v).rx = s.rx := rfl
@[simp] theorem State.setWin_plls (s : State) (k : Nat) (v : GWin) : (s.setWin k v).plls = s.plls := rfl
@[simp] theorem State.setWin_rateChg (s : State) (k : Nat) (v : GWin) : (s.setWin k v).rateChg = s.rateChg := rfl
@[simp] theorem State.setWin_ains (s : State) (k : Nat) (v : GWin) : (s.setWin k v).ains = s.ains := rfl

@[simp] theorem State.calS_setCal (s : State) (k : Nat) (v : GCal) : (s.setCal k v).calS k = v := tget_tset_same _ _ _ _
theorem State.calS_setCal_other (s : State) (k j : Nat) (v : GCal) (h : j ≠ k) : (s.setCal k v).calS j = s.calS j :=
  tget_tset_other _ _ _ _ _ h
@[simp] theorem State.setCal_pending (s : State) (k : Nat) (v : GCal) : (s.setCal k v).pending = s.pending := rfl
@[simp] theorem State.setCal_clk (s : State) (k : Nat) (v : GCal) : (s.setCal k v).clk = s.clk := rfl
@[simp] theorem State.setCal_part (s : State) (k : Nat) (v : GCal) : (s.setCal k v).part = s.part := rfl
@[simp] theorem State.setCal_pins (s : State) (k : Nat) (v : GCal) : (s.setCal k v).pins = s.pins := rfl
@[simp] theorem State.setCal_env (s : State) (k : Nat) (v : GCal) : (s.setCal k v).env = s.env := rfl
@[simp] theorem State.setCal_pwr (s : State) (k : Nat) (v : GCal) : (s.setCal k v).pwr = s.pwr := rfl
@[simp] theorem State.setCal_jtag (s : State) (k : Nat) (v : GCal) : (s.setCal k v).jtag = s.jtag := rfl
@[simp] theorem State.setCal_tm (s : State) (k : Nat) (v : GCal) : (s.setCal k v).tm = s.tm := rfl
@[simp] theorem State.setCal_eng (s : State) (k : Nat) (v : GCal) : (s.setCal k v).eng = s.eng := rfl
@[simp] theorem State.setCal_queues (s : State) (k : Nat) (v : GCal) : (s.setCal k v).queues = s.queues := rfl
@[simp] theorem State.setCal_flight (s : State) (k : Nat) (v : GCal) : (s.setCal k v).flight = s.flight := rfl
@[simp] theorem State.setCal_mem (s : State) (k : Nat) (v : GCal) : (s.setCal k v).mem = s.mem := rfl
@[simp] theorem State.setCal_fk (s : State) (k : Nat) (v : GCal) : (s.setCal k v).fk = s.fk := rfl
@[simp] theorem State.setCal_tw0 (s : State) (k : Nat) (v : GCal) : (s.setCal k v).tw0 = s.tw0 := rfl
@[simp] theorem State.setCal_freeCtr (s : State) (k : Nat) (v : GCal) : (s.setCal k v).freeCtr = s.freeCtr := rfl
@[simp] theorem State.setCal_routes (s : State) (k : Nat) (v : GCal) : (s.setCal k v).routes = s.routes := rfl
@[simp] theorem State.setCal_outs (s : State) (k : Nat) (v : GCal) : (s.setCal k v).outs = s.outs := rfl
@[simp] theorem State.setCal_grps (s : State) (k : Nat) (v : GCal) : (s.setCal k v).grps = s.grps := rfl
@[simp] theorem State.setCal_lines (s : State) (k : Nat) (v : GCal) : (s.setCal k v).lines = s.lines := rfl
@[simp] theorem State.setCal_tx (s : State) (k : Nat) (v : GCal) : (s.setCal k v).tx = s.tx := rfl
@[simp] theorem State.setCal_rx (s : State) (k : Nat) (v : GCal) : (s.setCal k v).rx = s.rx := rfl
@[simp] theorem State.setCal_plls (s : State) (k : Nat) (v : GCal) : (s.setCal k v).plls = s.plls := rfl
@[simp] theorem State.setCal_rateChg (s : State) (k : Nat) (v : GCal) : (s.setCal k v).rateChg = s.rateChg := rfl
@[simp] theorem State.setCal_ains (s : State) (k : Nat) (v : GCal) : (s.setCal k v).ains = s.ains := rfl

@[simp] theorem State.bump_pending (s : State) : (s.bump).pending = s.pending := rfl
@[simp] theorem State.bump_clk (s : State) : (s.bump).clk = s.clk := rfl
@[simp] theorem State.bump_part (s : State) : (s.bump).part = s.part := rfl
@[simp] theorem State.bump_pins (s : State) : (s.bump).pins = s.pins := rfl
@[simp] theorem State.bump_env (s : State) : (s.bump).env = s.env := rfl
@[simp] theorem State.bump_pwr (s : State) : (s.bump).pwr = s.pwr := rfl
@[simp] theorem State.bump_jtag (s : State) : (s.bump).jtag = s.jtag := rfl
@[simp] theorem State.bump_tm (s : State) : (s.bump).tm = s.tm := rfl
@[simp] theorem State.bump_eng (s : State) : (s.bump).eng = s.eng := rfl
@[simp] theorem State.bump_queues (s : State) : (s.bump).queues = s.queues := rfl
@[simp] theorem State.bump_flight (s : State) : (s.bump).flight = s.flight := rfl
@[simp] theorem State.bump_mem (s : State) : (s.bump).mem = s.mem := rfl
@[simp] theorem State.bump_fk (s : State) : (s.bump).fk = s.fk := rfl
@[simp] theorem State.bump_tw0 (s : State) : (s.bump).tw0 = s.tw0 := rfl
@[simp] theorem State.bump_routes (s : State) : (s.bump).routes = s.routes := rfl
@[simp] theorem State.bump_outs (s : State) : (s.bump).outs = s.outs := rfl
@[simp] theorem State.bump_grps (s : State) : (s.bump).grps = s.grps := rfl
@[simp] theorem State.bump_lines (s : State) : (s.bump).lines = s.lines := rfl
@[simp] theorem State.bump_tx (s : State) : (s.bump).tx = s.tx := rfl
@[simp] theorem State.bump_rx (s : State) : (s.bump).rx = s.rx := rfl
@[simp] theorem State.bump_plls (s : State) : (s.bump).plls = s.plls := rfl
@[simp] theorem State.bump_rateChg (s : State) : (s.bump).rateChg = s.rateChg := rfl
@[simp] theorem State.bump_ains (s : State) : (s.bump).ains = s.ains := rfl

@[simp] theorem State.setQueue_pending (s : State) (q : Nat) (v : Queue) : (s.setQueue q v).pending = s.pending := rfl
@[simp] theorem State.setQueue_clk (s : State) (q : Nat) (v : Queue) : (s.setQueue q v).clk = s.clk := rfl
@[simp] theorem State.setQueue_part (s : State) (q : Nat) (v : Queue) : (s.setQueue q v).part = s.part := rfl
@[simp] theorem State.setQueue_pins (s : State) (q : Nat) (v : Queue) : (s.setQueue q v).pins = s.pins := rfl
@[simp] theorem State.setQueue_env (s : State) (q : Nat) (v : Queue) : (s.setQueue q v).env = s.env := rfl
@[simp] theorem State.setQueue_pwr (s : State) (q : Nat) (v : Queue) : (s.setQueue q v).pwr = s.pwr := rfl
@[simp] theorem State.setQueue_jtag (s : State) (q : Nat) (v : Queue) : (s.setQueue q v).jtag = s.jtag := rfl
@[simp] theorem State.setQueue_tm (s : State) (q : Nat) (v : Queue) : (s.setQueue q v).tm = s.tm := rfl
@[simp] theorem State.setQueue_eng (s : State) (q : Nat) (v : Queue) : (s.setQueue q v).eng = s.eng := rfl
@[simp] theorem State.setQueue_flight (s : State) (q : Nat) (v : Queue) : (s.setQueue q v).flight = s.flight := rfl
@[simp] theorem State.setQueue_mem (s : State) (q : Nat) (v : Queue) : (s.setQueue q v).mem = s.mem := rfl
@[simp] theorem State.setQueue_fk (s : State) (q : Nat) (v : Queue) : (s.setQueue q v).fk = s.fk := rfl
@[simp] theorem State.setQueue_tw0 (s : State) (q : Nat) (v : Queue) : (s.setQueue q v).tw0 = s.tw0 := rfl
@[simp] theorem State.setQueue_freeCtr (s : State) (q : Nat) (v : Queue) : (s.setQueue q v).freeCtr = s.freeCtr := rfl
@[simp] theorem State.setQueue_routes (s : State) (q : Nat) (v : Queue) : (s.setQueue q v).routes = s.routes := rfl
@[simp] theorem State.setQueue_outs (s : State) (q : Nat) (v : Queue) : (s.setQueue q v).outs = s.outs := rfl
@[simp] theorem State.setQueue_grps (s : State) (q : Nat) (v : Queue) : (s.setQueue q v).grps = s.grps := rfl
@[simp] theorem State.setQueue_lines (s : State) (q : Nat) (v : Queue) : (s.setQueue q v).lines = s.lines := rfl
@[simp] theorem State.setQueue_tx (s : State) (q : Nat) (v : Queue) : (s.setQueue q v).tx = s.tx := rfl
@[simp] theorem State.setQueue_rx (s : State) (q : Nat) (v : Queue) : (s.setQueue q v).rx = s.rx := rfl
@[simp] theorem State.setQueue_plls (s : State) (q : Nat) (v : Queue) : (s.setQueue q v).plls = s.plls := rfl
@[simp] theorem State.setQueue_rateChg (s : State) (q : Nat) (v : Queue) : (s.setQueue q v).rateChg = s.rateChg := rfl
@[simp] theorem State.setQueue_ains (s : State) (q : Nat) (v : Queue) : (s.setQueue q v).ains = s.ains := rfl

@[simp] theorem State.finishOk_pending (s : State) (id : Nat) (d : List Byte) (t : Nat) : (s.finishOk id d t).pending = s.pending := rfl
@[simp] theorem State.finishOk_clk (s : State) (id : Nat) (d : List Byte) (t : Nat) : (s.finishOk id d t).clk = s.clk := rfl
@[simp] theorem State.finishOk_part (s : State) (id : Nat) (d : List Byte) (t : Nat) : (s.finishOk id d t).part = s.part := rfl
@[simp] theorem State.finishOk_pins (s : State) (id : Nat) (d : List Byte) (t : Nat) : (s.finishOk id d t).pins = s.pins := rfl
@[simp] theorem State.finishOk_env (s : State) (id : Nat) (d : List Byte) (t : Nat) : (s.finishOk id d t).env = s.env := rfl
@[simp] theorem State.finishOk_pwr (s : State) (id : Nat) (d : List Byte) (t : Nat) : (s.finishOk id d t).pwr = s.pwr := rfl
@[simp] theorem State.finishOk_jtag (s : State) (id : Nat) (d : List Byte) (t : Nat) : (s.finishOk id d t).jtag = s.jtag := rfl
@[simp] theorem State.finishOk_tm (s : State) (id : Nat) (d : List Byte) (t : Nat) : (s.finishOk id d t).tm = s.tm := rfl
@[simp] theorem State.finishOk_eng (s : State) (id : Nat) (d : List Byte) (t : Nat) : (s.finishOk id d t).eng = s.eng := rfl
@[simp] theorem State.finishOk_queues (s : State) (id : Nat) (d : List Byte) (t : Nat) : (s.finishOk id d t).queues = s.queues := rfl
@[simp] theorem State.finishOk_mem (s : State) (id : Nat) (d : List Byte) (t : Nat) : (s.finishOk id d t).mem = s.mem := rfl
@[simp] theorem State.finishOk_fk (s : State) (id : Nat) (d : List Byte) (t : Nat) : (s.finishOk id d t).fk = s.fk := rfl
@[simp] theorem State.finishOk_tw0 (s : State) (id : Nat) (d : List Byte) (t : Nat) : (s.finishOk id d t).tw0 = s.tw0 := rfl
@[simp] theorem State.finishOk_freeCtr (s : State) (id : Nat) (d : List Byte) (t : Nat) : (s.finishOk id d t).freeCtr = s.freeCtr := rfl
@[simp] theorem State.finishOk_routes (s : State) (id : Nat) (d : List Byte) (t : Nat) : (s.finishOk id d t).routes = s.routes := rfl
@[simp] theorem State.finishOk_meters (s : State) (id : Nat) (d : List Byte) (t : Nat) : (s.finishOk id d t).meters = s.meters := rfl
@[simp] theorem State.finishOk_mix (s : State) (id : Nat) (d : List Byte) (t : Nat) : (s.finishOk id d t).mix = s.mix := rfl
@[simp] theorem State.finishOk_outs (s : State) (id : Nat) (d : List Byte) (t : Nat) : (s.finishOk id d t).outs = s.outs := rfl
@[simp] theorem State.finishOk_grps (s : State) (id : Nat) (d : List Byte) (t : Nat) : (s.finishOk id d t).grps = s.grps := rfl
@[simp] theorem State.finishOk_lines (s : State) (id : Nat) (d : List Byte) (t : Nat) : (s.finishOk id d t).lines = s.lines := rfl
@[simp] theorem State.finishOk_tx (s : State) (id : Nat) (d : List Byte) (t : Nat) : (s.finishOk id d t).tx = s.tx := rfl
@[simp] theorem State.finishOk_rx (s : State) (id : Nat) (d : List Byte) (t : Nat) : (s.finishOk id d t).rx = s.rx := rfl
@[simp] theorem State.finishOk_plls (s : State) (id : Nat) (d : List Byte) (t : Nat) : (s.finishOk id d t).plls = s.plls := rfl
@[simp] theorem State.finishOk_rateChg (s : State) (id : Nat) (d : List Byte) (t : Nat) : (s.finishOk id d t).rateChg = s.rateChg := rfl
@[simp] theorem State.finishOk_ains (s : State) (id : Nat) (d : List Byte) (t : Nat) : (s.finishOk id d t).ains = s.ains := rfl

@[simp] theorem State.finishErr_pending (s : State) (id : Nat) (e : Err) (t : Nat) : (s.finishErr id e t).pending = s.pending := rfl
@[simp] theorem State.finishErr_clk (s : State) (id : Nat) (e : Err) (t : Nat) : (s.finishErr id e t).clk = s.clk := rfl
@[simp] theorem State.finishErr_part (s : State) (id : Nat) (e : Err) (t : Nat) : (s.finishErr id e t).part = s.part := rfl
@[simp] theorem State.finishErr_pins (s : State) (id : Nat) (e : Err) (t : Nat) : (s.finishErr id e t).pins = s.pins := rfl
@[simp] theorem State.finishErr_env (s : State) (id : Nat) (e : Err) (t : Nat) : (s.finishErr id e t).env = s.env := rfl
@[simp] theorem State.finishErr_pwr (s : State) (id : Nat) (e : Err) (t : Nat) : (s.finishErr id e t).pwr = s.pwr := rfl
@[simp] theorem State.finishErr_jtag (s : State) (id : Nat) (e : Err) (t : Nat) : (s.finishErr id e t).jtag = s.jtag := rfl
@[simp] theorem State.finishErr_tm (s : State) (id : Nat) (e : Err) (t : Nat) : (s.finishErr id e t).tm = s.tm := rfl
@[simp] theorem State.finishErr_eng (s : State) (id : Nat) (e : Err) (t : Nat) : (s.finishErr id e t).eng = s.eng := rfl
@[simp] theorem State.finishErr_queues (s : State) (id : Nat) (e : Err) (t : Nat) : (s.finishErr id e t).queues = s.queues := rfl
@[simp] theorem State.finishErr_mem (s : State) (id : Nat) (e : Err) (t : Nat) : (s.finishErr id e t).mem = s.mem := rfl
@[simp] theorem State.finishErr_fk (s : State) (id : Nat) (e : Err) (t : Nat) : (s.finishErr id e t).fk = s.fk := rfl
@[simp] theorem State.finishErr_tw0 (s : State) (id : Nat) (e : Err) (t : Nat) : (s.finishErr id e t).tw0 = s.tw0 := rfl
@[simp] theorem State.finishErr_freeCtr (s : State) (id : Nat) (e : Err) (t : Nat) : (s.finishErr id e t).freeCtr = s.freeCtr := rfl
@[simp] theorem State.finishErr_routes (s : State) (id : Nat) (e : Err) (t : Nat) : (s.finishErr id e t).routes = s.routes := rfl
@[simp] theorem State.finishErr_meters (s : State) (id : Nat) (e : Err) (t : Nat) : (s.finishErr id e t).meters = s.meters := rfl
@[simp] theorem State.finishErr_mix (s : State) (id : Nat) (e : Err) (t : Nat) : (s.finishErr id e t).mix = s.mix := rfl
@[simp] theorem State.finishErr_outs (s : State) (id : Nat) (e : Err) (t : Nat) : (s.finishErr id e t).outs = s.outs := rfl
@[simp] theorem State.finishErr_grps (s : State) (id : Nat) (e : Err) (t : Nat) : (s.finishErr id e t).grps = s.grps := rfl
@[simp] theorem State.finishErr_lines (s : State) (id : Nat) (e : Err) (t : Nat) : (s.finishErr id e t).lines = s.lines := rfl
@[simp] theorem State.finishErr_tx (s : State) (id : Nat) (e : Err) (t : Nat) : (s.finishErr id e t).tx = s.tx := rfl
@[simp] theorem State.finishErr_rx (s : State) (id : Nat) (e : Err) (t : Nat) : (s.finishErr id e t).rx = s.rx := rfl
@[simp] theorem State.finishErr_plls (s : State) (id : Nat) (e : Err) (t : Nat) : (s.finishErr id e t).plls = s.plls := rfl
@[simp] theorem State.finishErr_rateChg (s : State) (id : Nat) (e : Err) (t : Nat) : (s.finishErr id e t).rateChg = s.rateChg := rfl
@[simp] theorem State.finishErr_ains (s : State) (id : Nat) (e : Err) (t : Nat) : (s.finishErr id e t).ains = s.ains := rfl

end Sys2Proof.Machine
end

