-- ==== Sys2Proof/Laws/Frames.lean ====
section
/-!
SUPPORT. What shared operations leave alone: starting a command, the selection of the next packet, the boundary's window, the
discarding of a frame, the end of a job, a pass over meters, the shutting of an output group, what counts frames, and what a
packet that meets a free interpreter and an open frame leaves (`exec_takes`).
-/
namespace Sys2Proof.Machine
open Sys2Proof

/-- What a started command fixes is its requests and its window's bytes. -/
theorem launched_frame (s : State) (p : Packet) : ∃ r w, s.launched p =
    { s.began p with routeJobs := r, flight := [{ s.firstFlight p with win := w }] } := by
  have h : ∃ r, (if p.opc = 0x0101 then routeSetStart (s.seq + 1) p (s.began p) else s.began p) =
      { s.began p with routeJobs := r } := by
    split
    · exact ⟨_, rfl⟩
    · exact ⟨(s.began p).routeJobs, rfl⟩
  obtain ⟨r, h⟩ := h
  unfold State.launched
  rw [h]
  unfold takeWindow
  by_cases hw : p.opc = 0x0605 ∧ p.u8 17 = 1
  · refine ⟨r, mreads s.mem (0x100000 + p.u32 28) (p.u32 24), ?_⟩
    rw [if_pos hw]
    simp [State.began, modFlight]
  · exact ⟨r, [], by rw [if_neg hw]; rfl⟩

theorem phase_run (s : State) (p : Packet) (ph : Phase) :
    ((s.launched p).setPhase (s.seq + 1) ph).setPhase (s.seq + 1) .running = s.launched p := by
  obtain ⟨r, w, h⟩ := launched_frame s p
  rw [h]; simp [State.setPhase, modFlight]

theorem phase_run' (s : State) (p : Packet) : (s.launched p).setPhase (s.seq + 1) .running = s.launched p := by
  obtain ⟨r, w, h⟩ := launched_frame s p
  rw [h]; simp [State.setPhase, modFlight]

/-- A command that neither waits for a frame nor is scheduled takes its effect as it is launched. -/
theorem launch_now {s : State} {p : Packet} {d : OpDef} (hd : opDef p.opc = some d) (hs : p.sched = false)
    (ht : d.tied = false ∨ s.inListen = true) (ha : p.opc ≠ 0x0003 ∨ s.eng.pendSet = none ∨ s.eng.applyQ = []) :
    launch (s.firstFlight p) d (s.began p) =
      (let t := d.apply (s.seq + 1) p s.nowNs (s.launched p)
       if s.inListen then t else listenSettle t) := by
  have hb : (s.launched p).behindCommit (s.firstFlight p) = false := by
    obtain ⟨r, w, h⟩ := launched_frame s p
    unfold State.behindCommit
    by_cases h2 : p.opc = 0x0201
    · have : ∀ i, (s.launched p).isOpc 0x0202 i = false := by
        intro i
        rw [h]
        simp only [State.isOpc, State.flightOf, List.find?_cons, List.find?_nil]
        split
        · rename_i f hf
          split at hf
          · cases hf; simp [h2]
          · cases hf
        · rfl
      have : (s.launched p).eng.applyQ.any ((s.launched p).isOpc 0x0202) = false := by
        rw [List.any_eq_false]; intro i _; simp [this]
      simp [this]
    · simp [h2]
  have hl : (s.launched p).inListen = s.inListen := by obtain ⟨r, w, h⟩ := launched_frame s p; rw [h]; rfl
  have hn : (s.launched p).nowNs = s.nowNs := by obtain ⟨r, w, h⟩ := launched_frame s p; rw [h]; rfl
  have h3 : (d.tied && !s.inListen) = false := by rcases ht with h | h <;> simp [h]
  have hw : (takeWindow (s.firstFlight p).id (s.firstFlight p).pkt (if (s.firstFlight p).pkt.opc = 0x0101
    then routeSetStart (s.firstFlight p).id (s.firstFlight p).pkt (s.began p) else s.began p)) = s.launched p := rfl
  have hab : beforeAbort (s.firstFlight p) (s.launched p) = s.launched p := by
    have he : (s.launched p).eng = s.eng := by obtain ⟨r, w, h⟩ := launched_frame s p; rw [h]; rfl
    unfold beforeAbort
    rw [he]
    refine if_neg fun ⟨h1, h2, _, h4⟩ => ?_
    rcases ha with h | h | h
    · exact h h1
    · rw [h] at h2; cases h2
    · rw [h] at h4; cases h4
  unfold launch
  rw [hw]
  simp only [hab, hs, hl, h3, hb, Bool.false_eq_true, if_false, applyFlight, applyWaiting, Bool.false_and, Int.lt_irrefl, phase_run',
    reErr, hd, Flight.isTied, and_false, opApply, hn]

/-- The one command listed for the frame at hand, no ROUTE_GET, applies as soon as the engine is free. -/
theorem drainOpen_one {e : State} {id : Nat} {g : Flight} (h1 : e.eng.applyQ = [id]) (h3 : e.flightOf id = some g)
    (h4 : g.pkt.opc ≠ 0x0102) : drainOpen e = applyOne id { e with eng := { e.eng with applyQ := [] } } := by
  have hio : e.isOpc 0x0102 id = false := by simp [State.isOpc, h3, h4]
  simp only [drainOpen, h1, List.takeWhile_cons, hio, Bool.not_false, if_true, List.takeWhile_nil, List.length_cons, List.length_nil, drain,
    applyNext]

/-- A command that joins the frame at hand with nothing before it applies at once. -/
theorem joinFrame_here {s : State} {f g : Flight} (h1 : s.eng.applyQ = []) (h2 : s.eng.working = none)
    (h3 : (s.setPhase f.id (.waitFrame none)).flightOf f.id = some g) (h4 : g.phase = .waitFrame none) (h5 : g.pkt.opc ≠ 0x0102)
    (h6 : f.pkt.opc ≠ 0x0102) (h7 : s.stepDue = false) : joinFrame f s = applyOne f.id (s.setPhase f.id (.waitFrame none)) := by
  have hq : joinFrame f s = (
      let e : State := { s.setPhase f.id (.waitFrame none) with eng := { s.eng with applyQ := [f.id] } }
      if e.eng.working.isSome || e.stepDue || e.schedHere then e else drainOpen e) := by
    unfold joinFrame
    simp only [h1, h6, if_false, List.filter_nil, List.nil_append]
  rw [hq]
  generalize he : ({ s.setPhase f.id (.waitFrame none) with eng := { s.eng with applyQ := [f.id] } } : State) = e
  have e1 : e.eng.applyQ = [f.id] := by rw [← he]
  have e2 : e.eng.working = none := by rw [← he]; exact h2
  have e3 : e.flightOf f.id = some g := by rw [← he]; exact h3
  have e4 : ({ e with eng := { e.eng with applyQ := [] } } : State) = s.setPhase f.id (.waitFrame none) := by
    rw [← he]
    have : ({ s.eng with applyQ := [] } : Eng) = s.eng := by cases hE : s.eng; rw [hE] at h1; simp at h1; subst h1; rfl
    exact congrArg (fun x => ({ s.setPhase f.id (.waitFrame none) with eng := x } : State)) this
  have e5 : e.schedHere = false := by simp [State.schedHere, e1, e3, Flight.isSched, h4]
  have e6 : e.stepDue = false := by rw [← he]; exact h7
  simp only [e2, Option.isSome_none, e5, e6, Bool.or_self, Bool.false_eq_true, if_false]
  rw [drainOpen_one e1 e3 h5, e4]

/-- A command tied to a frame, with the frame at hand ready to take it, takes its effect there. -/
theorem launch_here {s : State} {p : Packet} {d : OpDef} (hd : opDef p.opc = some d) (hs : p.sched = false) (ht : d.tied = true)
    (hl0 : s.inListen = false) (hf : s.frameHere = true) (ho : p.opc ≠ 0x0102) :
    launch (s.firstFlight p) d (s.began p) = listenSettle (d.apply (s.seq + 1) p s.apT (s.launched p)) := by
  simp only [State.frameHere, Bool.and_eq_true, List.isEmpty_iff, Option.isNone_iff_eq_none] at hf
  obtain ⟨⟨⟨⟨f1, f2⟩, f3⟩, f4⟩, f5⟩ := hf
  obtain ⟨r, w, h⟩ := launched_frame s p
  have hw : (takeWindow (s.firstFlight p).id (s.firstFlight p).pkt (if (s.firstFlight p).pkt.opc = 0x0101
    then routeSetStart (s.firstFlight p).id (s.firstFlight p).pkt (s.began p) else s.began p)) = s.launched p := rfl
  have hl : (s.launched p).inListen = false := by rw [h]; exact hl0
  have he : (s.launched p).eng = s.eng := by rw [h]; rfl
  have hft : (s.launched p).frameTakes = true := by
    have : (s.launched p).frameTakes = (s.framing && s.eng.pendSet.isSome) := by rw [h]; rfl
    rw [this, f1, f2]; rfl
  unfold launch
  rw [hw]
  simp only [hs, Bool.false_eq_true, if_false, ht, hl, Bool.not_false, Bool.and_self, if_true, hft]
  generalize hb : (s.launched p).setPhase (s.seq + 1) (.waitFrame none) = b
  have hbf : b.flightOf (s.seq + 1) = some { s.firstFlight p with win := w, phase := .waitFrame none } := by
    rw [← hb, h]; simp [State.setPhase, modFlight, State.flightOf]
  have hbr : b.setPhase (s.seq + 1) .running = s.launched p := by rw [← hb]; exact phase_run s p _
  have hbl : b.inListen = false := by rw [← hb]; exact hl
  have hap : b.apT = s.apT := by unfold State.apT; rw [← hb, h]; rfl
  rw [joinFrame_here (g := { s.firstFlight p with win := w, phase := .waitFrame none }) (by rw [he, f4]) (by rw [he, f3]) (by rw [← hbf, ← hb]) rfl
    ho ho (by rw [h]; exact (by simpa using f5 : s.stepDue = false))]
  show applyOne (s.seq + 1) ((s.launched p).setPhase (s.seq + 1) (.waitFrame none)) = _
  rw [hb]
  have hun : ({ s.firstFlight p with win := w, phase := .waitFrame none } : Flight).untied = false := by
    simp [Flight.untied, hd, ht]
  simp only [applyOne, hbf, hun, Bool.false_eq_true, if_false, applyFlight, hbl, applyWaiting, hs, Bool.false_and, Int.lt_irrefl, hbr,
    reErr, hd, hl, false_and, opApply, hap]

/-- A packet that takes effect as it arrives leaves what its opcode's effect leaves. -/
theorem arrive_takes {s : State} {opc : Nat} {c : Cmd} {d : OpDef} (h : s.takes opc c = true) (hd : opDef opc = some d) :
    (arrive opc c s).flush = s.effect opc c d.apply := by
  simp only [State.takes, Bool.and_eq_true, Bool.not_eq_true', Option.isNone_iff_eq_none, Bool.or_eq_true, decide_eq_true_eq] at h
  obtain ⟨⟨⟨⟨⟨h1, h2⟩, h3⟩, h4⟩, h5⟩, h7⟩ := h
  have ha : (s.packet opc c).opc ≠ 0x0003 ∨ s.eng.pendSet = none ∨ s.eng.applyQ = [] := by
    rcases h7 with h7 | h7
    · exact .inl h7
    · exact .inr (.inr (by simpa using h7))
  have hs : (s.packet opc c).sched = false := h3
  have hod : opDef (s.packet opc c).opc = some d := hd
  have ht : tiedOpc opc = d.tied := by simp [tiedOpc, hd]
  rw [arrive_runs opc d h2 hd h4]
  show (launch (s.firstFlight (s.packet opc c)) d (s.began (s.packet opc c))).flush = _
  unfold State.effect
  rw [ht] at h5 ⊢
  by_cases hl : s.inListen = true
  · rw [launch_now hod hs (.inr hl) ha]; simp [hl]
  · simp only [hl, Bool.not_false, Bool.and_true]
    by_cases hti : d.tied = true
    · have h6 : s.frameHere = true ∧ opc ≠ 258 := by simpa [hti, hl] using h5
      rw [launch_here hod hs hti (by simpa using hl) h6.1 h6.2]; simp [hti]
    · rw [launch_now hod hs (.inl (by simpa using hti)) ha]; simp [hl, hti]

/-- What a row whose packet takes effect as it arrives leaves. Give the row `i` and its opcode by name: `exec` is then never unfolded. -/
theorem exec_takes {i : Instr} {opc : Nat} {c : Cmd} {ap : Nat → Packet → Nat → State → State} (s : State)
    (h : packetRow i = some (opc, c)) (hd : (opDef opc).map OpDef.apply = some ap)
    (ht : (s.advance i.dt).takes opc c = true) :
    exec i s = .next ((s.advance i.dt).effect opc c ap) := by
  obtain ⟨d, h1, rfl⟩ := Option.map_eq_some_iff.1 hd
  have hw : c.wf = true := by
    have := ht; simp only [State.takes, Bool.and_eq_true] at this; exact this.1.1.1.1.1
  rw [exec_packetRow_next s h hw, arrive_takes ht h1]

theorem earliest_spec (l : List Packet) : (l = [] → earliest l = none) ∧ (∀ p, earliest l = some p → p ∈ l ∧ ∀ x ∈ l, p.arrival ≤ x.arrival) ∧ (earliest l = none → l = []) := by
  induction l with
  | nil => simp [earliest]
  | cons y r ih =>
    obtain ⟨i1, i2, i3⟩ := ih
    refine ⟨by simp, fun p hp => ?_, fun h => ?_⟩
    · simp only [earliest] at hp
      cases he : earliest r with
      | none => rw [he] at hp; simp at hp; subst hp; simp [i3 he]
      | some z =>
        rw [he] at hp
        obtain ⟨j1, j2⟩ := i2 z he
        simp only at hp
        split at hp <;> simp at hp <;> subst hp
        · refine ⟨by simp [j1], fun x hx => ?_⟩
          rcases List.mem_cons.mp hx with h | h
          · subst h; omega
          · exact j2 x h
        · refine ⟨by simp, fun x hx => ?_⟩
          rcases List.mem_cons.mp hx with h | h
          · subst h; omega
          · have := j2 x h; omega
    · simp only [earliest] at h; split at h <;> (try split at h) <;> cases h

theorem schedWindow_frame (n : Nat) (s : State) : ∃ fl c, schedWindow n s = { s with flight := fl, freeCtr := c } := by
  unfold schedWindow
  generalize s.flight = l
  suffices H : ∀ (l : List Flight) (f : State → Flight → State), (∀ x y, ∃ fl c, f x y = { x with flight := fl, freeCtr := c }) → ∀ x : State, ∃ fl c, l.foldl f x = { x with flight := fl, freeCtr := c } by
    apply H
    intro x y
    split
    · exact ⟨_, _, rfl⟩
    · exact ⟨x.flight, x.freeCtr, rfl⟩
  intro l f hf
  induction l with
  | nil => intro x; exact ⟨x.flight, x.freeCtr, rfl⟩
  | cons y r ih =>
    intro x
    obtain ⟨a, b, h⟩ := hf x y
    obtain ⟨c, d, h2⟩ := ih (f x y)
    rw [List.foldl_cons, h2, h]; exact ⟨c, d, rfl⟩

theorem ite_eng (c : Prop) [Decidable c] (a b : State) (e : Eng) (h1 : a.eng = e) (h2 : b.eng = e) : (if c then a else b).eng = e := by
  split <;> assumption

theorem fk_eng (s : State) (m : Mem) : ({ s with fk := m } : State).eng = s.eng := rfl

theorem lineStore_eng (k : Nat) (x : Int) (s : State) : (lineStore k x s).eng = s.eng := by
  unfold lineStore; dsimp only
  split
  · rfl
  · split
    · rfl
    · exact ite_eng _ _ _ _ ((State.setLine_eng _ _ _).trans (fk_eng _ _)) (ite_eng _ _ _ _ ((State.setLine_eng _ _ _).trans (fk_eng _ _)) (ite_eng _ _ _ _ (State.setLine_eng _ _ _) ((State.setLine_eng _ _ _).trans (fk_eng _ _))))

/-- What each round of a loop keeps, the loop keeps. -/
theorem forEach_keeps {α : Type} (g : State → α) (f : Nat → State → State) (h : ∀ k a, g (f k a) = g a) (l : List Nat) :
    ∀ s, g (forEach l f s) = g s := by
  induction l with
  | nil => intro s; rfl
  | cons k r ih => intro s; show g (forEach r f (f k s)) = _; rw [ih, h]

theorem forUpto_keeps {α : Type} (g : State → α) (f : Nat → State → State) (h : ∀ k a, g (f k a) = g a) (n : Nat) (s : State) :
    g (forUpto n f s) = g s := forEach_keeps g f h _ s

theorem ainSkip_eng (k : Nat) (s : State) : (ainSkip k s).eng = s.eng := by
  unfold ainSkip; dsimp only; split <;> rfl

/-- ENGINE_WORK_START with a set pending: a due step, the frame's commands, then its work, unless the set is gone. -/
theorem workStart_pending {s : State} {fr : Nat} {inp : InputSet} (h : s.eng.pendSet = some (fr, inp)) :
    workStart s =
      (let w : State := { s with eng := { s.eng with working := none } }
       let v := if s.stepDue then stepApplyFrame w else w
       let b := drainAll (frameSteps fr v.eng.pendB v)
       if b.eng.pendSet.isNone then b else frameWork fr b.eng.pendB inp (mixJobsDone none b)) := by
  unfold workStart
  rw [h]

/-- A discarded input set changes, of the engine, what is pending and the sources' rings only. -/
theorem discardSet_eng (s : State) :
    ∃ r, (discardSet s).eng = { s.eng with pendSet := none, applyQ := [], srcHist := r } := by
  refine ⟨(discardSet s).eng.srcHist, ?_⟩
  have h : (forUpto s.nAin ainSkip (forEach (s.lines.map (·.1)) (fun k a => lineStore k 0 a) s)).eng = s.eng := by
    rw [forUpto_keeps State.eng ainSkip ainSkip_eng, forEach_keeps State.eng _ fun k a => lineStore_eng k 0 a]
  have g : (discardSet s).eng = { (srcSkip (forUpto s.nAin ainSkip (forEach (s.lines.map (·.1))
      (fun k a => lineStore k 0 a) s))).bump.eng with pendSet := none, applyQ := [] } := rfl
  rw [g]
  rw [State.bump_eng, srcSkip, State.srcPush, h]

theorem jobEnd_routes (s : State) (j t : Nat) : (s.jobEnd j t).routes = s.routes := by
  unfold State.jobEnd; dsimp only; repeat' split
  all_goals rfl

theorem job_frames (j fr t : Nat) (b : Bool) (s : State) : (s.jobBegun j fr t b).routes = s.routes ∧ (s.jobSame j t).routes = s.routes := by
  refine ⟨?_, ?_⟩
  · unfold State.jobBegun; dsimp only; rw [jobEnd_routes]
  · unfold State.jobSame; dsimp only; rw [jobEnd_routes]

theorem each_meter (g : Meter → Meter) (hg : ∀ m, g (g m) = g m) (l : List Nat) : ∀ s : State, ∀ k,
    (forEach l (fun k a => a.setMeter k (g (a.meter k))) s).meter k = if k ∈ l then g (s.meter k) else s.meter k := by
  induction l with
  | nil => intro s k; rfl
  | cons x r ih =>
    intro s k
    show (forEach r _ (s.setMeter x (g (s.meter x)))).meter k = _
    rw [ih]
    by_cases h : k = x
    · subst h; simp [State.meter_setMeter, hg]
    · simp [h, State.meter_setMeter_other]

theorem none_meter (g : Meter → Meter) (l : List Nat) (k : Nat) (h : k ∉ l) : ∀ s : State,
    (forEach l (fun k a => a.setMeter k (g (a.meter k))) s).meter k = s.meter k := by
  induction l with
  | nil => intro s; rfl
  | cons x r ih =>
    intro s
    simp at h
    show (forEach r _ (s.setMeter x (g (s.meter x)))).meter k = _
    rw [ih h.2, State.meter_setMeter_other _ _ _ _ h.1]

theorem clear_clear (c : Nat) (m : Meter) : (m.clear c).clear c = m.clear c := by
  obtain ⟨a1, a2, a3, a4, a5, a6, a7⟩ := m
  unfold Meter.clear
  cases h0 : bit c 0 <;> cases h1 : bit c 1 <;> cases h2 : bit c 2 <;> cases h3 : bit c 3 <;>
    simp only [Bool.false_eq_true, if_true, if_false]

theorem EventsOnly.other {s t : State} (h : EventsOnly s t) : t.grps = s.grps ∧ t.outs = s.outs ∧ t.routes = s.routes ∧ t.flight = s.flight ∧ t.pwr = s.pwr := by
  obtain ⟨_, _, _, _, _, _, _, rfl⟩ := h; exact ⟨rfl, rfl, rfl, rfl, rfl⟩

/-- t differs from s in group g, the gains of destinations and the event queues only. -/
def GrpOnly (g : Nat) (s t : State) : Prop :=
  (∀ h, h ≠ g → t.grp h = s.grp h) ∧ (∀ i, (t.out i).otrim = (s.out i).otrim ∧ (t.out i).smute = (s.out i).smute) ∧
  t.routes = s.routes ∧ t.flight = s.flight ∧ t.pwr = s.pwr

theorem GrpOnly.setGrp (g : Nat) (v : Grp) (s : State) : GrpOnly g s (s.setGrp g v) :=
  ⟨fun _ hk => tget_tset_other _ _ _ _ _ hk, fun _ => ⟨rfl, rfl⟩, rfl, rfl, rfl⟩

theorem GrpOnly.refl (g : Nat) (s : State) : GrpOnly g s s := ⟨fun _ _ => rfl, fun _ => ⟨rfl, rfl⟩, rfl, rfl, rfl⟩

theorem GrpOnly.trans {g : Nat} {s t u : State} (h : GrpOnly g s t) (k : GrpOnly g t u) : GrpOnly g s u :=
  ⟨fun j hj => (k.1 j hj).trans (h.1 j hj), fun i => ⟨(k.2.1 i).1.trans (h.2.1 i).1, (k.2.1 i).2.trans (h.2.1 i).2⟩,
   k.2.2.1.trans h.2.2.1, k.2.2.2.1.trans h.2.2.2.1, k.2.2.2.2.trans h.2.2.2.2⟩

theorem GrpOnly.g0 (g i : Nat) (s : State) : GrpOnly g s (s.setOut i { s.out i with g := 0 }) := by
  refine ⟨fun _ _ => rfl, fun k => ?_, rfl, rfl, rfl⟩
  unfold State.setOut State.out
  by_cases h : k = i
  · subst h; simp only [tget_tset_same, and_self]
  · simp only [tget_tset_other _ _ _ _ _ h, and_self]

theorem GrpOnly.gZero (g h : Nat) (s : State) : GrpOnly g s (s.gZero h) := by
  unfold State.gZero forEach
  generalize grpDsts h = l
  induction l generalizing s with
  | nil => exact .refl g s
  | cons x l ih => exact (GrpOnly.g0 g x s).trans (ih _)

theorem gZero_grps (h : Nat) (s : State) : (s.gZero h).grps = s.grps := by
  unfold State.gZero forEach
  generalize grpDsts h = l
  induction l generalizing s with
  | nil => rfl
  | cons x l ih => exact ih _

theorem GrpOnly.fault (g c w : Nat) (s : State) : GrpOnly g s (s.outFault g c w) := by
  have := EventsOnly.other (EventsOnly.raise s 0x503 (le 2 (0x200 + (grpDsts g).headD 0) ++ le 1 c ++ le 1 w ++ le 4 s.frame32))
  obtain ⟨a, b, c, d, e⟩ := this
  refine ⟨fun h _ => ?_, fun i => ?_, c, d, e⟩
  · unfold State.grp State.outFault; rw [a]
  · unfold State.out State.outFault; rw [b]; exact ⟨rfl, rfl⟩

theorem fault_grp (g c w h : Nat) (s : State) : (s.outFault g c w).grp h = s.grp h := by
  have := EventsOnly.other (EventsOnly.raise s 0x503 (le 2 (0x200 + (grpDsts g).headD 0) ++ le 1 c ++ le 1 w ++ le 4 s.frame32))
  unfold State.grp State.outFault; rw [this.1]

theorem GrpOnly.off (g : Nat) (s : State) : GrpOnly g s (grpOff g s) := (GrpOnly.gZero g g s).trans (.setGrp _ _ _)

theorem GrpOnly.protect (g c : Nat) (s : State) : GrpOnly g s (protect g c s) := by
  unfold Machine.protect
  refine GrpOnly.trans ?_ (.fault _ _ _ _)
  dsimp only
  generalize ({ s.grp g with fault := some (if (s.grp g).fault = some 2 then 2 else c), latched := !(decide (c = 3) || decide (c = 4)) || (s.grp g).latched, wait := false } : Grp) = v
  refine GrpOnly.trans (.setGrp g v s) ?_
  split
  · exact .refl _ _
  · split
    · exact .setGrp _ _ _
    · exact .off _ _
/-! Heat. -/

/-- A pair that changes its state leaves what the sensors and the power unit hold. -/
theorem pairTo_frame (s : State) (x k : Nat) (c : CalSt) : (s.pairTo x k c).env = s.env ∧ (s.pairTo x k c).pwr = s.pwr := by
  unfold State.pairTo; dsimp only; split
  · exact ⟨rfl, rfl⟩
  · obtain ⟨_, _, _, _, _, _, _, h⟩ := EventsOnly.raise (s.setAin x ((s.ain x).setPair k { (s.ain x).pair k with
      st := c, sinceTrack := if c = .tracking then 0 else ((s.ain x).pair k).sinceTrack })) 0x402
      (le 1 x ++ le 1 k ++ le 1 c.code ++ le 1 ((s.ain x).pair k).st.code)
    rw [h]; exact ⟨rfl, rfl⟩

/-- Heat moves calibration pairs only: what the sensors and the power unit hold stays. -/
theorem pairsHot_frame {s b : State} (h : b = pairsHot s) : b.env = s.env ∧ b.pwr = s.pwr := by
  have h1 : ∀ (s : State) x k, (s.pairHot x k).env = s.env ∧ (s.pairHot x k).pwr = s.pwr := by
    intro s x k; unfold State.pairHot; dsimp only; split
    · exact pairTo_frame _ _ _ _
    · exact ⟨rfl, rfl⟩
  have h2 : ∀ (l : List Nat) (s : State), (l.foldl (fun a i => if (a.ain i).powered then (a.pairHot i 0).pairHot i 1 else a) s).env = s.env ∧
      (l.foldl (fun a i => if (a.ain i).powered then (a.pairHot i 0).pairHot i 1 else a) s).pwr = s.pwr := by
    intro l; induction l with
    | nil => intro s; exact ⟨rfl, rfl⟩
    | cons x l ih =>
      intro s
      rw [List.foldl_cons, (ih _).1, (ih _).2]
      split
      · rw [(h1 _ _ _).1, (h1 _ _ _).1, (h1 _ _ _).2, (h1 _ _ _).2]; exact ⟨rfl, rfl⟩
      · exact ⟨rfl, rfl⟩
  have h3 : b = (List.range 32).foldl (fun a i => if (a.ain i).powered then (a.pairHot i 0).pairHot i 1 else a) s := h
  rw [h3]; exact h2 _ _

theorem State.jobEnd_eng (s : State) (i t : Nat) : (s.jobEnd i t).eng = s.eng := by
  unfold State.jobEnd; dsimp only; repeat' split
  all_goals rfl
theorem State.jobBegun_eng (s : State) (i f t : Nat) (z : Bool) : (s.jobBegun i f t z).eng = s.eng := State.jobEnd_eng _ _ _
theorem State.jobSame_eng (s : State) (i t : Nat) : (s.jobSame i t).eng = s.eng := State.jobEnd_eng _ _ _
theorem State.beginReq_eng (s : State) (d : Nat) (q : Req) (f t : Nat) : (s.beginReq d q f t).eng = s.eng := by
  unfold State.beginReq; dsimp only; repeat' split
  all_goals first | rfl | exact State.jobBegun_eng _ _ _ _ _ | exact State.jobSame_eng _ _ _
theorem State.applyHeld_eng (s : State) (d f t : Nat) : (s.applyHeld d f t).eng = s.eng := by
  unfold State.applyHeld; dsimp only; repeat' split
  all_goals first | rfl | exact State.beginReq_eng _ _ _ _ _
theorem routeFadeEndStep_eng (d : Nat) (s : State) : (routeFadeEndStep d s).eng = s.eng := by
  unfold routeFadeEndStep; dsimp only; repeat' split
  all_goals rfl
theorem zeroFallbackStep_eng (d : Nat) (s : State) : (zeroFallbackStep d s).eng = s.eng := by
  unfold zeroFallbackStep; dsimp only; repeat' split
  all_goals first | rfl | exact State.jobBegun_eng _ _ _ _ _
theorem delayHeldApplyStep_eng (k : Nat) (s : State) : (delayHeldApplyStep k s).eng = s.eng := by
  unfold delayHeldApplyStep lineBegin; dsimp only; repeat' split
  all_goals rfl
theorem unbindFadeEndStep_eng (k : Nat) (s : State) : (unbindFadeEndStep k s).eng = s.eng := by
  unfold unbindFadeEndStep lineRelease; dsimp only; repeat' split
  all_goals rfl
theorem delayXfadeEndStep_eng (k : Nat) (s : State) : (delayXfadeEndStep k s).eng = s.eng := by
  unfold delayXfadeEndStep; dsimp only; repeat' split
  all_goals rfl
theorem mixJobsDone_eng (o : Option Nat) (s : State) : (mixJobsDone o s).eng = s.eng := by
  have h : ∀ (l : List MixJob) (x : State), (l.foldl (fun a j => if (decide (j.left = 0) && !decide (o = some j.commitFr)) = true
      then a.finishOk j.id (j.data 0 (j.endFr % 2 ^ 32)) j.endT else a) x).eng = x.eng := by
    intro l
    induction l with
    | nil => intro x; rfl
    | cons j l ih => intro x; rw [List.foldl_cons, ih]; split <;> rfl
  exact h s.mixJobs s
/-- The steps counted in frames leave the engine's own registers alone. -/
theorem frameSteps_eng (f t : Nat) (s : State) : (frameSteps f t s).eng = s.eng := by
  unfold frameSteps mixFadeEndStep
  dsimp only
  rw [mixJobsDone_eng, forEach_keeps State.eng _ fun k a => ?_, forEach_keeps State.eng _ fun d a => ?_]
  · rw [zeroFallbackStep_eng, State.applyHeld_eng, routeFadeEndStep_eng]
  · rw [delayHeldApplyStep_eng, unbindFadeEndStep_eng, delayXfadeEndStep_eng]

end Sys2Proof.Machine
end

