-- ==== Sys2Proof/Laws/Memory.lean ====
section
/-!
SUPPORT. Every operation that writes one of the block's memories (patch and window memory, the completion windows of TW0, the
Firkin) keeps its canonical form.
-/
namespace Sys2Proof.Machine
open Sys2Proof

/-- The three memories are in their canonical form. -/
def State.MemsWf (s : State) : Prop := memWf s.mem = true ∧ memWf s.tw0.cmem = true ∧ memWf s.fk = true

theorem State.reset_memsWf : State.reset.MemsWf := ⟨rfl, rfl, rfl⟩

theorem memWf_filter (p : Nat × Byte → Bool) (m : Mem) (h : memWf m = true) : memWf (m.filter p) = true := by
  unfold memWf at *
  simp only [Bool.and_eq_true] at *
  refine ⟨risingFrom_filter p m 0 h.1, ?_⟩
  rw [List.all_eq_true] at *
  intro x hx
  exact h.2 x ((List.mem_filter.mp hx).1)

theorem ite_memsWf {c : Prop} [Decidable c] {a b : State} (h1 : a.MemsWf) (h2 : b.MemsWf) : (if c then a else b).MemsWf := by
  split <;> assumption

theorem memWf_ringPut (base size : Nat) (bs : List Byte) : ∀ (m : Mem) (c : Nat), memWf m = true → memWf (ringPut m base size c bs) = true := by
  induction bs with
  | nil => intro m c h; exact h
  | cons b bs ih => intro m c h; exact ih _ _ (memWf_mwrite m _ b h)

theorem State.MemsWf.of_same {s t : State} (h : s.MemsWf) (h1 : t.mem = s.mem) (h2 : t.tw0.cmem = s.tw0.cmem) (h3 : t.fk = s.fk) :
    t.MemsWf := by
  unfold State.MemsWf; rw [h1, h2, h3]; exact h

theorem State.MemsWf.setMem {s : State} (h : s.MemsWf) (m : Mem) (hm : memWf m = true) : ({ s with mem := m } : State).MemsWf :=
  ⟨hm, h.2.1, h.2.2⟩

theorem State.MemsWf.setFk {s : State} (h : s.MemsWf) (m : Mem) (hm : memWf m = true) : ({ s with fk := m } : State).MemsWf :=
  ⟨h.1, h.2.1, hm⟩

theorem State.MemsWf.setTm {s : State} (h : s.MemsWf) (v : Tm) : ({ s with tm := v } : State).MemsWf := ⟨h.1, h.2.1, h.2.2⟩

theorem State.MemsWf.bump {s : State} (h : s.MemsWf) : s.bump.MemsWf := ⟨h.1, h.2.1, h.2.2⟩

theorem State.MemsWf.finishOk {s : State} (h : s.MemsWf) (id : Nat) (d : List Byte) (t : Nat) : (s.finishOk id d t).MemsWf :=
  ⟨h.1, h.2.1, h.2.2⟩

theorem State.MemsWf.putRec {s : State} (h : s.MemsWf) (q : Nat) (r : Rec) : (s.putRec q r).MemsWf := by
  unfold State.putRec
  dsimp only
  by_cases hp : (s.queue q).port = 1
  · rw [if_pos hp]; exact ⟨memWf_ringPut _ _ _ _ _ h.1, h.2.1, h.2.2⟩
  · rw [if_neg hp]; exact ⟨h.1, memWf_ringPut _ _ _ _ _ h.2.1, h.2.2⟩

theorem State.MemsWf.postRec {s : State} (h : s.MemsWf) (q : Nat) (r : Rec) : (s.postRec q r).MemsWf := by
  unfold State.postRec
  dsimp only
  split
  · exact h.putRec q r
  · exact h

theorem State.MemsWf.setDrop {s : State} (h : s.MemsWf) (p n : Nat) : (s.setDrop p n).MemsWf := by
  unfold State.setDrop; split
  · exact h
  · split <;> exact h

theorem State.MemsWf.flushLost {s : State} (h : s.MemsWf) (p : Nat) : (s.flushLost p).MemsWf := by
  unfold State.flushLost; split
  · exact h
  · split
    · exact (h.postRec _ _).setDrop _ _
    · exact h

theorem State.MemsWf.raiseOn {s : State} (h : s.MemsWf) (p c : Nat) (d : List Byte) (t : Nat) : (s.raiseOn p c d t).MemsWf := by
  unfold State.raiseOn
  dsimp only
  split
  · exact h
  · split
    · exact (h.flushLost p).setDrop _ _
    · split
      · exact (h.flushLost p).postRec _ _
      · exact (h.flushLost p).setDrop _ _

theorem State.MemsWf.raiseAt {s : State} (h : s.MemsWf) (c : Nat) (d : List Byte) (t : Nat) : (s.raiseAt c d t).MemsWf := by
  unfold State.raiseAt; split
  · exact ((h.raiseOn 1 c d t).raiseOn 2 c d t).raiseOn 3 c d t
  · exact h

theorem State.MemsWf.raise {s : State} (h : s.MemsWf) (c : Nat) (d : List Byte) : (s.raise c d).MemsWf := h.raiseAt c d _

theorem State.MemsWf.raiseLimAt {s : State} (h : s.MemsWf) (c k t : Nat) (d : List Byte) (n : Nat) : (s.raiseLimAt c k t d n).MemsWf := by
  unfold State.raiseLimAt
  dsimp only
  have h2 : ∀ l, ({ s with evLast := l } : State).MemsWf := fun _ => h
  split
  · split
    · exact h
    · exact (h2 _).raiseAt _ _ _
  · exact (h2 _).raiseAt _ _ _

theorem State.MemsWf.pass {s : State} (h : s.MemsWf) (dt : Nat) : (s.pass dt).MemsWf := by
  unfold State.pass; split <;> exact h

theorem State.MemsWf.advance {s : State} (h : s.MemsWf) (dt : Nat) : (s.advance dt).MemsWf := by
  have h1 := h.pass dt
  unfold State.advance
  generalize s.pass dt = a at h1
  have h2 : ∀ (m : Tm) (k l : Tracker), ({ a with tm := m, tt0 := k, tt1 := l } : State).MemsWf := fun _ _ _ => h1
  unfold State.wrapTime
  split
  · exact h1
  · exact (h2 _ _ _).raise _ _

theorem settleFlight_memsWf {s : State} (h : s.MemsWf) (f : Flight) : (settleFlight s f).MemsWf := by
  have h1 : (recordOf s f).MemsWf := by
    unfold recordOf; split
    · exact h.postRec _ _
    · exact h
  rw [settleFlight_eq]
  cases f.phase with
  | ended st d dat => exact ite_memsWf h1 h1
  | _ => exact h1

theorem State.MemsWf.flush {s : State} (h : s.MemsWf) : s.flush.MemsWf := by
  have H : ∀ (l : List Flight) (t : State), t.MemsWf → (l.foldl settleFlight t).MemsWf := by
    intro l
    induction l with
    | nil => intro t ht; exact ht
    | cons f r ih => intro t ht; exact ih _ (settleFlight_memsWf ht f)
  exact H _ _ h

theorem State.MemsWf.qspiStore {s : State} (h : s.MemsWf) (a : Nat) (b : Byte) : (s.qspiStore a b).MemsWf := by
  unfold State.qspiStore
  dsimp only
  split
  · split
    · exact h.setMem _ (memWf_mwrite _ _ _ h.1)
    · exact h.of_same (State.setPr_mem _ _ _) (by unfold State.portErr; rw [State.setPr_tw0]) (by unfold State.portErr State.setPr; split <;> rfl)
  · split
    · exact h.setMem _ (memWf_mwrite _ _ _ h.1)
    · exact h

theorem hostSlotRelease_memsWf {s : State} (h : s.MemsWf) (k : Nat) : (hostSlotReleaseStep k s).MemsWf := by
  unfold hostSlotReleaseStep; split
  · exact h.setMem _ (memWf_mwrite _ _ _ h.1)
  · exact h

theorem moveBytes_memsWf {s : State} (h : s.MemsWf) (x : Xfer) (lo hi : Nat) : (moveBytes x lo hi s).MemsWf := by
  unfold moveBytes; split
  · exact h
  · exact ite_memsWf (h.setFk _ (memWf_mwrites _ _ _ h.2.2)) (h.setMem _ (memWf_mwrites _ _ _ h.1))

/-- What each step of a fold keeps, the fold keeps. -/
theorem foldl_memsWf {α : Type} (f : State → α → State) (hf : ∀ a x, a.MemsWf → (f a x).MemsWf) (l : List α) :
    ∀ s : State, s.MemsWf → (l.foldl f s).MemsWf := by
  induction l with
  | nil => intro s h; exact h
  | cons x r ih => intro s h; exact ih _ (hf s x h)

/-- Bulk transfers going on between frames keep the form. -/
theorem xfersFrame_memsWf {s : State} (h : s.MemsWf) : (xfersFrame s).MemsWf := by
  unfold xfersFrame
  exact ite_memsWf h (foldl_memsWf (fun a x => moveBytes x x.moved _ a) (fun a x ha => moveBytes_memsWf ha x _ _) _ s h)

/-- So do the samples of a packet that are stored in their region. -/
theorem rxStore_memsWf {s : State} (h : s.MemsWf) (i : Nat) (k : RxPkt) : (rxStore i k s).MemsWf := by
  unfold rxStore; split
  · exact h
  · exact foldl_memsWf _ (fun a x ha => ha.setFk _ (memWf_mwrites _ _ _ ha.2.2)) _ s h

/-- A memory of the Firkin written, or one piece of state beside it, and a delay line changed. -/
theorem lineStored_memsWf {s : State} (h : s.MemsWf) (a k : Nat) (bs : List Byte) (l : Line) :
    (({ s with fk := mwrites s.fk a bs } : State).setLine k l).MemsWf :=
  h.setFk _ (memWf_mwrites _ _ _ h.2.2)

theorem lineStore_memsWf {s : State} (h : s.MemsWf) (k : Nat) (x : Int) : (lineStore k x s).MemsWf := by
  unfold lineStore; dsimp only
  split
  · exact h
  · split
    · exact h
    · exact ite_memsWf (lineStored_memsWf h _ _ _ _) (ite_memsWf (lineStored_memsWf h _ _ _ _)
        (ite_memsWf h (lineStored_memsWf h _ _ _ _)))

theorem regionClear_memsWf {s : State} (h : s.MemsWf) : (regionClearDoneStep s).MemsWf := by
  unfold regionClearDoneStep; split
  · exact h
  · dsimp only; split
    · exact h
    · exact ⟨h.1, h.2.1, memWf_mclear _ _ _ h.2.2⟩

theorem listenSample_memsWf {s : State} (h : s.MemsWf) (a b : List Int) : (listenSampleStep a b s).MemsWf := by
  unfold listenSampleStep; split
  · exact h
  · exact ⟨h.1, h.2.1, memWf_mwrites _ _ _ h.2.2⟩

end Sys2Proof.Machine
end

