-- ==== Sys2Proof/Laws/Net.lean ====
section
/-! SUPPORT. Where a received frame that passes its port's filters goes, row by row of R309. -/
namespace Sys2Proof.Machine
open Sys2Proof

theorem rxEcho_answered {p ip : Nat} {e : Eth} {f body : List Byte} {s : State} (h : echoAnswer (s.netP p) f = some (ip, body))
    (hr : (s.netP p).echoRoom s.clk = true) :
    rxEcho p e f s =
      rxAnswered p f ((s.setNet p ((s.netP p).echoed s.clk)).fwIp p e.src ip 1 (Config.frameField 0 % 256) (s.netP p).dscp [] body) := by
  unfold rxEcho; rw [h]; exact if_pos hr
theorem rxEcho_other {p : Nat} {e : Eth} {f : List Byte} {s : State} (h : echoAnswer (s.netP p) f = none) :
    rxEcho p e f s = rxRest p e f s := by
  unfold rxEcho; rw [h]

theorem rxLocal_arp {p mac : Nat} {e : Eth} {f body : List Byte} {s : State} (h : arpAnswer (s.netP p) e f = some (mac, body)) :
    rxLocal p e f s = rxAnswered p f (s.fwEth p mac 0x0806 body) := by
  unfold rxLocal; rw [h]
theorem rxLocal_other {p : Nat} {e : Eth} {f : List Byte} {s : State} (h : arpAnswer (s.netP p) e f = none) :
    rxLocal p e f s = rxEcho p e f s := by
  unfold rxLocal; rw [h]

theorem rxRest_query {p : Nat} {e : Eth} {f : List Byte} {ip : Ip4} {s : State} (h : ip4Of f = some ip) (h1 : ip.proto = 2)
    (h2 : 8 ≤ ip.body.length) (h3 : byteAt ip.body 0 = 0x11) : rxRest p e f s = hostRx p f true (igmpQuery p ip.body s) := by
  unfold rxRest; rw [h]; exact if_pos ⟨h1, h2, h3⟩
theorem rxRest_host {p : Nat} {e : Eth} {f : List Byte} {s : State} (h : ∀ ip : Ip4, ip4Of f = some ip → ip.proto ≠ 2) :
    rxRest p e f s = rxHostRow p e f s := by
  unfold rxRest
  split
  · rename_i ip h1; exact if_neg fun x => h ip h1 x.1
  · rfl

/-- A frame without error that is no pause frame and that some filter passes goes on to its rows. -/
theorem ethRx_passes {p : Nat} {f : List Byte} {s : State} (h : s.rxPasses p f = true) :
    ethRxStep p f true s = (match ptpOf (ethOf f) f with
      | none => rxIp p (ethOf f) f s
      | some (l2, m) =>
        match s.ptpOwner p l2 m with
        | some t => ptpRx t m (s.rxCount p fun n => { n with rxOk := satInc 31 n.rxOk })
        | none => rxIp p (ethOf f) f s) := by
  unfold State.rxPasses at h
  simp only [Bool.and_eq_true, Bool.not_eq_true', decide_eq_true_eq] at h
  obtain ⟨⟨⟨⟨h1, h2⟩, h3⟩, h4⟩, h5⟩ := h
  have h6 : decide ((s.netP p).mtu < f.length + 4) = false := by rw [decide_eq_false_iff_not]; omega
  unfold ethRxStep
  simp only [h1, h2, h4, h6, Bool.not_true, Bool.or_self, Bool.false_eq_true, if_false]
  refine if_neg fun x => ?_
  simp only [Bool.and_eq_true, Bool.not_eq_true'] at x
  obtain ⟨⟨⟨x1, x2⟩, x3⟩, x4⟩ := x
  rw [x1, x2, x3, x4] at h5
  exact Bool.noConfusion h5

/-- One that is no tracker's goes on as IPv4 or to the port itself. -/
theorem ethRx_plain {p : Nat} {f : List Byte} {s : State} (h : s.rxPasses p f = true) (h1 : s.rxPlain p f = true) :
    ethRxStep p f true s = rxIp p (ethOf f) f s := by
  rw [ethRx_passes h]
  unfold State.rxPlain at h1
  split
  · rfl
  · rename_i l2 m h2
    rw [h2] at h1
    rw [Option.isNone_iff_eq_none.1 h1]

/-- One that no tracker, no stream and no Fjarord port takes goes to the port itself. -/
theorem ethRx_left {p : Nat} {f : List Byte} {s : State} (h : s.rxPasses p f = true) (h1 : s.rxLeft p f = true) :
    ethRxStep p f true s = rxLocal p (ethOf f) f s := by
  unfold State.rxLeft at h1
  rw [Bool.and_eq_true] at h1
  obtain ⟨h1, h2⟩ := h1
  rw [ethRx_plain h h1]
  unfold rxIp
  cases h3 : ip4Of f with
  | none => rfl
  | some ip =>
    rw [h3] at h2
    dsimp only at h2 ⊢
    cases h4 : udpOf ip with
    | none => rfl
    | some u =>
      rw [h4] at h2
      simp only [Bool.and_eq_true, Option.isNone_iff_eq_none, State.fjPort] at h2
      dsimp only
      rw [h2.1]
      refine if_neg fun ⟨x, y⟩ => ?_
      have h5 := h2.2
      simp only [x, decide_true, Bool.true_and, Bool.not_eq_true', Bool.or_eq_false_iff, Bool.and_eq_false_iff,
        decide_eq_false_iff_not] at h5
      rcases y with y | ⟨y, z⟩
      · exact h5.1 y
      · rcases h5.2 with w | w
        · exact w y
        · exact w z

end Sys2Proof.Machine
end

