-- ==== Sys2Proof/Laws/Scan.lean ====
section
/-!
SUPPORT. The boundary register: whatever order the cells stand in, there are 102 of them (R591).
-/
namespace Sys2Proof.Machine
open Sys2Proof

theorem length_ordered {α : Type} (f : Nat → Nat) : ∀ (n : Nat) (l : List α), l.length = n → (ordered f n l).length = n
  | 0, _, _ => rfl
  | n + 1, l, h => by
    have hk : f (n + 1) % (n + 1) < l.length := by rw [h]; exact Nat.mod_lt _ (Nat.succ_pos n)
    simp only [ordered, List.getElem?_eq_getElem hk, List.length_cons]
    rw [length_ordered f n _ (by rw [List.length_eraseIdx_of_lt hk, h]; rfl)]

theorem bsCells_length : bsCells.length = 102 := by
  rw [bsCells, List.length_append, length_ordered _ 4 _ (by decide), length_ordered _ 98 _ (by decide)]

/-- A capture of the boundary register gives one bit a cell. -/
theorem bsCapture_length (s : State) : s.bsCapture.length = 102 := by
  simp [State.bsCapture, bsCells_length]

end Sys2Proof.Machine
end

