-- ==== Sys2Proof/Laws/Streams.lean ====
section
/-!
SUPPORT. What the arrival of datagrams and a switch of trackers leave alone: the engine, the clock, the frame counter, and the commands in
flight.
-/
namespace Sys2Proof.Machine
open Sys2Proof

/-- Streams, their store, records and events may differ; the engine, the clock, device time and the commands in flight do not. -/
structure StreamsOnly (s t : State) : Prop where
  eng : t.eng = s.eng
  tm : t.tm = s.tm
  clk : t.clk = s.clk
  flight : t.flight = s.flight

theorem StreamsOnly.refl (s : State) : StreamsOnly s s := ⟨rfl, rfl, rfl, rfl⟩
theorem StreamsOnly.trans {s t u : State} (h : StreamsOnly s t) (g : StreamsOnly t u) : StreamsOnly s u :=
  ⟨g.1.trans h.1, g.2.trans h.2, g.3.trans h.3, g.4.trans h.4⟩
theorem StreamsOnly.ite {c : Prop} [Decidable c] {s t u : State} (h : StreamsOnly s t) (g : StreamsOnly s u) :
    StreamsOnly s (if c then t else u) := by
  by_cases hc : c
  · rw [if_pos hc]; exact h
  · rw [if_neg hc]; exact g
theorem StreamsOnly.events {s t : State} (h : EventsOnly s t) : StreamsOnly s t := by
  obtain ⟨_, _, _, _, _, _, _, rfl⟩ := h; exact ⟨rfl, rfl, rfl, rfl⟩
theorem StreamsOnly.rxReport (i : Nat) (s : State) : StreamsOnly s (rxReport i s) := by
  have h : StreamsOnly s (s.rxEvent i) := by
    have e := StreamsOnly.events (EventsOnly.raise ({ s.setRx i { s.rxs i with repSt := (s.rxs i).st, repPaths := (s.rxs i).paths } with
      evLast := tset (0x703 * 65536 + i) s.nowNs s.evLast } : State) 0x703
      (le 2 i ++ le 1 (s.rxs i).st ++ le 1 (s.rxs i).paths ++ le 4 s.frame32))
    exact ⟨e.1, e.2, e.3, e.4⟩
  exact .ite h (.refl s)
theorem StreamsOnly.foldl {α : Type} (f : State → α → State) (h : ∀ a x, StreamsOnly a (f a x)) (l : List α) :
    ∀ s, StreamsOnly s (l.foldl f s) := by
  induction l with
  | nil => intro s; exact .refl s
  | cons x l ih => intro s; exact (h s x).trans (ih _)
theorem StreamsOnly.rxStore (i : Nat) (k : RxPkt) (s : State) : StreamsOnly s (rxStore i k s) := by
  unfold Machine.rxStore
  split
  · exact .refl s
  · refine StreamsOnly.foldl _ (fun a x => ?_) _ s
    exact ⟨rfl, rfl, rfl, rfl⟩
theorem StreamsOnly.rxWrite (i p : Nat) (c : RxCfg) (k : RxPkt) (s : State) : StreamsOnly s (rxWrite i p c k s) := by
  unfold Machine.rxWrite
  exact .trans (t := s.setRx i _) ⟨rfl, rfl, rfl, rfl⟩ ((StreamsOnly.rxStore i k _).trans (.rxReport i _))
theorem StreamsOnly.rxPacket (i p : Nat) (c : RxCfg) (b : Bool) (d : List Byte) (arr : Nat) (s : State) :
    StreamsOnly s (rxPacket i p c b d arr s) := by
  unfold Machine.rxPacket
  dsimp only
  split
  · exact ⟨rfl, rfl, rfl, rfl⟩
  · split
    · exact ⟨rfl, rfl, rfl, rfl⟩
    · split
      · exact ⟨rfl, rfl, rfl, rfl⟩
      · split
        · exact ⟨rfl, rfl, rfl, rfl⟩
        · split
          · exact .trans (t := s.setRx i _) ⟨rfl, rfl, rfl, rfl⟩ (.rxReport i _)
          · exact .rxWrite i p c _ s
theorem StreamsOnly.rxLands (lim : Nat) (s : State) : StreamsOnly s (rxLands lim s) := by
  unfold Machine.rxLands forEach
  refine StreamsOnly.foldl _ (fun a i => ?_) _ s
  dsimp only
  split
  · exact .refl a
  · refine .trans (t := a.setRx i _) ⟨rfl, rfl, rfl, rfl⟩ (StreamsOnly.foldl _ (fun b y => ?_) _ _)
    split
    · split
      · exact .rxPacket i _ _ _ _ _ b
      · exact .refl b
    · exact .refl b
theorem StreamsOnly.landed (s : State) : StreamsOnly s s.landed := .rxLands _ s

/-- The trackers, the controller's aims and events may differ; the engine, the clock, device time, the frame counter and the commands in
flight do not. -/
structure AimsOnly (s t : State) : Prop where
  eng : t.eng = s.eng
  clk : t.clk = s.clk
  devT : t.tm.devT = s.tm.devT
  frame : t.tm.frame = s.tm.frame
  flight : t.flight = s.flight

theorem AimsOnly.refl (s : State) : AimsOnly s s := ⟨rfl, rfl, rfl, rfl, rfl⟩
theorem AimsOnly.trans {s t u : State} (h : AimsOnly s t) (g : AimsOnly t u) : AimsOnly s u :=
  ⟨g.1.trans h.1, g.2.trans h.2, g.3.trans h.3, g.4.trans h.4, g.5.trans h.5⟩
theorem AimsOnly.ite {c : Prop} [Decidable c] {s t u : State} (h : AimsOnly s t) (g : AimsOnly s u) :
    AimsOnly s (if c then t else u) := by
  by_cases hc : c
  · rw [if_pos hc]; exact h
  · rw [if_neg hc]; exact g
theorem AimsOnly.events {s t : State} (h : EventsOnly s t) : AimsOnly s t := by
  obtain ⟨_, _, _, _, _, _, _, rfl⟩ := h; exact ⟨rfl, rfl, rfl, rfl, rfl⟩
theorem AimsOnly.setTt (s : State) (t : Nat) (k : Tracker) : AimsOnly s (s.setTt t k) := by
  unfold State.setTt; repeat' split
  all_goals exact ⟨rfl, rfl, rfl, rfl, rfl⟩
theorem AimsOnly.slew (s : State) (e : Int) : AimsOnly s (s.slew e) := by
  unfold State.slew; dsimp only; split <;> exact ⟨rfl, rfl, rfl, rfl, rfl⟩
theorem AimsOnly.stepIn (s : State) (b : Bool) (e : Int) (c : Nat) (l j : Option Nat) : AimsOnly s (s.stepIn b e c l j) := by
  unfold State.stepIn; split <;> exact ⟨rfl, rfl, rfl, rfl, rfl⟩
theorem AimsOnly.absorb (s : State) : AimsOnly s s.absorb := by
  unfold State.absorb; dsimp only; split
  · exact .refl s
  · split
    · exact .refl s
    · exact .ite (.refl s) (.ite ⟨rfl, rfl, rfl, rfl, rfl⟩ (.slew _ _))
theorem AimsOnly.slewed {s t : State} (h : AimsOnly s t) (e : Int) : AimsOnly s (t.slew e) := h.trans (.slew t e)
theorem AimsOnly.goneEst (s : State) (o : Option Nat) : AimsOnly s (s.goneEst o) := by
  unfold State.goneEst
  split
  · exact .ite (.refl s) (.setTt _ _ _)
  · exact .refl s
theorem AimsOnly.switchTo (s : State) (t c : Nat) : AimsOnly s (s.switchTo t c) := by
  have h : ∀ m : Tm, m.devT = s.tm.devT → m.frame = s.tm.frame → AimsOnly s (State.goneEst { s with tm := m } s.tm.active) :=
    fun m h1 h2 => .trans (t := { s with tm := m }) ⟨rfl, rfl, h1, h2, rfl⟩ (.goneEst _ _)
  unfold State.switchTo
  dsimp only
  split
  · exact .refl s
  · refine .trans ?_ (.events (.raise _ _ _))
    refine .ite (.trans (h _ ?_ ?_) (.stepIn _ _ _ _ _ _)) (.ite (.trans (h _ ?_ ?_) ⟨rfl, rfl, rfl, rfl, rfl⟩)
      (.slewed (h _ ?_ ?_) _)) <;> rfl

/-- A switch that was decided leaves the engine, the clock, device time, the frame counter and the commands in flight. -/
theorem AimsOnly.switchDue (s : State) : AimsOnly s s.switchDue := by
  have h : AimsOnly s { s with tm := { s.tm with switchWait := none } } := ⟨rfl, rfl, rfl, rfl, rfl⟩
  unfold State.switchDue
  split
  · exact .refl s
  · split
    · exact .refl s
    · exact .ite (h.trans (.absorb _)) (h.trans (.switchTo _ _ _))

/-- The end of a change of the rate leaves the engine, device time and the clock. -/
theorem rateLands_keeps (s : State) :
    (rateLands s).eng = s.eng ∧ (rateLands s).tm = s.tm ∧ (rateLands s).clk = s.clk := by
  unfold rateLands
  split
  · dsimp only
    split
    · exact ⟨rfl, rfl, rfl⟩
    · rename_i c _ _
      have e := StreamsOnly.events (EventsOnly.raise { s with rateChg := none } 0x904 (le 4 s.tm.rate ++ le 4 s.frame32))
      have k : ∀ {α : Type} (g : State → α) (h : ∀ a id d n, g (a.finishOk id d n) = g a) (d : List Byte) (n : Nat) (b : State),
          g (forEach c.jobs (fun id a => a.finishOk id d n) b) = g b :=
        fun g h d n b => forEach_keeps g _ (fun k a => h a k d n) _ b
      exact ⟨(k State.eng (fun _ _ _ _ => rfl) _ _ _).trans e.eng, (k State.tm (fun _ _ _ _ => rfl) _ _ _).trans e.tm,
        (k State.clk (fun _ _ _ _ => rfl) _ _ _).trans e.clk⟩
  · exact ⟨rfl, rfl, rfl⟩

end Sys2Proof.Machine
end

