-- ==== Sys2Proof/Tests/Slice0.lean ====
section
/-!
SUPPORT. Tests of the model's author: an ill-formed command for each check, a few values the spec prints, and for each statement with
hypotheses a concrete state and operands that meet them.
-/
namespace Sys2Proof.Tests
open Sys2Proof Sys2Proof.Machine

/-! ### Small states -/

/-- READY, in Idle, with the frames running. -/
def idle : State := { pwr := { boot := .done, ready := true }, pins := { pgIn := true }, tm := { frameRun := true } }
/-- The same in Run, in Listen, and in Hibernate with PWR_EN low for 10 ms. -/
def running : State := { idle with pwr := { idle.pwr with pstate := .run } }
def listening : State := { idle with pwr := { idle.pwr with pstate := .listen } }
def asleep : State := { pwr := { pstate := .hibernate, pwrEn := false }, clk := 10000000 }
/-- A reset state whose boot has reached a step. -/
def booting (b : Boot) : State := { pwr := { boot := b }, pins := { pgIn := true } }

/-- A packet on queue q with n zero bytes of parameters, or with bytes of its own. -/
def packet (q : Nat) (params : List Byte) (flags : Nat := 0) (whenNs : Nat := 0) : Cmd :=
  { queue := q, tag := 7, len := 16 + params.length, flags := flags, whenNs := whenNs, params := params }
/-- A ROUTE_SET of one entry: destination 0x000 takes SILENCE by CUT. -/
def routeOne : List Byte := le 2 1 ++ [1#8, 0#8] ++ le 2 0 ++ le 2 0 ++ le 2 0x200 ++ le 2 0x3FF

/-- The checks of R46 that a packet meets as it starts. -/
def startsWith (s : State) (opc : Nat) (c : Cmd) : Option Err :=
  startErr (s.packet opc c) (s.queue c.queue).port (s.taken (s.packet opc c))

/-- A flight without completed commands meets the invariant. -/
theorem inv_of_no_flight (s : State) (h : s.flight = []) : s.Inv := by intro f hf; rw [h] at hf; cases hf

/-! ### Well-formedness refuses -/

theorem test_wf_packet_queue : Instr.wf (.nop 0 { queue := 32 }) = false := by decide
theorem test_wf_packet_len : Instr.wf (.nop 0 { queue := 2, len := 20 }) = false := by decide
theorem test_wf_packet_tag : Instr.wf (.nop 0 { queue := 2, tag := 65536 }) = false := by decide
theorem test_wf_packet_flags : Instr.wf (.caps 0 { queue := 2, flags := 256 }) = false := by decide
theorem test_wf_packet_rsvd : Instr.wf (.caps 0 { queue := 2, rsvd := 256 }) = false := by decide
theorem test_wf_packet_when : Instr.wf (.caps 0 { queue := 2, whenNs := 2 ^ 64 }) = false := by decide
theorem test_wf_doorbell_queue : Instr.wf (.sqTailDoorbell 0 32 0) = false := by decide
theorem test_wf_register_port : Instr.wf (.cqHeadRelease 0 2 0 0) = false := by decide
theorem test_wf_register_value : Instr.wf (.irqStatClear 0 1 4294967296) = false := by decide
theorem test_wf_register_address : Instr.wf (.registerWrite 0 1 16777216 0) = false := by decide
theorem test_wf_slot : Instr.wf (.hostSlotRelease 0 64) = false := by decide
theorem test_wf_read : Instr.wf (.read 0 16777216 1) = false := by decide
theorem test_wf_unknown : Instr.wf (.qspiUnknownInstruction 0 256) = false := by decide
theorem test_wf_scan : Instr.wf (.extest 0 { straps := { bootsel := 4 } }) = false := by decide
theorem test_wf_code : Instr.wf (.bypass { dt := 0, code := 6 }) = false := by decide
theorem test_wf_tap : Instr.wf (.tapReset { dt := 0, straps := { addr := 4 } }) = false := by decide
theorem test_wf_bridge : Instr.wf (.spkOvercurrent 0 2) = false := by decide
theorem test_wf_group : Instr.wf (.outSeqStep 0 20) = false := by decide
theorem test_wf_jack : Instr.wf (.jackEdge 0 4 true) = false := by decide
theorem test_wf_input_channel : Instr.wf (.frameBoundary 0 { ain := [{ ch := 32, smp := List.replicate 8 {} }] } true) = false := by decide
theorem test_wf_input_samples : Instr.wf (.frameBoundary 0 { ain := [{ ch := 0, smp := [] }] } true) = false := by decide
theorem test_wf_record_queue : Instr.wf (.cqRecordWrite 0 32) = false := by decide
theorem test_wf_event_port : Instr.wf (.eventLost 0 0) = false := by decide
theorem test_wf_destination : Instr.wf (.routeFadeEnd 0 1024) = false := by decide
theorem test_wf_line : Instr.wf (.delayXfadeEnd 0 128) = false := by decide
theorem test_wf_input : Instr.wf (.settleEnd 0 32) = false := by decide
theorem test_wf_pair : Instr.wf (.mergeCalBlock 0 0 2 3200) = false := by decide
theorem test_wf_speed : Instr.wf (.linkChange 0 0 7 true true) = false := by decide
theorem test_wf_port : Instr.wf (.igmpReportSend 0 2) = false := by decide
theorem test_wf_stream : Instr.wf (.rxStream 0 128) = false := by decide
theorem test_wf_tracker : Instr.wf (.followerForget 0 2) = false := by decide
theorem test_wf_pll : Instr.wf (.mpllLock 0 3) = false := by decide
theorem test_wf_mpll : Instr.wf (.mpllRefLoss 0 2) = false := by decide
theorem test_wf_cko : Instr.wf (.ckoApply 0 8) = false := by decide
theorem test_wf_tp : Instr.wf (.tpFrame 0 4 [] true 0) = false := by decide
theorem test_wf_slots : Instr.wf (.tpFrame 0 0 [4294967296] true 0) = false := by decide
theorem test_wf_asrc : Instr.wf (.asrcLock 0 64 0) = false := by decide
theorem test_wf_listen : Instr.wf (.listenSample 0 (8388608 :: List.replicate 63 0) (List.replicate 64 0)) = false := by decide
theorem test_wf_listen_samples : Instr.wf (.listenSample 0 [] []) = false := by decide
theorem test_wf_gauge : Instr.wf (.gaugePassDue 0 2) = false := by decide
theorem test_wf_straps : Instr.wf (.rstNRelease 0 { addr := 4 }) = false := by decide
theorem test_ill_formed_is_refused : exec (.eventLost 0 0) State.reset = .refused .illFormed := rfl

/-! ### What the spec prints -/

/-- R8, R590: the IDCODE of LF9512-A. -/
theorem test_idcode : idcodeOf .a = 0x19512A3D := by decide
/-- R60's table at its edges. -/
theorem test_queue_table : ((State.reset.queue 15).cls, (State.reset.queue 16).cls, (State.reset.queue 20).port,
    (State.reset.queue 29).cls, (State.reset.queue 31).port) = (.normal, .bulk, 2, .event, 3) := by decide
/-- R36: every entry of the route table names SILENCE after reset. -/
theorem test_reset_route : (State.reset.route 1023).src = 0x3FF := by decide
/-- R513: READY is not there before the boot has ended. -/
theorem test_reset_not_ready : State.reset.pwr.ready = false := by decide
/-- R85: NOP gives its bytes back, and the record is 16 bytes and the data. -/
theorem test_nop_record : (match exec (.nop 0 (packet 2 [1#8, 2#8, 3#8, 4#8])) idle with
    | .next t => mreads t.mem 0x32000 4 == [7#8, 0#8, 0#8, 0#8] && mreads t.mem 0x32010 4 == [1#8, 2#8, 3#8, 4#8] | _ => false) = true := by
  decide
/-- R509: the address wraps in a window and runs on outside. -/
theorem test_burst_wraps : (burstAddr 0x10FFF 1, burstAddr 0x0FFF 1) = (0x10000, 0x1000) := by decide
/-- R22: a late counter that is full stays and sets SAT. -/
theorem test_counter_saturates : satInc 31 (0x7FFFFFFF, false) = (0x7FFFFFFF, true) := by decide
/-- R560: WAKE_N in Hibernate boots the part with cause 6 once PWR_EN has been low for 10 ms. -/
theorem test_wake_n_boots : (match exec (.wakeN 0) { asleep with pins := { pgIn := true } } with
    | .next t => decide (t.pwr.boot = .released) && decide (t.pwr.cause = 6) | _ => false) = true := by decide

/-! ### Witnesses: the block and the interpreter -/

theorem test_StepRunsFront : State.pending { idle with pending := [.wakeN 0] } = .wakeN 0 :: [] ∧ idle.pending = [] := by decide
theorem test_ResetBindsQueues : 31 < 32 ∧ 0 < 32 := by decide
theorem test_StepKeepsInvariant : idle.Inv ∧ step { idle with pending := [.tmodeChange 0 false] } = .next idle :=
  ⟨inv_of_no_flight _ rfl, rfl⟩
theorem test_RefusedCommandLeavesOnlyItsRecord : (packet 2 [1#8]).wf = true ∧ (idle.advance 0).opensTo 2 = true ∧
    packetRow (.nop 0 (packet 2 [1#8])) = some (1, packet 2 [1#8]) ∧
    (startsWith (idle.advance 0) 1 (packet 2 [1#8])).isSome = true := by decide
theorem test_CommandTakesEffectAtOnce : (packet 2 []).wf = true ∧ (idle.advance 0).opensTo 2 = true ∧
    packetRow (.nop 0 (packet 2 [])) = some (1, packet 2 []) ∧
    (opDef 1).map (·.tied) = some false ∧ startsWith (idle.advance 0) 1 (packet 2 []) = none ∧ bit 0 0 = false := by decide
theorem test_CommandTakesEffectAtOnce_listen : (packet 2 routeOne).wf = true ∧ (listening.advance 0).opensTo 2 = true ∧
    (opDef 0x101).map (·.tied) = some true ∧ startsWith (listening.advance 0) 0x101 (packet 2 routeOne) = none ∧
    (listening.advance 0).inListen = true := by decide
theorem test_TiedCommandWaitsForItsFrame : (packet 2 routeOne).wf = true ∧ (idle.advance 0).opensTo 2 = true ∧
    packetRow (.routeSet 0 (packet 2 routeOne)) = some (0x101, packet 2 routeOne) ∧
    (opDef 0x101).map (·.tied) = some true ∧ startsWith (idle.advance 0) 0x101 (packet 2 routeOne) = none ∧
    (idle.advance 0).inListen = false := by decide
theorem test_ScheduledCommandWaitsOrExpires : (packet 2 [] 1 1000000).wf = true ∧ (idle.advance 0).opensTo 2 = true ∧
    (opDef 1).isSome = true ∧ startsWith (idle.advance 0) 1 (packet 2 [] 1 1000000) = none ∧ bit 1 0 = true ∧
    (idle.advance 0).inListen = false := by decide
theorem test_ScheduledCommandWaitsOrExpires_past : startsWith ((idle.advance 1000)) 1 (packet 2 [] 3 1) = none ∧ bit 3 0 = true ∧
    bit 3 1 = true ∧ ((idle.advance 1000).launched ((idle.advance 1000).packet 1 (packet 2 [] 3 1))).whenPast 1 = true := by decide

/-- A scheduled NOP whose frame has come. -/
def dueNop : Flight := { id := 1, pkt := { opc := 1, queue := 2, tag := 7, len := 16, flags := 1 }, port := 1, startNs := 0, startClk := 0,
                         phase := .waitWhen }
def dueState : State := { idle with flight := [dueNop], seq := 1, eng := { applyQ := [1], first := false } }
def dueBegun : State :=
  { dueState.advance 0 with
    eng := { (dueState.advance 0).eng with applyQ := [] }
    flight := [{ dueNop with phase := .running }] }
theorem test_ScheduledCommandAppliesAtItsFrame : (dueState.advance 0).flight = [dueNop] ∧ (dueState.advance 0).eng.applyQ = [dueNop.id] ∧
    dueNop.phase = .waitWhen ∧ dueNop.pkt.sched = true ∧ (opDef 1).isSome = true ∧ (dueState.advance 0).inListen = false ∧
    (dueState.advance 0).eng.working = none ∧ (dueState.advance 0).stepDue = false ∧ nsDiff (dueState.advance 0).apT 0 ≤ 0 ∧
    ((opDef 1).map fun d => (d.chk dueNop.pkt dueBegun).isNone) = some true := by decide

/-! ### Witnesses: registers, QSPI, TW0 -/

theorem test_RegisterClearsActAlone : idle.Inv ∧ regPort 1 = true ∧ regPort 3 = true ∧ (idle.advance 0).pwr.ready = true ∧
    (idle.advance 0).portRuns 1 = true ∧ (idle.advance 0).portRuns 3 = true ∧ (idle.advance 0).qspiOn = true ∧
    31 < 32 ∧ 0xFFFFFFFF < 4294967296 := ⟨inv_of_no_flight _ rfl, by decide⟩
theorem test_RegisterWriteSetsItsRegister : idle.Inv ∧ regPort 3 = true ∧ (idle.advance 0).portRuns 3 = true ∧
    (idle.advance 0).pwr.ready = true ∧ (0x044 ≤ 0x054 ∧ 0x054 < 0x058 ∧ 0x054 % 4 = 0) ∧ 31 < 32 := ⟨inv_of_no_flight _ rfl, by decide⟩
theorem test_RegisterWriteSetsItsRegister_before_ready : (booting .tw0).Inv ∧ ((booting .tw0).advance 0).pwr.ready = false ∧
    0xFFF < 0x1000 := ⟨inv_of_no_flight _ rfl, by decide⟩
/-- A window that holds one NOP of 16 bytes, with its tail there. -/
def oneNop : State := { idle with mem := mwrites [] 0x12000 (le 2 1 ++ le 2 7 ++ le 2 16 ++ le 2 0 ++ le 8 0) }
theorem test_DoorbellTakesPackets : oneNop.Inv ∧ (oneNop.advance 0).qspiOn = true ∧ (oneNop.advance 0).pwr.ready = true ∧
    ((oneNop.advance 0).queue 2).port = 1 ∧ ((oneNop.advance 0).queue 2).sqHead = 0 ∧
    fieldLe ((List.range 16).map fun i => mread (oneNop.advance 0).mem (0x10000 + 2 * 0x1000 + (0 + i) % 4096)) 4 2 = 16 ∧
    lenBad 16 = false := ⟨inv_of_no_flight _ rfl, by decide⟩
theorem test_DoorbellTakesPackets_errors : ((idle.advance 0).queue 31).port ≠ 1 ∧ ((idle.advance 0).queue 2).port = 1 ∧ 2 % 4 ≠ 0 ∧
    4096 < (4100 + 65536 - ((idle.advance 0).queue 2).sqHead) % 65536 := by decide
def oneRecord : State := { idle with queues := tset 2 { State.reset.queue 2 with cqTail := 16, recEnds := [16] } [] }
theorem test_CqHeadReleasesRecords : oneRecord.Inv ∧ (oneRecord.advance 0).portRuns 1 = true ∧
    ((oneRecord.advance 0).queue 2).recEnds = [] ++ 16 :: [] ∧ 16 ∉ ([] : List Nat) ∧ 16 ≠ ((oneRecord.advance 0).queue 2).cqHead ∧
    0 = ((oneRecord.advance 0).queue 2).cqHead ∧ 8 ∉ ((oneRecord.advance 0).queue 2).recEnds ∧ 8 ≠ ((oneRecord.advance 0).queue 2).cqHead :=
  ⟨inv_of_no_flight _ rfl, by decide⟩
theorem test_QspiReadsChangeNothing : idle.Inv ∧ (idle.advance 0).qspiOn = true ∧ 16777215 < 16777216 ∧
    255 ∉ [0x03, 0x0B, 0xEB, 0x02, 0x32, 0x05, 0x9F] := ⟨inv_of_no_flight _ rfl, by decide⟩
theorem test_QspiWriteStoresItsBytes_burst : idle.Inv ∧ 16777215 < 16777216 ∧
    (∀ k, k < [1#8].length → burstAddr 0x100000 k ≠ 0x100001) ∧ memWf (idle.advance 0).mem = true :=
  ⟨inv_of_no_flight _ rfl, by decide⟩
theorem test_QspiWriteStoresItsBytes : idle.Inv ∧ (idle.advance 0).qspiOn = true ∧ inWindow 0x10FFF = true ∧ 0x10FFF % 4096 + 1 ≤ 4096 ∧
    ((idle.advance 0).queue (windowQueue 0x10FFF)).port = 1 ∧ (0x100000 ≤ 0x1FFFFF ∧ 0x1FFFFF + 1 ≤ 0x200000) ∧
    inWindow 0x2F000 = true ∧ 0x2F000 % 4096 + 1 ≤ 4096 ∧ [1#8] ≠ [] ∧ ((idle.advance 0).queue (windowQueue 0x2F000)).port ≠ 1 := ⟨inv_of_no_flight _ rfl, by decide⟩
def pointed : State := { idle with tw0 := { ptr := 0x2FFF } }
theorem test_Tw0PointerReadsAndWrites : pointed.Inv ∧ (pointed.advance 0).tw0On = true ∧ 0x2000 ≤ (pointed.advance 0).tw0.ptr ∧
    (pointed.advance 0).tw0.ptr < 0x3000 ∧ (0x78#8).toNat = 2 * (0x3C + (pointed.advance 0).pwr.straps.addr) ∧
    (0x79#8).toNat = 2 * (0x3C + (pointed.advance 0).pwr.straps.addr) + 1 ∧ ((booting .qspi).advance 0).tw0On = false :=
  ⟨inv_of_no_flight _ rfl, by decide⟩
/-- The general call, and the last of the four addresses while ADDR is 0. -/
theorem test_Tw0PointerReadsAndWrites_other : (pointed.advance 0).tw0On = true ∧
    (0x00#8).toNat ≠ 2 * (0x3C + (pointed.advance 0).pwr.straps.addr) ∧
    (0x7F#8).toNat ≠ 2 * (0x3C + (pointed.advance 0).pwr.straps.addr) + 1 := by decide
def shadowed : State := { idle with tw0 := { rd := some { reg := 0x88, val := 0xFFFF, at0 := 0 },
                                             wr := some { reg := 0x14, bytes := [some 1#8, none, none, none], at0 := 0 } } }
theorem test_Tw0ShadowsLapse : shadowed.Inv ∧ (shadowed.advance 2000000).tw0.rd = some { reg := 0x88, val := 0xFFFF, at0 := 0 } ∧
    (shadowed.advance 2000000).tw0.wr.isSome = true ∧ 0 + 2000000 ≤ (shadowed.advance 2000000).clk := ⟨inv_of_no_flight _ rfl, by decide⟩
theorem test_StuckTw0IsReleased : shadowed.Inv ∧ (shadowed.advance 0).tw0On = true := ⟨inv_of_no_flight _ rfl, by decide⟩

/-! ### Witnesses: TW1, the test access port -/

def xfer : Tw1Cur := { id := 1, sr := false, taddr := 0x50, retry := 3, wlen := 2, rlen := 1, data := [1#8, 2#8] }
def waitingXfer : State := { idle with tw1 := { cur := some xfer } }
def activeXfer : State := { idle with tw1 := { cur := some { xfer with active := true } } }
theorem test_Tw1BusIsClearedFirst : (waitingXfer.advance 0).tw1.cur = some xfer ∧ xfer.active = false ∧ 0 < 9 ∧ 9 ≤ 9 ∧
    (waitingXfer.advance 0).tw1.stopOwed = false := by decide
def owing : State := { idle with tw1 := { stopOwed := true, waiting := [xfer] } }
theorem test_Tw1BusIsClearedFirst_owed : (owing.advance 0).tw1.stopOwed = true ∧ (owing.advance 0).tw1.cur = none ∧
    (owing.advance 0).tw1.waiting = xfer :: [] := by decide
theorem test_Tw1ArbitrationIsRetried : (waitingXfer.advance 0).tw1.cur = some xfer ∧ xfer.active = false ∧
    (waitingXfer.advance 0).tw1.stopOwed = false ∧ 65535 < 65536 ∧ 7 < 8 ∧
    xfer.attempts < xfer.retry ∧ ¬ ({ xfer with attempts := 3 } : Tw1Cur).attempts < xfer.retry := by decide
theorem test_Tw1TransferEnds : (activeXfer.advance 0).tw1.cur = some { xfer with active := true } ∧ xfer.wlen ≤ 2 ∧ 1 < xfer.wlen := by
  decide
/-- A scan of the whole boundary register. -/
def fullScan : Scan := { cells := List.replicate 102 true, rest := .shiftDr, straps := { addr := 3, bootsel := 3 } }
def held : State := { idle with jtag := { hold := true, cells := [] } }
theorem test_TapInstructionsHoldAndLeaveThePart : (idle.advance 0).tapRuns = true ∧ (idle.advance 0).jtag.hold = false ∧
    fullScan.straps.wf = true ∧
    fullScan.rest ≠ .testLogicReset ∧ (Instr.extest 0 fullScan = .extest 0 fullScan ∧ 0 = 0) := by decide
theorem test_TapInstructionsHoldAndLeaveThePart_again : held.Inv ∧ (held.advance 0).tapRuns = true ∧ (held.advance 0).jtag.hold = true :=
  ⟨inv_of_no_flight _ rfl, by decide⟩
theorem test_TapInstructionsHoldAndLeaveThePart_plain : idle.Inv ∧ held.Inv ∧ (idle.advance 0).tapRuns = true ∧ (idle.advance 0).jtag.hold = false ∧
    (held.advance 0).tapRuns = true ∧ (held.advance 0).jtag.hold = true ∧ (held.advance 0).pins.rstN = true ∧
    (held.advance 0).pwr.crystalStopped = false ∧ ((booting .off).resetPart 1 true true).alive = false ∧
    (Instr.bypass ⟨0, 0xFE, {}⟩ = .bypass ⟨0, 0xFE, {}⟩ ∧ 7 ≤ 0xFE ∧ 0xFE < 256) :=
  ⟨inv_of_no_flight _ rfl, inv_of_no_flight _ rfl, by decide⟩
/-- RST_N low: the TAP does not run. -/
theorem test_TapInstructionsHoldAndLeaveThePart_off : State.Inv { idle with pins := { pgIn := false } } ∧
    (State.advance { idle with pins := { pgIn := false } } 0).tapRuns = false := ⟨inv_of_no_flight _ rfl, by decide⟩
theorem test_TapInstructionsHoldAndLeaveThePart_highz : (let a := State.advance { held with jtag := { hold := true, ir := 4 } } 0
    a.jtag.hold = true ∧ a.jtag.ir = 4 ∧ Ball.irqN 0 ≠ Ball.pwrEn) := by decide

/-! ### Witnesses: reset, wake, boot -/

theorem test_ResetCausesResetThePart : (idle.advance 0).pwr.pwrEn = true ∧ (idle.advance 0).pins.pgIn = true ∧
    (idle.advance 0).fullHeld = false ∧ (idle.advance 0).alive = true ∧ 679 < 680 := by decide
theorem test_ResetCausesResetThePart_held : (let s : State := { booting .off with pwr := { crystalStopped := true } }
    s.Inv ∧ (s.advance 0).pwr.pwrEn = true ∧ (s.advance 0).pins.pgIn = true ∧ (s.advance 0).alive = false) :=
  ⟨inv_of_no_flight _ rfl, by decide⟩
theorem test_ResetCausesResetThePart_off : (let s : State := { idle with pwr := { idle.pwr with vaonLow := true } }
    (s.resetPart 1 true false).pwr.pstate = .off ∧ (idle.resetPart 1 true true).pwr.pstate ≠ .off) := by decide
theorem test_ResetCausesResetThePart_cause : (idle.resetPart 3 false false).pwr.cause = 3 ∧ (idle.resetPart 1 true true).pwr.cause = 1 := by decide
def down (f : Pwr → Pwr) (g : Pins → Pins) : State := { pwr := f {}, pins := g {} }
theorem test_ResetCausesEnd : State.Inv (down id fun p => { p with rstN := false }) ∧
    (let a := State.advance (down id fun p => { p with rstN := false }) 0; a.pins.rstN = false ∧ a.pwr.vaonLow = false) ∧
    (let a := State.advance (down (fun p => { p with vaonLow := true }) id) 0; a.pwr.vaonLow = true ∧ a.pins.rstN = true) ∧
    (State.advance (down (fun p => { p with crystalStopped := true }) id) 0).pwr.crystalStopped = true ∧
    (State.advance (down (fun p => { p with brownOut := true }) id) 0).pwr.brownOut = true ∧ 720 ≤ 720 ∧
    (let a := State.advance (down (fun p => { p with raiseDue := true, pwrEn := false }) id) 100000000
     a.pwr.raiseDue = true ∧ a.pwr.pwrEnAt + 100000000 ≤ a.clk) ∧
    (let a := State.advance (down id id) 50000000; a.pwr.pwrEn = true ∧ a.pins.pgIn = false ∧ a.fullHeld = false ∧
      a.pwr.pwrEnAt + 50000000 ≤ a.clk) ∧ Straps.wf { addr := 3, bootsel := 3 } = true :=
  ⟨inv_of_no_flight _ rfl, by decide⟩
def asleepAsked : State :=
  { asleep with
    pwr := { asleep.pwr with heldWake := some 7 }
    pc := { tw0Fl := 3 } }
def justAsleep : State := { asleepAsked with clk := 0 }
theorem test_WakesBootThePart : (asleepAsked.advance 0).pwr.pstate = .hibernate ∧
    (asleepAsked.advance 0).pwr.pwrEnAt + 10000000 ≤ (asleepAsked.advance 0).clk ∧ (asleepAsked.advance 0).pwr.heldWake = some 7 ∧
    bit (asleepAsked.advance 0).pc.tw0Fl 0 = true := by decide
theorem test_WakesBootThePart_early : justAsleep.Inv ∧ (justAsleep.advance 9999999).pwr.pstate = .hibernate ∧
    (justAsleep.advance 9999999).clk < (justAsleep.advance 9999999).pwr.pwrEnAt + 10000000 ∧
    bit (justAsleep.advance 9999999).pc.tw0Fl 0 = true := ⟨inv_of_no_flight _ rfl, by decide⟩
theorem test_WakesBootThePart_not_listening : State.Inv { asleep with pc := { tw0Fl := 0 } } ∧
    bit (State.advance { asleep with pc := { tw0Fl := 0 } } 0).pc.tw0Fl 0 = false := ⟨inv_of_no_flight _ rfl, by decide⟩
/-- Three tries of PWR_EN have failed. -/
def gaveUp : State := { asleepAsked with pwr := { asleepAsked.pwr with pstate := .idle, pgTries := 3 } }
theorem test_WakesBootThePart_after_tries : (let a := gaveUp.advance 0
    3 ≤ a.pwr.pgTries ∧ a.pwr.pwrEn = false ∧ a.held = false ∧ a.pwr.pwrEnAt + 10000000 ≤ a.clk) := by decide
def leaving : State := { idle with pwr := { idle.pwr with trans := some { job := none, target := .hibernate, old := .idle, step := 2 } }, pc := { tw0Fl := 1 } }
theorem test_WakesBootThePart_entry : leaving.Inv ∧ (leaving.advance 0).pwr.pstate ≠ .hibernate ∧ (leaving.advance 0).pwr.pgTries < 3 ∧
    2 ≤ (leaving.advance 0).hibStep ∧ bit (leaving.advance 0).pc.tw0Fl 0 = true ∧ (idle.advance 0).hibStep < 2 :=
  ⟨inv_of_no_flight _ rfl, by decide⟩
theorem test_BootStepsInOrder : ((booting .released).advance 1000000).pwr.boot = .released ∧
    ((booting .released).advance 1000000).pwr.bootT0 + 1000000 ≤ ((booting .released).advance 1000000).clk ∧
    ((booting .qspi).advance 0).pwr.boot = .qspi ∧ ((booting .tw0).advance 0).pwr.boot = .tw0 := by decide
def bootingFrom (bootsel : Nat) (loaded : Bool) : State :=
  { pwr := { boot := .image, loaded := loaded, straps := { bootsel := bootsel } }, pins := { pgIn := true } }
theorem test_BootStepsInOrder_image : ((bootingFrom 2 false).advance 0).pwr.boot = .image ∧ ((bootingFrom 2 false).advance 0).pwr.loaded = false ∧
    2 ≤ ((bootingFrom 2 false).advance 0).pwr.straps.bootsel ∧ ((bootingFrom 0 true).advance 1000000).pwr.loaded = true ∧
    ((bootingFrom 0 true).advance 1000000).pwr.stepAt + 1000000 ≤ ((bootingFrom 0 true).advance 1000000).clk := by decide
def imaged : State := { bootingFrom 1 false with mem := mwrites [] 0x1E0000 (le 4 0x49424C48) }
theorem test_BootImageAndConfiguration_window : (imaged.advance 0).pwr.boot = .image ∧ (imaged.advance 0).pwr.loaded = false ∧
    (imaged.advance 0).pwr.straps.bootsel = 1 ∧ fieldLe (mreads (imaged.advance 0).mem 0x1E0000 4) 0 4 = 0x49424C48 ∧
    fieldLe (mreads ((bootingFrom 1 false).advance 0).mem 0x1E0000 4) 0 4 ≠ 0x49424C48 := by decide
def aNop : Packet := { opc := 1, queue := 2, tag := 0, len := 16, config := true }
def configuring : State := { pwr := { boot := .config, cfgRest := [aNop] }, pins := { pgIn := true } }
theorem test_BootImageAndConfiguration_section : (configuring.advance 0).pwr.boot = .config ∧ (configuring.advance 0).pwr.cfgJob = none ∧
    (configuring.advance 0).pwr.cfgStatus = stOk ∧ (configuring.advance 0).pwr.cfgRest = aNop :: [] ∧
    (configuring.advance 0).pins.tmode = false ∧ configErr aNop = none := by decide

/-! ### Witnesses: power states, heat, Privet -/

def entering (t : PTrans) (s : State) : State := { s with pwr := { s.pwr with trans := some t } }
theorem test_RunIsEnteredInSteps : ((entering { job := none, target := .run, old := .idle, step := 1 } idle).advance 0).pwr.trans.isSome = true ∧
    ((entering { job := none, target := .run, old := .idle, step := 1 } idle).advance 0).framing = true ∧
    ((entering { job := none, target := .run, old := .idle, step := 1 } idle).advance 0).tm.frameRun = true ∧
    (running.advance 0).pwr.trans = none ∧ (running.advance 0).inRun = true := by decide
def toHib (step at0 : Nat) : PTrans := { job := some 1, target := .hibernate, old := .idle, step := step, at0 := at0 }
def withBridge : State := { idle with grps := tset 18 { st := 5, en := true } [] }
theorem test_HibernateIsEnteredInSteps : ((entering (toHib 1 0) idle).advance 0).pwr.trans = some (toHib 1 0) ∧
    ((entering (toHib 1 0) idle).advance 0).outsOff = true ∧ (toHib 1 0).job = some 1 ∧
    ((entering (toHib 1 0) withBridge).advance 401999999).outsOff = false ∧
    ((entering (toHib 1 0) withBridge).advance 401999999).clk < (toHib 1 0).at0 + 402000000 ∧
    ((entering (toHib 3 0) idle).advance 1000000).pwr.trans = some (toHib 3 0) ∧
    (toHib 3 0).at0 + 1000000 ≤ ((entering (toHib 3 0) idle).advance 1000000).clk := by decide
def deferred : State := { idle with pwr := { idle.pwr with deferral := some (toHib 0 0) } }
theorem test_HibernateIsEnteredInSteps_deferral : (deferred.advance 2000000000).pwr.deferral = some (toHib 0 0) ∧
    (toHib 0 0).at0 + 2000000000 ≤ (deferred.advance 2000000000).clk ∧ (deferred.advance 2000000000).inRun = false ∧
    (deferred.advance 1999999999).clk < (toHib 0 0).at0 + 2000000000 := by decide
theorem test_HeatAndVcoreAreFollowed : (idle.advance 0).alive = true ∧ 17280 ≤ max (17280 : Int) 0 ∧ 16000 ≤ max (0 : Int) 17279 ∧
    max (0 : Int) 17279 < 17280 ∧ (idle.advance 0).pwr.thermLevel ≠ 2 ∧ 12800 ≤ max (12800 : Int) 0 ∧ (idle.advance 0).pwr.thermLevel = 0 ∧
    (State.advance { idle with pwr := { idle.pwr with thermLevel := 1 } } 0).pwr.thermLevel ≠ 0 ∧ max (12159 : Int) 0 < 12160 ∧
    decide (760 < 760) = (idle.advance 0).eng.lowv ∧ decide (759 < 760) ≠ (idle.advance 0).eng.lowv := by decide
theorem test_HeatAndVcoreAreFollowed_stays : (State.advance { idle with pwr := { idle.pwr with thermLevel := 2 } } 0).pwr.thermLevel = 2 ∧
    12160 ≤ max (12160 : Int) 0 ∧ max (15999 : Int) 0 < 16000 ∧ max (12799 : Int) 0 < 12800 ∧ (idle.advance 0).pwr.thermLevel = 0 ∧
    (pairsHot { idle.advance 0 with env := { tjC := 12799, tjE := 0 } }).pwr.thermLevel = 0 := by decide
theorem test_HeatAndVcoreAreFollowed_restart :
    (let a := State.advance { pwr := { tripped := true, pwrEn := false } } 10000000000
     a.pwr.tripped = true ∧ a.pwr.pwrEnAt + 10000000000 ≤ a.clk) := by decide
theorem test_PrivetCutsAndReleases : (listening.advance 0).listenRuns = true ∧ (listening.advance 0).priv = false ∧
    (let a := State.advance { listening with pins := { privN := false, pgIn := true } } 0
     a.listenRuns = true ∧ a.priv = true ∧ a.pwr.deferral = none ∧ a.pwr.straps.privScope = false) := by decide

/-! ### Witnesses: outputs and jacks -/

theorem test_ProtectionShutsTheGroup : ((withBridge.advance 0).grp 18).st ≠ 0 ∧ ((withBridge.advance 0).grp 19).st = 0 ∧
    6999 < 7000 ∧ 17000 < 17001 ∧
    (let a := State.advance { idle with grps := tset 16 { st := 5, en := true } [] } 0
     a.grpOk 16 = true ∧ (a.grp 16).st ≠ 0 ∧ (a.grp 16).fault ≠ some 6) ∧
    (let a := State.advance { idle with grps := tset 18 { fault := some 3 } [] } 0
     (a.grp 18).fault = some 3 ∧ (a.grp 18).latched = false ∧ (a.grp 18).en = false ∧ 7500 ≤ 7500 ∧
      (a.grp 19).fault = none ∧ (a.grp 19).wait = false) := by decide
theorem test_ProtectionShutsTheGroup_others : (17 : Nat) ≠ 18 := by decide
def inStep (st due : Nat) : State := { idle with grps := tset 0 { st := st, due := due, en := true } [] }
theorem test_OutputSequenceSteps : ((idle.advance 0).grp 0).st = 0 ∧
    (let a := (inStep 1 1000).advance 0; a.mtime < (a.grp 0).due ∧ a.tm.frame < (a.grp 0).due / 1000 ∧ (a.grp 0).st ≠ 5) ∧
    (∀ st ∈ [1, 2, 3, 4, 6, 7, 8], let a := (inStep st 0).advance 0
      (a.grp 0).due ≤ a.mtime ∧ (a.grp 0).st = st ∧ (a.grp 0).offSoon = false ∧ (a.grp 0).again = none) ∧
    (let a := State.advance { idle with grps := tset 17 { railHigh := true } [] } 50000000
     (a.grp 17).railHigh = true ∧ (a.grp 17).loudAt + 50000000 ≤ a.clk) := by decide
def lineJack (d : Option Deb) : State := { idle with jacks := tset 2 { jen := some true, deb := d } [] }
def aDeb : Deb := { toIn := true, at0 := 0, ns := 0, fr := 0 }
/-- A headphone jack that is in, its mute closed or open, and a removal that begins. -/
def phoneJack (acc : Option Bool) (d : Option Deb) (low : Bool) (v : Grp) : State :=
  { idle with
    jacks := tset 0 { jen := some true, acc := acc, deb := d } []
    grps := tset 16 v []
    pins := { pgIn := true, jackLow := [low, false, false, false] } }
def outDeb : Deb := { toIn := false, at0 := 0, ns := 0, fr := 0 }
/-- The level that shows an inserted plug is low: an edge to high begins a removal, and one to low ends it. -/
theorem test_JackDebounce_phones : (let a := (phoneJack (some true) none true {}).advance 0
     let b : State := { a with pins := { a.pins with jackLow := (List.range 4).map fun i => if i = 0 then !true else a.pins.jackLow.getD i false } }
     a.pins.jackLow.getD 0 false = true ∧ (b.jackUnit && b.jackEn 0) = true ∧ b.jackRead 0 = false ∧ (a.jack 0).acc = some true) ∧
    (let a := (phoneJack (some true) (some outDeb) false { hwMute := true }).advance 0
     let b : State := { a with pins := { a.pins with jackLow := (List.range 4).map fun i => if i = 0 then !false else a.pins.jackLow.getD i false } }
     (b.jackUnit && b.jackEn 0) = true ∧ b.jackRead 0 = true ∧ (a.jack 0).deb = some outDeb ∧ outDeb.toIn = false) ∧
    (let a := (phoneJack (some true) (some outDeb) false {}).advance 5000000
     (a.jackUnit && a.jackEn 0) = true ∧ outDeb.at0 + (a.jack 0).dbOut * 1000000 ≤ a.clk ∧ (a.jack 0).acc ≠ some outDeb.toIn ∧
      ((a.jack 0).waits = none)) ∧
    (let a := (phoneJack (some true) (some aDeb) true {}).advance 50000000; (a.jack 0).acc = some aDeb.toIn) ∧
    (let a := (phoneJack none (some aDeb) true {}).advance 50000000
     (a.jack 0).acc ≠ some aDeb.toIn ∧ (a.jack 0).waits = none ∧ aDeb.toIn = true ∧ (a.jack 0).hsdet = false ∧ (a.grp 16).fault ≠ some 6) ∧
    ((phoneJack none none true { fault := some 6, latched := true }).grp 16).fault = some 6 := by decide
theorem test_JackDebounce : (let a := idle.advance 0; a.pins.jackLow.getD 2 false = false ∧ (a.jackUnit && a.jackEn 2) = false) ∧
    (let a := (lineJack none).advance 0
     a.pins.jackLow.getD 2 false = false ∧ (a.jackUnit && a.jackEn 2) = true ∧ (a.jack 2).deb = none) ∧
    (let a := (lineJack (some aDeb)).advance 49999999; (a.jack 2).deb = some aDeb ∧ (a.jackUnit && a.jackEn 2) = true ∧
      a.clk < aDeb.at0 + (a.jack 2).dbIn * 1000000) ∧
    (let a := (lineJack (some aDeb)).advance 50000000
     aDeb.at0 + (a.jack 2).dbIn * 1000000 ≤ a.clk ∧ (a.jack 2).acc ≠ some aDeb.toIn) := by decide
def headset (m : Option HsMeas) (cls : Nat) (cand btnNow : Option Nat) (polls : List Nat) : State :=
  { idle with jacks := tset 0 { jen := some true, hsdet := true, btn := true, micb := some 0, acc := some true, meas := m, cls := cls,
                                cand := cand, btnNow := btnNow, polls := polls } [] }
theorem test_HeadsetMeasurementAndButtons : (let a := (headset (some { step := 0, at0 := 0, jflags := 0, ns := 0 }) 0 none none []).advance 5000000
     ((a.jack 0).meas.map (·.step)) = some 0 ∧ 0 + 5000000 ≤ a.clk ∧ a.framing = true ∧ a.gaugeFree 1 = true ∧ a.gbJack = false ∧
     a.gbAhead 5000000 = false ∧ a.gb.calGap a.clk = true) ∧
    (let a := (headset (some { step := 1, at0 := 0, jflags := 0, ns := 0 }) 0 none none []).advance 0
     ((a.jack 0).meas.map (·.step)) = some 1) := by decide
theorem test_HeadsetMeasurementAndButtons_press : (let a := (headset none 2 (some 0) none [1300, 1300, 1300]).advance 5250000
     a.polled 0 = true ∧ (a.jack 0).pollAt + 5250000 ≤ a.clk ∧ a.gbTurn (a.clk - 250000) = true ∧
      (a.jack 0).pollKind 1300 = some 0 ∧ (a.jack 0).cand = some 0 ∧ (a.jack 0).btnNow = none ∧ (a.jack 0).polls.length = 3) ∧
    (idle.advance 0).polled 0 = false ∧
    (let a := (headset none 2 (some 4) (some 0) [100]).advance 5250000
     a.polled 0 = true ∧ (a.jack 0).pollKind 100 = some 4 ∧ (a.jack 0).cand = some 4 ∧ (a.jack 0).btnNow = some 0 ∧ (a.jack 0).polls.length = 1) := by decide

/-! ### Witnesses: commands, queues, events -/

theorem test_SystemCommandsAnswer : (idle.advance 0).accepts 1 (packet 2 (List.replicate 8 1#8)) = true ∧
    (idle.advance 0).accepts 2 (packet 2 []) = true ∧
    (idle.advance 0).accepts 6 (packet 2 (le 2 0x4010 ++ [1#8, 1#8])) = true ∧
    (idle.advance 0).accepts 7 (packet 2 [3#8, 1#8, 1#8, 0#8]) = true ∧
    (idle.advance 0).accepts 8 (packet 2 []) = true ∧
    ((idle.advance 0).packet 7 (packet 2 [3#8, 1#8, 1#8, 0#8])).u8 18 ≠ 3 := by decide
def waitingOn (q : Nat) (opc : Nat) : State :=
  { idle with queues := tset q { State.reset.queue q with unstarted := [{ opc := opc, queue := q, tag := 0, len := 16 }] } [] }
def isHead (s : State) (c : QClass) : Bool := decide (s.aborts = []) && decide (s.heads c ≠ []) && s.nextPacket.isSome
theorem test_CommandsStartByClass : (idle.advance 0).nextPacket = none ∧ (idle.advance 0).pins.tmode = false ∧
    ((waitingOn 2 3).advance 0).aborts ≠ [] ∧ ((waitingOn 2 3).advance 0).nextPacket.isSome = true ∧
    isHead ((waitingOn 0 1).advance 0) .urgent = true ∧ isHead ((waitingOn 2 1).advance 0) .normal = true ∧
    isHead ((waitingOn 16 1).advance 0) .bulk = true ∧ ((waitingOn 16 1).advance 0).heads .normal = [] ∧
    ((waitingOn 16 1).advance 0).heads .urgent = [] := by decide
def aRec : Rec := { tag := 1, status := 0, queue := 31, doneNs := 0 }
def recordWaits : State := { idle with queues := tset 31 { State.reset.queue 31 with waitRecs := [aRec] } [] }
def resetWaits : State := { idle with rsts := [{ id := 1, unit := 0x0B, index := 0, at0 := 0 }] }
theorem test_RecordsFollowTheirRoom : ((recordWaits.advance 0).queue 31).waitRecs = aRec :: [] ∧ ((recordWaits.advance 0).queue 31).port ≠ 2 ∧
    ((idle.advance 0).queue 31).waitRecs = [] ∧ (idle.advance 0).rsts = [] ∧
    ((resetWaits.advance 0).rsts.map (resetWaits.advance 0).rstReady) = [true] ∧ 63 < 64 := by decide
def noEvents : State := { idle with queues := tset 1 {} (tset 29 {} []) }
theorem test_EventsArePlacedOrCounted : (State.evMask { idle with evMask1 := [0x10] } 1).contains 0x10 = true ∧
    (idle.evMask 1).contains 0x10 = false ∧ (noEvents.flushLost 1).eventQueue 1 = none ∧
    (idle.flushLost 1).eventQueue 1 = some 1 ∧ (idle.flushLost 1).evHeld 1 < 63 ∧ (idle.advance 0).eventQueue 3 = some 29 := by decide
def fullEvents : State := { idle with queues := tset 1 { State.reset.queue 1 with recEnds := (List.range 63).map (16 * · + 16) } [] }
theorem test_EventsArePlacedOrCounted_full : (fullEvents.flushLost 1).eventQueue 1 = some 1 ∧ 63 ≤ (fullEvents.flushLost 1).evHeld 1 := by decide

/-! ### Witnesses: frames -/

def steady : State := { idle with eng := { first := false }, tm := { frameRun := true, begun := true, frame := 5 } }
def latched : State := { steady with eng := { first := false, pendSet := some (5, {}) } }
def beforeWork : State := drainAll (frameSteps 5 (latched.advance 0).eng.pendB
  { latched.advance 0 with eng := { (latched.advance 0).eng with working := none } })
theorem test_FramesAreLatchedAndWorked : InputSet.wf {} = true ∧ ((booting .released).advance 0).tm.frameRun = false ∧
    ((steady.advance 0).framing && (steady.advance 0).tm.frameRun) = true ∧ (steady.advance 0).eng.first = false ∧
    (steady.advance 0).tm.begun = true ∧ ((steady.advance 0).tm.frame + 1) % 2 ^ 64 ≠ 0 ∧ (steady.advance 0).eng.pendSet = none ∧
    (latched.advance 0).eng.pendSet = some (5, {}) ∧ (latched.advance 0).stepDue = false ∧ beforeWork.eng.pendSet.isSome = true := by decide
def workingState : State := { steady with eng := { first := false, working := some 5 } }
theorem test_LateFramesCountAndMute : (latched.advance 0).eng.pendSet.isSome = true ∧ (workingState.advance 0).eng.pendSet = none ∧
    (workingState.advance 0).eng.working.isSome = true ∧ (steady.advance 0).alive = true := by decide
def tiedNop : Flight := { id := 1, pkt := { opc := 0x101, queue := 2, tag := 7, len := 28, params := routeOne }, port := 1, startNs := 0,
                          startClk := 0, phase := .waitFrame none }
def tiedState : State := { steady with flight := [tiedNop], seq := 1, eng := { first := false } }
def tiedLatch : State := boundaryLatch {} true (tiedState.advance 0)
def tiedBegun : State := frameSteps tiedLatch.apFrame tiedLatch.apT tiedLatch
theorem test_TiedCommandAppliesAtItsBoundary : (tiedState.advance 0).framing = true ∧ (tiedState.advance 0).tm.frameRun = true ∧
    (opDef tiedNop.pkt.opc).isSome = true ∧ tiedNop.pkt.sched = false ∧ tiedNop.pkt.opc ≠ 0x0102 ∧ tiedNop.phase = .waitFrame none ∧
    tiedLatch.eng.working = none ∧ tiedLatch.stepDue = false ∧ tiedBegun.flight = [tiedNop] ∧ tiedBegun.eng.applyQ = [tiedNop.id] ∧ tiedBegun.inListen = false := by decide

/-! ### Witnesses: routes, meters, Firkin -/

def fadeTo : Trans := { kind := .fade, from0 := 0, n := 4, k := 4 }
def searching : Trans := { kind := .zero, from0 := 0, n := 4, k := 3, w := 2 }
def aReq : Req := { src := 3, kind := 1 }
theorem test_RoutesChangeByTheirTransition : (0x3FF : Nat) = ((idle.advance 0).route 1023).src ∧ 3 ≠ ((idle.advance 0).route 1023).src ∧
    0 < msFrames 5 (idle.advance 0).tm.rate ∧ msFrames 0 (idle.advance 0).tm.rate = 0 ∧
    (State.advance { idle with routes := tset 1023 { trans := some fadeTo } [] } 0).route 1023 = { trans := some fadeTo } ∧ fadeTo.kind ≠ .zero ∧
    (State.advance { idle with routes := tset 1023 { held := some aReq } [] } 0).route 1023 = { held := some aReq } ∧
    (State.advance { idle with routes := tset 1023 { trans := some searching } [] } 0).route 1023 = { trans := some searching } ∧
    searching.kind = .zero ∧
    (State.advance { idle with mixJobs := [{ id := 1, nEntry := 0, nBusp := 0, nShadow := 0, commitFr := 0, left := 0 }] } 0).mixJobs.length = 1 :=
  by decide
theorem test_RoutesChangeByTheirTransition_here : (let a := State.advance { latched with routes := tset 1023 { held := some aReq } [] } 0
     a.frameAtHand = true ∧ (a.route 1023).freeAt a.apFrame = true) ∧
    (let a := State.advance { latched with routes := tset 1023 { trans := some searching } [] } 0
     a.frameAtHand = true ∧ searching.w < searching.k ∧ (a.route 1023).trans = some searching) ∧
    (idle.advance 0).openFrame ≠ some 0 := by decide
theorem test_CutTakesItsFrame : aReq.kind = 1 ∧ aReq.src ≠ (idle.route 1023).src := by decide
def readOne (flags : Nat) : Packet :=
  { opc := 0x302, queue := 2, tag := 0, len := 24, params := le 2 1 ++ [BitVec.ofNat 8 flags, 0#8] ++ le 2 7 ++ le 2 0 }
def cfgOne : Packet :=
  { opc := 0x301, queue := 2, tag := 0, len := 32, params := [0#8, 1#8] ++ le 2 1 ++ le 2 100 ++ le 2 0 ++ le 4 0 ++ le 2 7 ++ le 2 0 }
theorem test_MetersActOnNamedPoints : 7 ∈ mpAt (readOne 0) 20 ((readOne 0).u16 16) ∧ 8 ∉ mpAt (readOne 0) 20 ((readOne 0).u16 16) ∧
    bit ((readOne 0).u8 18) 0 = false ∧ bit ((readOne 1).u8 18) 0 = true ∧ bit ((readOne 1).u8 18) 1 = false ∧
    7 ∈ mpAt (readOne 1) 20 ((readOne 1).u16 16) ∧ cfgOne.u8 17 = 1 ∧ 7 ∈ mpNamed cfgOne 28 idle ∧ 8 ∉ mpNamed cfgOne 28 idle := by decide
def lineState (l : Line) : State := { idle with lines := tset 127 l [] }
def ended : Line := { region := some 0, fade := some { old := 0, toZero := true, k := 4, n := 4 }, unbindJob := some 1 }
def heldLine : Line := { region := some 0, held := some { delay := 3 } }
def oneRegion (clear : Bool) : State :=
  { idle with
    regions := tset 0 { first := 0, n := 1, fmt := 0, chans := 1, owner := .host } []
    xfers := [{ id := 1, clear := clear, region := 0, total := 8 }] }
theorem test_FirkinOperationsEnd : ((lineState ended).advance 0).line 127 = ended ∧ (ended.fade.map (·.toZero)) = some true ∧
    ((lineState heldLine).advance 0).line 127 = heldLine ∧ heldLine.free = true ∧
    ((oneRegion true).advance 0).xfers.length = 1 ∧ ((oneRegion true).advance 0).region 0 = some { first := 0, n := 1, fmt := 0, chans := 1, owner := .host } ∧
    ((oneRegion false).advance 0).xfers.map (·.clear) = [false] := by decide

/-! ### Witnesses: analogue inputs -/

def inputState (v : Ain) : State := { running with ains := tset 31 v [] }
def padding (stepping : Option (Nat × Nat)) : Ain := { padJob := some { job := 1, target := true, comp := false, until0 := 0, stepping := stepping } }
theorem test_FrontEndsSettleAndCalibrate :
    (((inputState (padding none)).advance 0).ain 31).padJob.map (·.stepping) = some none ∧
    ((((inputState (padding (some (0, 0)))).advance 1000000).padNow 31).padJob.map fun j => j.stepping.isSome) = some true ∧
    (let a := (inputState {}).advance 0
     a.inRun = true ∧ 31 < a.nAin ∧ (a.ain 31).en = true ∧ (a.ain 31).powered = false ∧ (a.ain 31).lm.st ≠ .converged ∧
       (a.ain 31).mh.st ≠ .converged) ∧
    (let a := (inputState { powered := true }).advance 0; (a.ain 31).powered = true ∧ (a.ain 31).settling = true) ∧
    (let a := (inputState { powered := true, k := 1000 }).advance 0
     ((a.ain 31).pair 1).st ≠ .frozen ∧ a.inRun = true ∧ (a.ain 31).powered = true ∧
      ((a.ain 31).pair 1).at0 + msInter a.tm.rate ≤ (a.ain 31).k) ∧
    (let a := (inputState { powered := true, k := 1000, mh := { st := .frozen } }).advance 0
     ((a.ain 31).pair 1).st = .frozen ∧ ((a.ain 31).pair 1).at0 + msInter a.tm.rate ≤ (a.ain 31).k) ∧
    (let a := (inputState { powered := true }).advance 0; (a.ain 31).k < ((a.ain 31).pair 1).at0 + msInter a.tm.rate) ∧
    (idle.advance 0).inRun = false := by decide

/-! ### Witnesses: the network -/

def port1 (f : Net → Net) : State := { idle with net := tset 1 (f { nmode := 1, up := true, speed := 4, nfl := 0, mac := 5 }) [] }
def aFrame : List Byte := List.replicate 12 0x11#8 ++ [0x08#8, 0x00#8]
def pauseFrame : List Byte := List.replicate 12 0x11#8 ++ [0x88#8, 0x08#8, 0x00#8, 0x01#8]
theorem test_PortsCarryTheirFrames_rx : (let a := (port1 id).advance 0
    a.portUp 1 = true ∧ (a.isSmall && decide (1 = 1)) = false ∧ pauseFrame.length + 4 ≤ (a.netP 1).mtu ∧
      flowControl pauseFrame = true ∧ aFrame.length + 4 ≤ (a.netP 1).mtu ∧ flowControl aFrame = false ∧
      bit (a.netP 1).nfl 3 = false ∧ (ethOf aFrame).dst ≠ (a.netP 1).mac ∧ (ethOf aFrame).dst ≠ 0xFFFFFFFFFFFF ∧
      (ethOf aFrame).dst ∉ a.filters 1) ∧ (idle.advance 0).portUp 1 = false ∧ (idle.advance 0).framing = true ∧
    ((idle.advance 0).netP 1).nmode = 0 := by decide
/-- The same with every destination passing, an address, a tracker and a stream on the port; and a datagram for it. -/
def aRxCfg : RxCfg := { ports := 2, fmt := 0, ptime := 0, nch := 1, pt := 98, rfl := 0, linkOfs := 1000, ip0 := 0, src0 := 0, udp0 := 0,
                        ip1 := 0xEF010203, src1 := 0, udp1 := 5004, ssrc := 0, rtpOfs := 0, chmap := [0x10] }
def rxPort : State :=
  { port1 fun n => { n with nfl := 8, ipv4 := 0x0A000002 } with
    tt1 := { en := true, l2 := true, port := some 1 }
    rx := tset 127 { cfg := some aRxCfg } [] }
def udpTo (dst port : Nat) : List Byte :=
  ethBuild 5 7 none 0x0800 (ip4Build 0x0A000003 dst 17 1 0 [] (be 2 1000 ++ be 2 port ++ be 2 12 ++ be 2 0 ++ be 4 0))
def ptpFrame : List Byte := ethBuild 0x011B19000000 7 none 0x88F7 ([0#8, 2#8] ++ List.replicate 42 0#8)
def arpFrame : List Byte :=
  ethBuild 5 7 none 0x0806 (be 8 0x0001080006040001 ++ be 6 7 ++ be 4 0x0A000003 ++ be 6 0 ++ be 4 0x0A000002)
def echoFrame : List Byte := ethBuild 5 7 none 0x0800 (ip4Build 0x0A000003 0x0A000002 1 1 0 [] (be 2 0x0800 ++ be 2 0xF7FF ++ be 4 0))
def queryFrame : List Byte := ethBuild 5 7 none 0x0800 (ip4Build 0x0A000003 0xE0000001 2 1 0 [] (be 2 0x1100 ++ be 2 0xEEFF ++ be 4 0))
def otherFrame : List Byte := ethBuild 5 7 none 0x1234 (be 4 0)
theorem test_PortsCarryTheirFrames_ptp : (let a := rxPort.advance 0
    a.rxPasses 1 ptpFrame = true ∧ (ptpOf (ethOf ptpFrame) ptpFrame).isSome = true ∧
      ((ptpOf (ethOf ptpFrame) ptpFrame).bind fun x => a.ptpOwner 1 x.1 x.2) = some 1) := by decide
theorem test_PortsCarryTheirFrames_media : (let a := rxPort.advance 0
    let f := udpTo 0xEF010203 5004
    a.rxPasses 1 f = true ∧ a.rxPlain 1 f = true ∧ (ip4Of f).isSome = true ∧ ((ip4Of f).bind udpOf).isSome = true ∧
      (((ip4Of f).bind fun ip => (udpOf ip).bind fun u => a.rxMatch 1 ip u).map (·.1)) = some 127) := by decide
theorem test_PortsCarryTheirFrames_fjarord : (let a := rxPort.advance 0
    let f := udpTo 0x0A000002 49512
    a.rxPasses 1 f = true ∧ a.rxPlain 1 f = true ∧ bit a.pc.fjFl 0 = false ∧
      ((ip4Of f).bind fun ip => (udpOf ip).map fun u => (a.rxMatch 1 ip u).isNone && a.fjPort 1 ip u) = some true) := by decide
theorem test_PortsCarryTheirFrames_local : (let a := rxPort.advance 0
    let n := a.netP 1
    a.rxPasses 1 arpFrame = true ∧ a.rxLeft 1 arpFrame = true ∧ (arpAnswer n (ethOf arpFrame) arpFrame).isSome = true ∧
      a.rxPasses 1 echoFrame = true ∧ a.rxLeft 1 echoFrame = true ∧ arpAnswer n (ethOf echoFrame) echoFrame = none ∧
      (echoAnswer n echoFrame).isSome = true ∧ n.echoRoom a.clk = true) := by decide
theorem test_PortsCarryTheirFrames_host : (let a := rxPort.advance 0
    let n := a.netP 1
    a.rxPasses 1 queryFrame = true ∧ a.rxLeft 1 queryFrame = true ∧ arpAnswer n (ethOf queryFrame) queryFrame = none ∧
      echoAnswer n queryFrame = none ∧
      ((ip4Of queryFrame).map fun ip => decide (ip.proto = 2) && decide (8 ≤ ip.body.length) && decide (byteAt ip.body 0 = 0x11)) = some true ∧
      a.rxPasses 1 otherFrame = true ∧ a.rxLeft 1 otherFrame = true ∧ arpAnswer n (ethOf otherFrame) otherFrame = none ∧
      echoAnswer n otherFrame = none ∧ ip4Of otherFrame = none ∧ (ethOf otherFrame).dst = n.mac ∧ macGroup n.mac = false ∧
      a.slotFull a.ring = false) := by decide
def aReport : IgmpJob := { group := 0xE0010203, due := 0, kind := 1 }
def aHostTx : HostTx := { id := 1, stamp := false, csum := false, fmt := 0, len := 60, sofs := 0, wofs := 0 }
def aRecordFor (q : Nat) : State :=
  { idle with
    queues := tset q { State.reset.queue q with waitRecs := [aRec] } []
    net := tset 0 { nmode := 1, up := true, speed := 4, ipv4 := 1, mac := 5 } []
    pc := { evtIp := 0x0A000001, evtUdp := 1000, key0 := some [], nodeId := some 1 } }
theorem test_PortsCarryTheirFrames_tx : (let a := (port1 fun n => { n with igmp := [aReport] }).advance 0
     (a.netP 1).igmp = aReport :: [] ∧ aReport.due ≤ a.clk) ∧
    (let a := (port1 fun n => { n with txq := [aHostTx] }).advance 0
     (a.netP 1).txq = aHostTx :: [] ∧ a.portUp 1 = true ∧ a.mediaDue 1 = false ∧ 1 < a.nPort ∧ (a.netP 1).nmode ≠ 0) ∧
    (let a := (aRecordFor 21).advance 0
     a.eventQueue 2 = some 21 ∧ a.fjEventPort = some 0 ∧ (a.queue 21).waitRecs = aRec :: [] ∧ a.pc.evtIp ≠ 0 ∧
     (a.fjSend 0 (ipMac a.freeCtr a.pc.evtIp) a.pc.evtIp a.pc.evtUdp 4 0xFFFF (b2n (bit a.pc.fjFl 2)) 21 aRec).isSome = true) := by decide
def aTxCfg : TxCfg := { ports := 2, fmt := 0, ptime := 0, nch := 1, pt := 98, tfl := 0, vid := 0, dscp := 34, ttl := 1, dstIp := 0xE0010203,
                        dstUdp := 5004, srcUdp := 5004, dstMac := 0, alignMin := 0, ssrc := 0, rtpOfs := 0, chmap := [0] }
def aTxPkt : TxPkt := { cfg := aTxCfg, ports := 2, seq := 0, ts := 0, m := 0, smp := [[0]] }
def sending (up : Bool) : State := { port1 (fun n => { n with up := up }) with tx := tset 127 { cfg := some aTxCfg, due := [aTxPkt] } [] }
theorem test_StreamsSendAndTimeOut : ((sending true).advance 0).txs 127 = { cfg := some aTxCfg, due := [aTxPkt] } ∧ bit aTxPkt.ports 1 = true ∧
    (((sending true).advance 0).tx.any fun e => decide (e.1 < 127) && e.2.due.any fun x => bit x.ports 1) = false ∧ aTxPkt.ports = 2 ^ 1 ∧
    ((sending true).advance 0).portUp 1 = true ∧ ((sending false).advance 0).portUp 1 = false ∧ ((idle.advance 0).txs 127).due = [] ∧
    ((idle.advance 0).rxs 127).st = ((idle.advance 0).rxs 127).repSt ∧
    (let a := State.advance { idle with rx := tset 127 { st := 1 } [] } 100000000
     (a.landed.rxs 127).st ≠ (a.landed.rxs 127).repSt ∧ tget? a.landed.evLast (0x703 * 65536 + 127) = none ∧
       (a.landed.rxs 127).st = 1 ∧ (a.landed.rxs 127).lastWr + 100000000 ≤ a.landed.clk) ∧ aTxCfg.ttl = 1 ∧
    ((sending true).advance 0 |>.txs 127).cfg.isSome = true := by decide

def aFly : RxFly := { arr := 5, port := 1, sumOk := false, data := [] }
theorem test_StreamsSendAndTimeOut_lands : (let r : Rx := { cfg := some aRxCfg, fly := [aFly] }
    (State.advance { idle with rx := [(127, r)] } 0).rx = [(127, r)] ∧ r.cfg = some aRxCfg ∧ r.fly = [aFly] ∧ 5 ≤ aFly.arr ∧ aFly.arr < 6 ∧
      bit aRxCfg.ports aFly.port = true) := by decide

/-! ### Witnesses: time and clocks -/

def aLeader : PtpLeader := { ident := 9, port := 1, gm := 9, prio1 := 1, cls := 6, acc := 0x20, var := 1, prio2 := 1, steps := 0, utc := 37, logAnn := 0,
                             annAt := 0 }
def tracking (v : Tracker) : State := { port1 id with tt1 := v }
theorem test_TrackersKeepTime : (let a := (tracking { en := true, port := some 1, st := .locked, lead := some aLeader }).advance 1000000000
     (a.tt 1).en = true ∧ (a.tt 1).st = .locked ∧ (a.tt 1).lead = some aLeader ∧
     (a.tt 1).dreqAt + logNs ((a.tt 1).dreqLog.getD (a.tt 1).logDreq) ≤ a.clk ∧ a.portUp (a.ttPort 1) = true) ∧
    (let a := (tracking { en := true, port := some 1, st := .leader, role := 1 }).advance 1000000000
     (a.tt 1).st = .leader ∧ (a.tt 1).syncSentAt + logNs (a.tt 1).logSync ≤ a.clk) ∧
    ((idle.advance 0).tt 1).en = false ∧ ((idle.advance 0).tt 1).st ≠ .leader ∧ (idle.advance 0).tm.step = none := by decide
def stepping (left : Nat) : State := { idle with tm := { frameRun := true, step := some { e := 65536, cause := 0, left := left }, mode := 0 } }
theorem test_TrackersKeepTime_steps : ((stepping 0).advance 0).tm.step.map (·.left) = some 0 ∧
    ((stepping 3).advance 0).tm.step.map (·.left) = some 3 ∧ ((stepping 3).advance 0).framing = true ∧
    (ttChecks ((stepping 3).advance 0)).tm.mode = 0 := by decide
def automatic : State := tracking { en := true, l2 := true, port := some 1, st := .locked, lead := some aLeader, est := some 0 }
theorem test_TrackersKeepTime_lost : (let k := (State.advance (tracking { en := true, port := some 1, role := 0 }) 0).tt 1
    k.role ≠ 2 ∧ k.lead = none) := by decide
def manual : State := { automatic with tm := { frameRun := true, begun := true, pref := 1, mode := 1 } }
theorem test_TrackersKeepTime_manual : (let a := evalMeasure (manual.advance 0)
    a.alive = true ∧ a.tm.switchWait = none ∧ a.tm.mode = 1 ∧ a.tm.active ≠ some a.tm.pref ∧
      (a.tt a.tm.pref).est.isSome = true ∧ (a.tt a.tm.pref).leads = false) ∧
    ((manual.advance 0).framing && (manual.advance 0).tm.frameRun && (manual.advance 0).tm.begun) = true := by decide
/-- A step that is due is made. -/
def stepMade (e : Eng) : State :=
  let a := State.advance { stepping 0 with eng := e } 0
  let b := stepApplyStep a
  pllAfterStep ((b.nowNs : Int) - a.nowNs) (gaugeSkip a.nowNs b.nowNs b)
theorem test_TrackersKeepTime_made : ((stepping 0).advance 0).tm.jumpHeld = [] ∧ ((stepping 3).advance 0).stepDue = false ∧
    (stepMade {}).eng.pendSet = none ∧
    (stepMade { pendSet := some (5, {}), working := some 4 }).eng.pendSet = some (5, {}) := by decide
theorem test_TrackersKeepTime_selects : (let a := evalMeasure (State.advance { automatic with tm := { frameRun := true, pref := 1 } } 0)
    a.alive = true ∧ a.tm.switchWait = none ∧ a.tm.mode = 2 ∧ a.tm.active = none ∧ a.qualifies a.tm.pref none = true) := by decide
def pllState (m : Nat) (p : Pll) : State := { idle with plls := tset m p [] }
theorem test_PllsFollowTheirReference_reference : (let a := (pllState 1 { lstate := 2, refOk := true, ref := 4 }).advance 0
     (a.pll 1).lstate ≠ 0 ∧ (a.pll 1).refOk = true ∧ (a.pll 1).ref = 4) ∧
    (let a := (pllState 1 { lstate := 2, refOk := true, ref := 2 }).advance 0
     (a.pll 1).refOk = true ∧ 2 ≤ (a.pll 1).ref ∧ a.refSeen 1 = false) ∧
    (let a := (pllState 1 { lstate := 2, refOk := false, ref := 6 }).advance 0
     (a.pll 1).lstate ≠ 0 ∧ (a.pll 1).ref = 6 ∧ (a.pll 1).refOk = false ∧ (a.pll 1).following a.nowNs = false ∧
      refInBand 6 (a.pllCorr 1 + 1001001) = true ∧ refInBand 6 (a.pllCorr 1 + 1001002) = false ∧ refInBand 6 (a.pllCorr 1 + 200000) = true) ∧
    200000 < (1001001 : Int).natAbs ∧ (200000 : Int).natAbs ≤ 200000 ∧
    (let a := (pllState 1 { lstate := 2, rstate := 1 }).advance 1000000000
     (a.pll 1).lstate = 2 ∧ (a.pll 1).rstate = 1 ∧ (a.pll 1).inBandAt + 1000000000 ≤ a.clk) ∧
    ((pllState 1 { rstate := 5 }).advance 0).pll 1 = { rstate := 5 } := by decide
/-- A tracker with an estimate brings back a PLL that follows it; so does the frame sync of a slave port. -/
theorem test_PllsFollowTheirReference_returns : (let a := State.advance { pllState 1 { lstate := 2, ref := 3 } with tt1 := { est := some 0 } } 0
     (a.pll 1).ref = 3 ∧ a.refSeen 1 = true ∧ refInBand 3 (a.pllCorr 1 + 1) = true) ∧
    (let a := State.advance { pllState 1 { lstate := 2, ref := 5, refIdx := 3 } with tps := tset 3 { clkOk := true, mhz := 48000000 } [] } 0
     (a.pll 1).ref = 5 ∧ a.refSeen 1 = true ∧ (a.pll 1).refOk = false ∧ refInBand 5 (a.pllCorr 1 + 1) = true) := by decide
def aRamp : Ramp := { segs := [(1, 1000), (2, 1000)], durUs := 1000 }
theorem test_PllsFollowTheirReference_locks : (let a := (pllState 2 { relock := some { cause := 5, step := 2 } }).advance 0
     (a.pll 2).relock = some { cause := 5, step := 2 } ∧ 2 ≠ a.serving ∧ (a.pll 2).rstate ≠ 3) ∧
    ((pllState 2 { relock := some { cause := 5 } }).advance 0).pll 2 = { relock := some { cause := 5 } } ∧
    ((idle.advance 0).pll 2).relock = none ∧
    (let a := (pllState 1 { ramp := some aRamp }).advance 999999; (a.pll 1).ramp = some aRamp ∧ a.nowNs < aRamp.at0 + aRamp.durUs * 1000) ∧
    (let a := (pllState 1 { ramp := some aRamp }).advance 1000001
     (a.pll 1).ramp = some aRamp ∧ aRamp.at0 + aRamp.durUs * 1000 ≤ a.nowNs ∧ aRamp.idx + 1 < aRamp.segs.length) ∧
    (let a := (pllState 1 { pulling := true }).advance 0; (a.pll 1).pulling = true ∧ (a.pll 1).pullAt a.clk a.nowNs = pullDep (a.pll 1).pull) ∧
    (let a := (pllState 1 { pulling := true, pull := 1 }).advance 0; (a.pll 1).pullAt a.clk a.nowNs ≠ pullDep (a.pll 1).pull) := by decide
def tpState (role st good bad : Nat) : State :=
  { idle with tps := tset 3 { role := role, st := st, good := good, bad := bad, clk := 1, prate := 48000 } [] }
/-- A slave port that runs from frame sync: its used frame ended at 10, and one that ended at 20 is past its deadline. -/
def tpFed : Tp := { st := 2, inAge := some 5, used := some 10, frames := [(20, [1]), (10, [2])] }
theorem test_SerialPortsAndConvertersLock : (let a := (tpState 0 2 0 0).advance 0; (a.tp 3).role = 0 ∧ (a.tp 3).st ≠ 0) ∧
    ((idle.advance 0).tp 3).st = 0 ∧
    (let a := (tpState 0 1 7 0).advance 0
     (a.tp 3).st = 1 ∧ (a.tp 3).role = 0 ∧ 7 ≤ (a.tp 3).good ∧ rateNear 48000000 (a.tp 3).prate 65 = true ∧
      rateNear 52000000 (a.tp 3).prate 65 = false) ∧
    ((tpState 0 1 6 0).advance 0 |>.tp 3).good < 7 ∧
    (let a := (tpState 0 2 8 3).advance 0; (a.tp 3).st = 2 ∧ (a.tp 3).role = 0 ∧ 3 ≤ (a.tp 3).bad) ∧
    ((tpState 0 2 8 2).advance 0 |>.tp 3).bad < 3 ∧
    (let a := State.advance { idle with tps := tset 3 tpFed [] } 25
     a.tp 3 = tpFed ∧ tpFed.role = 0 ∧ tpFed.clk = 0 ∧ tpFed.frames.find? (fun f => decide (f.1 + 5 ≤ a.clk)) = some (20, [1])) ∧
    (idle.advance 0).nearBase 48000000 = true := by decide
theorem test_SerialPortsAndConvertersLock_rate : (idle.advance 0).rateChg = none ∧
    (let a := State.advance { idle with rateChg := some { rate := 44100, at0 := 0 }, plls := tset 1 { lstate := 2 } [] } 1000000
     a.rateChg = some { rate := 44100, at0 := 0 } ∧ a.framing = true ∧ 0 + 1000000 ≤ a.clk ∧ (a.pll (famOf 44100)).lstate = 2) ∧
    (State.advance { idle with rateChg := some { rate := 44100, at0 := 0 } } 999999).clk < 0 + 1000000 ∧
    (let a := State.advance { idle with rateChg := some { rate := 44100, at0 := 0, applied := true, jobs := [1] } } 0
     (a.rateChg.map fun c => (c.applied, c.jobs)) = some (true, [1])) ∧
    (∀ x ∈ List.replicate 16 4294967295, x < 4294967296) := by decide

/-! ### Witnesses: Listen and the Gauge -/

def listenState (v : Listen) : State := { listening with ls := v }
theorem test_ListenStoresAndJudges : -8388608 ≤ (-8388608 : Int) ∧ (8388607 : Int) ≤ 8388607 ∧ (asleep.advance 0).listenRuns = false ∧
    (listening.advance 0).listenRuns = true ∧ (listening.advance 0).pwr.deferral = none ∧
    ((listenState { cand := true, candLow := some 0 }).advance 0).ls.candLow = some 0 ∧ (listening.advance 0).ls.waits = [] ∧
    (listening.advance 0).ls.commitJob = none ∧ (listening.advance 0).ls.hopCnt < max 1 (listening.advance 0).ls.hop := by decide
def aHistory : Packet := { opc := 0xB03, queue := 2, tag := 0, len := 32, params := List.replicate 16 0#8 }
def historyFlight : Flight := { id := 1, pkt := aHistory, port := 1, startNs := 0, startClk := 0 }
def waitingRead : State :=
  { listenState { waits := [(1, 0)], idx := 0 } with flight := [historyFlight] }
theorem test_ListenStoresAndJudges_read : (waitingRead.advance 0).ls.waits = [(1, 0)] ∧ (waitingRead.advance 0).flightOf 1 = some historyFlight ∧
    0 + historyFlight.pkt.u16 18 ≤ (waitingRead.advance 0).ls.idx := by decide
theorem test_ListenStoresAndJudges_commit : ((listenState { commitJob := some 1, mstate := 1 }).advance 0).ls.commitJob = some 1 ∧
    (modelFault ((listenState { commitJob := some 1, mstate := 1 }).advance 0).ls).1 ≠ 0 := by decide
/-- The CRC-32 of four zero bytes is 0x2144DF1C. -/
def aModel : List Byte :=
  le 4 0x434D5048 ++ le 2 1 ++ le 2 0 ++ le 4 32 ++ le 4 0 ++ le 4 0 ++ le 4 80 ++ le 4 0x2144DF1C ++ le 4 0
theorem test_ListenStoresAndJudges_commit_passes :
    ((listenState { commitJob := some 1, mstate := 1, mlen := 32, mdata := aModel }).advance 0).ls.commitJob = some 1 ∧
    (modelFault ((listenState { commitJob := some 1, mstate := 1, mlen := 32, mdata := aModel }).advance 0).ls).1 = 0 := by decide
/-- No value of the free score reaches thresholds beyond its 16 bits. -/
def deaf : Listen := { pfl := 1, mstate := 2, hop := 80, hopCnt := 80, candThr := 65536, detThr := 65536 }
theorem test_ListenStoresAndJudges_hop : ((listenState deaf).advance 0).listenRuns = true ∧ ((listenState deaf).advance 0).phRuns = true ∧
    max 1 ((listenState deaf).advance 0).ls.hop ≤ ((listenState deaf).advance 0).ls.hopCnt ∧
    (∀ x : Nat, x % 65536 < ((listenState deaf).advance 0).ls.candThr) ∧
    ((listenState deaf).advance 0).ls.candThr = ((listenState deaf).advance 0).ls.detThr :=
  ⟨by decide, by decide, by decide, fun x => Nat.mod_lt x (by decide), by decide⟩
def gaugeState (v : Gauge) : State := { steady with gb := v }
def anUrgent (started : Option Nat) (cal : Option GCalJob) : GUrg := { id := 1, input := 0, gain := 0, ctime := 0, at0 := 0, started := started, cal := cal }
theorem test_GaugePassesAndConversions : (let a := (gaugeState { running := true, mode := 3, trigPend := 1 }).advance 0
     a.framing = true ∧ a.eng.first = false ∧ (a.gg 1).running = true ∧ (a.gg 1).mode = 3 ∧ 0 < (a.gg 1).trigPend) ∧
    (let a := (gaugeState { running := true, mode := 2, period := 1000 }).advance 0
     (a.gg 1).mode = 2 ∧ 0 ≤ nsDiff a.nowNs (a.gg 1).grid) ∧
    ((gaugeState { inPass := true }).advance 0).gg 1 = { inPass := true } ∧
    ((gaugeState { inPass := true, held := true }).advance 0).gg 1 = { inPass := true, held := true } ∧
    (((idle.advance 0).gg 1).inPass = false ∧ ((idle.advance 0).gg 1).calHolds = false) ∧
    ((idle.advance 0).framing && ((idle.advance 0).gg 1).running) = false := by decide
def aCalJob : GCalJob := { slot := 0, full := false, navg := 1, value := 0 }
theorem test_GaugePassesAndConversions_urgent : (let a := (gaugeState { urg := [anUrgent none none] }).advance 0
     (a.gg 1).urg = anUrgent none none :: [] ∧ (anUrgent none none).started = none ∧ a.framing = true ∧ a.gaugeFree 1 = true ∧
     a.gbJack = false ∧ a.jackBy (min a.clk 0) = false) ∧
    ((gaugeState { urg := [anUrgent (some 0) none] }).advance 0).gg 1 = { urg := [anUrgent (some 0) none] } ∧
    ((gaugeState { urg := [anUrgent (some 0) (some aCalJob)] }).advance 0).gg 1 = { urg := [anUrgent (some 0) (some aCalJob)] } ∧
    (anUrgent (some 0) (some aCalJob)).cal = some aCalJob ∧ aCalJob.navg = 1 ∧
    ((idle.advance 0).gg 1).urg = [] ∧ ((idle.advance 0).gg 1).cur = none ∧ (idle.advance 0).eng.first = true := by decide
def anEntry : GEntry := { input := 0, gain := 0, ctime := 0, win := none, settle := 100, raw := true }
theorem test_GaugePassesAndConversions_entry : (let a := (gaugeState { seq := [anEntry], inPass := true, cur := some { ent := 0, at0 := 0 } }).advance 162500
     (a.gg 1).urg = [] ∧ (a.gg 1).cur = some { ent := 0, at0 := 0 } ∧ (a.gg 1).seq[0]? = some anEntry ∧ a.gbJack = false ∧
      0 + anEntry.settle * 1000 + ctimeNs anEntry.ctime ≤ a.clk) ∧
    gOver 0 0 3000000000000 false = true := by decide

/-! ### Witnesses: every opcode is taken, and the rows of pins and timers -/

/-- n zero bytes. -/
def zeros (n : Nat) : List Byte := List.replicate n 0#8
/-- A frame stands open, P0 has a link, TP0 a clock, both microphones are on, and region 0 is the host's. -/
def readyFor : State :=
  { latched with
    net := tset 0 { nmode := 1, up := true, speed := 4, mac := 5 } []
    tps := tset 0 { clk := 1 } []
    ls := { en := 3, lstEn := 3 }
    regions := tset 0 { first := 0, n := 1, fmt := 0, chans := 1, owner := .host } [] }
def takesAll (s : State) (l : List (Nat × List Byte)) : Bool := l.all fun x => (s.advance 0).takes x.1 (packet 2 x.2)
theorem test_SystemPortListenAndGaugeCommandsComplete : takesAll readyFor [
    (0x0001, []), (0x0002, []), (0x0003, zeros 2 ++ le 2 5 ++ zeros 4), (0x0004, le 2 2 ++ zeros 2), (0x0005, 3#8 :: zeros 3),
    (0x0006, le 2 0x4010 ++ [1#8, 1#8]), (0x0007, [3#8, 1#8, 1#8, 0#8]), (0x0008, []), (0x0B01, zeros 16), (0x0B02, 4#8 :: zeros 7),
    (0x0B03, [1#8, 0#8] ++ le 2 1 ++ zeros 12), (0x0C01, [0#8, 4#8] ++ zeros 10), (0x0C02, zeros 16), (0x0C03, [0#8, 3#8] ++ zeros 14),
    (0x0C04, zeros 8), (0x0C05, zeros 12), (0x0D01, 0x50#8 :: zeros 3 ++ le 2 1 ++ zeros 10), (0x0D02, zeros 20)] = true := by decide
theorem test_AudioPathCommandsComplete : takesAll readyFor [
    (0x0101, routeOne), (0x0103, le 2 0x200 ++ le 2 1 ++ [1#8, 0#8, 5#8, 5#8]), (0x0201, [4#8, 0#8] ++ le 2 1 ++ zeros 4),
    (0x0202, zeros 4), (0x0203, [0#8, 1#8] ++ zeros 6), (0x0204, [0#8, 1#8] ++ le 2 1 ++ le 2 65036 ++ zeros 10),
    (0x0301, cfgOne.params), (0x0302, (readOne 0).params), (0x0303, [0#8, 1#8] ++ le 2 1 ++ le 2 7 ++ zeros 2),
    (0x0401, le 4 1 ++ [0#8, 1#8] ++ zeros 6), (0x0402, le 4 1 ++ zeros 4), (0x0403, zeros 4), (0x0404, zeros 12), (0x0405, le 4 1),
    (0x0501, le 4 1 ++ zeros 12), (0x0502, zeros 32), (0x0601, le 2 1 ++ [0#8, 0#8, 1#8] ++ zeros 3), (0x0602, zeros 4),
    (0x0603, [0#8, 3#8] ++ zeros 10), (0x0604, zeros 8 ++ le 4 4 ++ zeros 4), (0x0605, zeros 8 ++ le 4 4 ++ zeros 8)] = true := by decide
/-- ROUTE_GET waits for the frame's work, and is taken at once in Listen. -/
theorem test_AudioPathCommandsComplete_get : takesAll listening [(0x0102, le 2 0x200 ++ le 2 1)] = true ∧
    takesAll readyFor [(0x0102, le 2 0x200 ++ le 2 1)] = false := by decide
theorem test_NetworkTimeAndClockCommandsComplete : takesAll readyFor [
    (0x0701, zeros 28),
    (0x0702, [127#8, 0#8, 1#8, 0#8, 0#8, 1#8, 98#8, 0#8] ++ le 2 0 ++ [34#8, 1#8, 0xEF#8, 1#8, 2#8, 3#8] ++ le 2 5004 ++ le 2 5004 ++
      zeros 16 ++ le 2 0x10 ++ zeros 2),
    (0x0703, [127#8, 0#8, 1#8, 0#8, 0#8, 1#8, 98#8, 0#8] ++ le 2 1000 ++ zeros 2 ++ [0xEF#8, 1#8, 2#8, 3#8] ++ zeros 4 ++ le 2 5004 ++
      zeros 22 ++ le 2 0x10 ++ zeros 2),
    (0x0704, zeros 4 ++ le 2 60 ++ zeros 10), (0x0801, zeros 36), (0x0802, zeros 12), (0x0803, 0xFF#8 :: zeros 19), (0x0901, zeros 28),
    (0x0902, [0#8, 3#8] ++ zeros 6), (0x0903, zeros 16), (0x0A01, zeros 20), (0x0A02, zeros 2 ++ le 2 1 ++ zeros 4)] = true := by decide
theorem test_TimerAndPinRowsComplete : (idle.advance 0).pwr.ready = true ∧ 0 < (idle.advance 0).nSlots ∧ (idle.advance 0).tw0On = true ∧
    (0x78#8).toNat = 2 * (0x3C + (idle.advance 0).pwr.straps.addr) ∧ (latched.advance 0).stepDue = false ∧
    (asleepAsked.advance 0).asleep = true ∧ (asleepAsked.advance 0).discharged = true ∧ bit (asleepAsked.advance 0).pc.tw0Fl 0 = true ∧
    (asleepAsked.advance 0).pwr.heldWake = some 7 ∧ ((recordWaits.advance 0).queue 31).waitRecs = aRec :: [] ∧
    ((recordWaits.advance 0).queue 31).port ≠ 2 ∧ (recordWaits.advance 0).recFits 31 aRec = true ∧
    ((resetWaits.advance 0).rsts.map (resetWaits.advance 0).rstReady) = [true] ∧
    (latched.advance 0).eng.pendSet = some (5, {}) ∧ (latched.advance 0).eng.applyQ = [] := by decide
/-- A link comes up, and one that is up goes down. -/
theorem test_PortsCarryTheirFrames_link : (let a := (port1 fun n => { n with up := false, speed := 0 }).advance 0
     a.framing = true ∧ 1 < a.nPort ∧ (a.netP 1).nmode ≠ 0 ∧ (a.netP 1).rates.contains 6 = true ∧ (a.netP 1).up = false ∧
     (a.netP 1).ipv4 = 0) ∧ ((port1 id).advance 0 |>.netP 1).up = true := by decide

end Sys2Proof.Tests
end

section
/-! How a row answers, and how a packet that meets a free interpreter, with no input set waiting for its work, is launched. -/
namespace Sys2Proof.Machine
open Sys2Proof

/-- A row that is `run` of an effect answers it, from the state dt ns later. -/
theorem exec_of_run {i : Instr} {s a : State} {f : State → State} (hrun : exec i s = run i s f) (hwf : i.wf = true)
    (ha : s.advance i.dt = a) : exec i s = .next (f a).flush := by
  rw [hrun, run_next hwf, ha]

theorem State.opensTo_pendSet {s : State} {q : Nat} (h : s.opensTo q = true) : s.eng.pendSet = none := by
  obtain ⟨-, -, -, -, -, hpend, -, -⟩ := State.opensTo_spec h
  exact hpend

/-- A packet row that meets a free interpreter and passes its checks answers its launch. -/
theorem exec_launches {i : Instr} {opc : Nat} {c : Cmd} {s : State} {d : OpDef} (hrow : packetRow i = some (opc, c))
    (hwf : c.wf = true) (hopen : (s.advance i.dt).opensTo c.queue = true) (hd : opDef opc = some d)
    (hchk : startErr ((s.advance i.dt).packet opc c) ((s.advance i.dt).queue c.queue).port
      ((s.advance i.dt).taken ((s.advance i.dt).packet opc c)) = none) :
    exec i s = .next (launch ((s.advance i.dt).firstFlight ((s.advance i.dt).packet opc c)) d
      ((s.advance i.dt).began ((s.advance i.dt).packet opc c))).flush := by
  rw [exec_packetRow_next s hrow hwf, arrive_runs opc d (State.opensTo_free hopen) hd hchk]
  rfl

/-- Outside Listen, with no input set pending, a tied command that is not scheduled only waits. -/
theorem launch_waits {s : State} {p : Packet} {d : OpDef} (hsched : p.sched = false) (htied : d.tied = true)
    (hlisten : s.inListen = false) (hpend : s.eng.pendSet = none) :
    launch (s.firstFlight p) d (s.began p) = (s.launched p).setPhase (s.seq + 1) (.waitFrame none) := by
  obtain ⟨r, w, hl⟩ := launched_frame s p
  have hin : (s.launched p).inListen = false := by rw [hl]; exact hlisten
  have hframe : (s.launched p).frameTakes = false := by
    have heng : (s.launched p).eng = s.eng := by rw [hl]; rfl
    simp [State.frameTakes, heng, hpend]
  have hw : takeWindow (s.firstFlight p).id (s.firstFlight p).pkt (if (s.firstFlight p).pkt.opc = 0x0101
    then routeSetStart (s.firstFlight p).id (s.firstFlight p).pkt (s.began p) else s.began p) = s.launched p := rfl
  unfold launch
  rw [hw]
  simp [hsched, htied, hin, hframe]

/-- A launched command that waits has not completed. -/
theorem launched_waiting_inv (s : State) (p : Packet) {ph : Phase} (hph : ∀ st n dat, ph ≠ .ended st n dat) :
    ((s.launched p).setPhase (s.seq + 1) ph).Inv := by
  obtain ⟨r, w, hl⟩ := launched_frame s p
  intro f hf
  have hf' : f = { s.firstFlight p with win := w, phase := ph } := by
    rw [hl] at hf; simpa [State.setPhase, modFlight] using hf
  refine State.not_settled_of_running ?_
  rw [hf']
  unfold Flight.isEnded
  cases ph with
  | ended st n dat => exact absurd rfl (hph st n dat)
  | _ => rfl

/-- Settles O8: what such a packet's launch does is `launch_now`. -/
theorem commandTakesEffectAtOnce : Obligations.CommandTakesEffectAtOnce := by
  unfold Obligations.CommandTakesEffectAtOnce
  intro i opc c s d hrow hwf hopen hd hchk hsched hnow
  rw [exec_launches hrow hwf hopen hd hchk,
    launch_now (p := (s.advance i.dt).packet opc c) hd hsched hnow (.inr (.inl (State.opensTo_pendSet hopen)))]
  dsimp only
  split <;> rfl

/-- Settles O9: such a packet's launch makes it wait, and nothing has completed. -/
theorem tiedCommandWaitsForItsFrame : Obligations.TiedCommandWaitsForItsFrame := by
  unfold Obligations.TiedCommandWaitsForItsFrame
  intro i opc c s d hrow hwf hopen hd hchk hsched htied hlisten
  rw [exec_launches hrow hwf hopen hd hchk,
    launch_waits (p := (s.advance i.dt).packet opc c) hsched htied hlisten (State.opensTo_pendSet hopen),
    State.flush_none _ (launched_waiting_inv _ _ (by simp))]

end Sys2Proof.Machine
end

section
/-! How the one command of a frame applies. -/
namespace Sys2Proof.Machine
open Sys2Proof

/-- The state in which f, the one command in flight, has left the frame's list and runs. -/
def State.runAlone (s : State) (f : Flight) : State :=
  { s with eng := { s.eng with applyQ := [] }, flight := [{ f with phase := .running }] }

theorem State.flightOf_alone {s : State} {f : Flight} (h : s.flight = [f]) : s.flightOf f.id = some f := by
  simp [State.flightOf, h]

theorem State.setPhase_running_alone {s : State} {f : Flight} (h : s.flight = [f]) :
    State.setPhase { s with eng := { s.eng with applyQ := [] } } f.id .running = s.runAlone f := by
  simp [State.setPhase, State.runAlone, modFlight, h]

/-- A scheduled command of the frame is still to come exactly where the one command listed is one, and no ROUTE_GET. -/
theorem State.schedHere_alone {s : State} {f : Flight} (hq : s.eng.applyQ = [f.id]) (h : s.flight = [f]) :
    s.schedHere = (f.isSched && decide (f.pkt.opc ≠ 0x0102)) := by
  simp [State.schedHere, hq, State.flightOf_alone h]

/-- A scheduled command repeats its checks. -/
theorem reErr_sched {f : Flight} {d : OpDef} (hd : opDef f.pkt.opc = some d) (hsched : f.pkt.sched = true) (s : State) :
    reErr f s = d.chk f.pkt s := by
  simp [reErr, hd, hsched]

/-- Outside Listen another command repeats none. -/
theorem reErr_unscheduled {f : Flight} {s : State} (hsched : f.pkt.sched = false) (hlisten : s.inListen = false) :
    reErr f s = none := by
  unfold reErr
  split
  · rfl
  · simp [hsched, hlisten]

/-- Outside Listen the one command in flight takes its effect where it is not late and passes the checks it repeats. -/
theorem applyFlight_alone {s : State} {f : Flight} {d : OpDef} {t : Nat} {late : Int} (hflight : s.flight = [f])
    (hd : opDef f.pkt.opc = some d) (hlisten : s.inListen = false) (hlate : late ≤ 0) (hchk : reErr f (s.runAlone f) = none) :
    applyFlight f t late { s with eng := { s.eng with applyQ := [] } } = listenSettle (d.apply f.id f.pkt t (s.runAlone f)) := by
  have hl : State.inListen { s with eng := { s.eng with applyQ := [] } } = false := hlisten
  have hnot : ¬ 0 < late := by omega
  simp only [applyFlight, applyWaiting, opApply, hl, hnot, State.setPhase_running_alone hflight, hchk, hd, decide_false,
    Bool.and_false, Bool.false_eq_true, if_false]

/-- The one command in flight, scheduled, due and not late, applies at the boundary of the frame at hand. -/
theorem applyOne_sched_alone {s : State} {f : Flight} {d : OpDef} (hflight : s.flight = [f]) (hd : opDef f.pkt.opc = some d)
    (hlisten : s.inListen = false) (hphase : f.phase = .waitWhen) (hsched : f.pkt.sched = true)
    (hlate : nsDiff s.apT f.pkt.whenNs ≤ 0) (hchk : d.chk f.pkt (s.runAlone f) = none) :
    applyOne f.id { s with eng := { s.eng with applyQ := [] } } = listenSettle (d.apply f.id f.pkt s.apT (s.runAlone f)) := by
  have hf : State.flightOf { s with eng := { s.eng with applyQ := [] } } f.id = some f := State.flightOf_alone hflight
  simp only [applyOne, hf, hphase]
  exact applyFlight_alone hflight hd hlisten hlate (by rw [reErr_sched hd hsched, hchk])

/-- So does a tied one that is not scheduled. -/
theorem applyOne_tied_alone {s : State} {f : Flight} {d : OpDef} (hflight : s.flight = [f]) (hd : opDef f.pkt.opc = some d)
    (hlisten : s.inListen = false) (hphase : f.phase = .waitFrame none) (hsched : f.pkt.sched = false) (htied : d.tied = true) :
    applyOne f.id { s with eng := { s.eng with applyQ := [] } } = listenSettle (d.apply f.id f.pkt s.apT (s.runAlone f)) := by
  have hf : State.flightOf { s with eng := { s.eng with applyQ := [] } } f.id = some f := State.flightOf_alone hflight
  have htie : f.untied = false := by simp [Flight.untied, hd, htied]
  simp only [applyOne, hf, hphase, htie, Bool.false_eq_true, if_false]
  exact applyFlight_alone hflight hd hlisten (Int.le_refl 0) (reErr_unscheduled hsched hlisten)

/-- SCHED_APPLY outside Listen, with the engine free, no step due and one command listed: a ROUTE_GET stays. -/
theorem schedApplyStep_alone {s : State} {f : Flight} (hflight : s.flight = [f]) (hq : s.eng.applyQ = [f.id])
    (hphase : f.phase = .waitWhen) (hlisten : s.inListen = false) (hfree : s.eng.working = none) (hstep : s.stepDue = false) :
    schedApplyStep s = if f.pkt.opc = 0x0102 then s
      else
        let t := applyOne f.id { s with eng := { s.eng with applyQ := [] } }
        if t.schedHere then t else drainOpen t := by
  have hhere : s.schedHere = decide (f.pkt.opc ≠ 0x0102) := by
    rw [State.schedHere_alone hq hflight]; simp [Flight.isSched, hphase]
  unfold schedApplyStep applyNext
  by_cases hget : f.pkt.opc = 0x0102
  · simp [hlisten, hhere, hget]
  · simp [hlisten, hfree, hstep, hhere, hget, hq]

/-- Settles O11: the row applies the one command listed. -/
theorem scheduledCommandAppliesAtItsFrame : Obligations.ScheduledCommandAppliesAtItsFrame := by
  unfold Obligations.ScheduledCommandAppliesAtItsFrame
  intro dt s f d hflight hq hphase hsched hd hlisten hfree hstep hlate b hchk t
  have ht : applyOne f.id { s.advance dt with eng := { (s.advance dt).eng with applyQ := [] } } = t :=
    applyOne_sched_alone hflight hd hlisten hphase hsched hlate hchk
  rw [exec_of_run (exec_schedApply dt s) rfl rfl]
  show Host.Outcome.next (schedApplyStep (s.advance dt)).flush = _
  rw [schedApplyStep_alone hflight hq hphase hlisten hfree hstep, ht]

/-- With the engine free and no step due, the one command listed, neither scheduled nor a ROUTE_GET, applies after the steps counted
in frames. -/
theorem frameOpen_alone {s b : State} {f : Flight} (hfree : s.eng.working = none) (hstep : s.stepDue = false)
    (hb : b = frameSteps s.apFrame s.apT s) (hflight : b.flight = [f]) (hq : b.eng.applyQ = [f.id])
    (hphase : f.phase = .waitFrame none) (hget : f.pkt.opc ≠ 0x0102) :
    frameOpen s = applyOne f.id { b with eng := { b.eng with applyQ := [] } } := by
  have hhere : b.schedHere = false := by
    rw [State.schedHere_alone hq hflight]; simp [Flight.isSched, hphase]
  unfold frameOpen
  rw [← hb, ← drainOpen_one hq (State.flightOf_alone hflight) hget]
  simp only [hfree, hstep, hhere, Option.isSome_none, Bool.or_self, Bool.false_eq_true, if_false]

/-- While frames run FRAME_BOUNDARY latches, and opens the frame. -/
theorem frameBoundaryStep_run {s : State} (inp : InputSet) (done : Bool) (hframing : s.framing = true) (hrun : s.tm.frameRun = true) :
    frameBoundaryStep inp done s = frameOpen (boundaryLatch inp done s) := by
  unfold frameBoundaryStep
  simp only [hframing, hrun, Bool.not_true, Bool.or_self, Bool.false_eq_true, if_false]

/-- Settles O44: the boundary applies the one command listed. -/
theorem tiedCommandAppliesAtItsBoundary : Obligations.TiedCommandAppliesAtItsBoundary := by
  unfold Obligations.TiedCommandAppliesAtItsBoundary
  intro dt inp done s a b f d ha hinp hframing hrun hd htied hget hsched hphase hfree hstep hb hflight hq hlisten
  rw [exec_of_run (exec_frameBoundary dt inp done s) hinp ha, frameBoundaryStep_run inp done hframing hrun,
    frameOpen_alone hfree hstep hb hflight hq hphase hget, applyOne_tied_alone hflight hd hlisten hphase hsched htied]
  rfl

end Sys2Proof.Machine
end

section
/-! Frames: what a boundary latches, how a frame ends, and the engine's work. -/
namespace Sys2Proof.Machine
open Sys2Proof

/-- What follows the latch leaves the engine, the clock, device time and the frame counter. -/
theorem latched_keeps (n : Nat) (s : State) : (schedWindow n (rateLands s.landed.switchDue)).eng = s.eng ∧
    (schedWindow n (rateLands s.landed.switchDue)).clk = s.clk ∧
    (schedWindow n (rateLands s.landed.switchDue)).tm.devT = s.tm.devT ∧
    (schedWindow n (rateLands s.landed.switchDue)).tm.frame = s.tm.frame := by
  obtain ⟨fl, c, hwin⟩ := schedWindow_frame n (rateLands s.landed.switchDue)
  obtain ⟨heng, htm, hclk⟩ := rateLands_keeps s.landed.switchDue
  have hland := StreamsOnly.landed s
  have hsw := AimsOnly.switchDue s.landed
  rw [hwin]
  refine ⟨?_, ?_, ?_, ?_⟩
  · exact heng.trans (hsw.eng.trans hland.eng)
  · exact hclk.trans (hsw.clk.trans hland.clk)
  · exact (congrArg Tm.devT htm).trans (hsw.devT.trans (congrArg Tm.devT hland.tm))
  · exact (congrArg Tm.frame htm).trans (hsw.frame.trans (congrArg Tm.frame hland.tm))

/-- A boundary, not the first of Idle or Run, latches its input set: its frame is pending, with the boundary's time. -/
theorem boundaryLatch_pending (inp : InputSet) (done : Bool) {s : State} (hfirst : s.eng.first = false) :
    let b := boundaryLatch inp done s
    b.eng.pendSet = some (b.tm.frame, inp) ∧ b.eng.pendB = b.nowNs ∧ b.eng.lastLatch = b.clk ∧ b.eng.latchT = b.tm.devT := by
  unfold boundaryLatch
  extract_lets first c before s1 s2 s3 _ s4 sw s5 _ b
  have hs5 : schedWindow s4.tm.frame sw = s5 :=
    congrArg (schedWindow s4.tm.frame) (if_neg (by simp [first, hfirst])).symm
  obtain ⟨heng, hclk, hdev, hframe⟩ := latched_keeps s4.tm.frame s4
  rw [hs5] at heng hclk hdev hframe
  clear_value s3 s5
  show s5.eng.pendSet = some (s5.tm.frame, inp) ∧ s5.eng.pendB = nsOf s5.tm.devT ∧ s5.eng.lastLatch = s5.clk ∧
    s5.eng.latchT = s5.tm.devT
  rw [heng, hclk, hdev, hframe]
  exact ⟨rfl, rfl, rfl, rfl⟩

/-- A boundary moves the frame counter, the media count and the tick on; only a wrap of the counter raises an event. -/
theorem countFrame_next {s : State} (hbegun : s.tm.begun = true) (hwrap : (s.tm.frame + 1) % 2 ^ 64 ≠ 0) :
    countFrame s = { s with
      tm := { s.tm with frame := (s.tm.frame + 1) % 2 ^ 64, frameT := s.nowNs, mediaM := s.tm.mediaM + 1,
                        tick := if s.eng.first then 0 else (s.tm.tick + 1) % tickLen s.tm.rate } } := by
  unfold countFrame
  simp only [hbegun, if_true, hwrap, and_false, if_false]

theorem workStart_idle {s : State} (h : s.eng.pendSet = none) : workStart s = s := by
  unfold workStart
  rw [h]

/-- A frame's work ends with no set pending and the engine working on that frame. -/
theorem frameWork_working {fr n : Nat} {inp : InputSet} {s t : State} (h : t = frameWork fr n inp s) :
    t.eng.pendSet = none ∧ t.eng.working = some fr ∧ t.eng.metFr = fr := by
  rw [h]
  unfold frameWork
  exact ⟨rfl, rfl, rfl⟩

/-- Settles O42: the boundary with and without frames, the counts, and the engine's work with and without a set pending. -/
theorem framesAreLatchedAndWorked : Obligations.FramesAreLatchedAndWorked := by
  unfold Obligations.FramesAreLatchedAndWorked
  intro dt inp done s a ha hinp
  refine ⟨fun hstill => ?_, fun hruns => ?_, countFrame_next, fun hidle => ?_, fun fr hpend => ?_⟩
  · rw [exec_of_run (exec_frameBoundary dt inp done s) hinp ha]
    have hnot : (!a.framing || !a.tm.frameRun) = true := by rw [← Bool.not_and, hstill]; rfl
    rw [frameBoundaryStep, if_pos hnot]
  · obtain ⟨hframing, hrun⟩ := Bool.and_eq_true_iff.mp hruns
    refine ⟨?_, boundaryLatch_pending inp done⟩
    rw [exec_of_run (exec_frameBoundary dt inp done s) hinp ha, frameBoundaryStep_run inp done hframing hrun]
  · rw [exec_of_run (exec_engineWorkStart dt s) rfl ha, workStart_idle hidle]
  · intro w v b hset t
    obtain ⟨x, hx⟩ := Option.isSome_iff_exists.mp hset
    have hnone : ¬ b.eng.pendSet.isNone = true := by rw [hx]; exact Bool.false_ne_true
    have hwork : workStart a = t := by rw [workStart_pending hpend]; exact if_neg hnone
    refine ⟨?_, frameWork_working (t := t) rfl⟩
    rw [exec_of_run (exec_engineWorkStart dt s) rfl ha, hwork]

/-- A late frame, or a discarded one, counts in LATE_COUNT and in the run of late frames. -/
theorem lateFrame_eng (c : Nat) (disc : Bool) (s : State) :
    (lateFrame c disc s).eng = { s.eng with
      lateCnt := (satInc 31 (s.eng.lateCnt, s.eng.lateSat)).1, lateSat := (satInc 31 (s.eng.lateCnt, s.eng.lateSat)).2,
      lateRun := min 4 (s.eng.lateRun + 1), okRun := 0, disc := s.eng.disc || disc } := by
  unfold lateFrame
  exact State.raiseLimAt_eng _ _ _ _ _ _

/-- t's engine counts late frames, and frames on time, as s's does. -/
structure State.SameCounts (s t : State) : Prop where
  lateCnt : t.eng.lateCnt = s.eng.lateCnt
  lateSat : t.eng.lateSat = s.eng.lateSat
  lateRun : t.eng.lateRun = s.eng.lateRun
  okRun : t.eng.okRun = s.eng.okRun
  disc : t.eng.disc = s.eng.disc

/-- A frame ends discarded with its input set, late, or on time; it is counted from a state t that has the counts as they were, and holds
what the destinations now present. -/
theorem frameEnds_eq (done : Bool) (s : State) : ∃ t : State, s.SameCounts t ∧
    t.eng.held = (if s.eng.pendSet.isSome then s.eng.held
      else if s.eng.working.isSome && !done then lateSet s.freeCtr s.eng.outSet s.eng.held else s.eng.outSet) ∧
    frameEnds done s = if s.eng.pendSet.isSome then lateFrame s.tm.frame true (discardSet t)
      else if s.eng.working.isSome && !done then lateFrame s.tm.frame false t else timelyFrame t := by
  unfold frameEnds
  extract_lets e disc late held pos turn gs step g1 g2 tm s1 s2
  have heng : s2.eng = s1.eng := ite_eng _ _ _ _ (State.bump_eng s1) rfl
  have hcounts : s.SameCounts s2 := by constructor <;> rw [heng]
  refine ⟨s2, hcounts, ?_, ?_⟩
  · rw [heng]
    show held = _
    cases hdisc : s.eng.pendSet.isSome <;> simp [held, late, disc, e, hdisc]
  · cases hdisc : s.eng.pendSet.isSome <;> simp [late, disc, e, hdisc]

/-- An input set still pending at the boundary: its frame is discarded. -/
theorem frameEnds_discards (done : Bool) {s : State} (h : s.eng.pendSet.isSome = true) :
    ∃ t : State, s.SameCounts t ∧ t.eng.held = s.eng.held ∧ frameEnds done s = lateFrame s.tm.frame true (discardSet t) := by
  obtain ⟨t, hcounts, hheld, hend⟩ := frameEnds_eq done s
  rw [if_pos h] at hheld hend
  exact ⟨t, hcounts, hheld, hend⟩

/-- Work that has not ended by the boundary: its frame is late. -/
theorem frameEnds_late {s : State} (h : s.eng.pendSet = none) (hwork : s.eng.working.isSome = true) :
    ∃ t : State, s.SameCounts t ∧ frameEnds false s = lateFrame s.tm.frame false t := by
  obtain ⟨t, hcounts, -, hend⟩ := frameEnds_eq false s
  exact ⟨t, hcounts, by simpa [h, hwork] using hend⟩

/-- No set pending and the work ended: the frame is on time. -/
theorem frameEnds_timely {s : State} (h : s.eng.pendSet = none) :
    ∃ t : State, s.SameCounts t ∧ t.eng.held = s.eng.outSet ∧ frameEnds true s = timelyFrame t := by
  obtain ⟨t, hcounts, hheld, hend⟩ := frameEnds_eq true s
  exact ⟨t, hcounts, by simpa [h] using hheld, by simpa [h] using hend⟩

/-- Settles O43: how a frame ends, then each row as its effect is defined. -/
theorem lateFramesCountAndMute : Obligations.LateFramesCountAndMute := by
  unfold Obligations.LateFramesCountAndMute
  intro dt pace load s a ha
  refine ⟨fun hpend done => ?_, fun hpend hwork => ?_, fun hpend => ?_, ?_, ?_, ?_, fun halive => ?_⟩
  · obtain ⟨t, hcounts, hheld, hend⟩ := frameEnds_discards done hpend
    obtain ⟨r, hdisc⟩ := discardSet_eng t
    rw [hend, lateFrame_eng, hdisc]
    exact ⟨by simp [hcounts.lateCnt, hcounts.lateSat], by simp [hcounts.lateRun], rfl, by simp, hheld⟩
  · obtain ⟨t, hcounts, hend⟩ := frameEnds_late hpend hwork
    rw [hend, lateFrame_eng]
    exact ⟨by simp [hcounts.lateCnt, hcounts.lateSat], by simp [hcounts.lateRun], rfl, by simp [hcounts.disc]⟩
  · obtain ⟨t, hcounts, hheld, hend⟩ := frameEnds_timely hpend
    rw [hend]
    exact ⟨hcounts.lateCnt, rfl, congrArg (fun n => min 48 (n + 1)) hcounts.okRun, hheld⟩
  · rw [exec_of_run (exec_lateMuteStart dt s) rfl ha, lateMuteStartStep]
    simp only [Bool.not_eq_true']
  · rw [exec_of_run (exec_lateMuteEnd dt s) rfl ha, lateMuteEndStep]
  · rw [exec_of_run (exec_engineMuteClear dt s) rfl ha, engineMuteClearStep]
  · rw [exec_of_run (exec_paceWindow dt pace load s) rfl ha, paceWindowStep, halive]
    rfl

end Sys2Proof.Machine
end

section
/-! A port's write of a whole register. -/
namespace Sys2Proof.Machine
open Sys2Proof

/-- A word written with all its four bytes is written as it is. -/
theorem and_byteMask_full {v : Nat} (h : v < 4294967296) : v &&& byteMask 15 = v :=
  Nat.and_two_pow_sub_one_of_lt_two_pow (n := 32) h

theorem portWrite_only (port r v : Nat) (s : State) : PortsOnly s (portWrite port r v s) :=
  .ite (.regWrite _ _ _ _ _) (.refl s)

/-- A row that writes a register, aligned and of a port that runs, answers the write, and no record. -/
theorem exec_regWrite {i : Instr} {s a : State} {port r v : Nat} (hrow : exec i s = run i s (portWrite port r v)) (hwf : i.wf = true)
    (hinv : s.Inv) (ha : s.advance i.dt = a) (hport : a.portRuns port = true) (hr : r < 0x1000) (hword : r % 4 = 0) :
    exec i s = .next (regWrite port r v 15 a) := by
  have hwrite : portWrite port r v a = regWrite port r v 15 a := by
    unfold portWrite
    rw [if_pos ⟨hport, hr⟩, hword, Nat.sub_zero]
  have honly := portWrite_only port r v a
  rw [hrow, run_answers ha hwf hinv rfl honly.flight honly.pendSet honly.pendB, hwrite]

section
variable {s : State} (hready : s.pwr.ready = true) (port v : Nat)
include hready

/-- PORT_ERR: any value clears it. -/
theorem regWrite_portErr : regWrite port 0x01C v 15 s =
    s.setPr port { s.pr port with errCnt := 0, errSat := false, errQueue := 0, errCause := 0 } := by
  simp [regWrite, hready]

/-- ENG_PACE: any value raises the lowest pace to its top. -/
theorem regWrite_engPace : regWrite port 0x080 v 15 s = { s with eng := { s.eng with paceMin := 0xFFFF } } := by
  simp [regWrite, hready]

/-- ENG_LATE: any value clears the count. -/
theorem regWrite_engLate : regWrite port 0x088 v 15 s = { s with eng := { s.eng with lateCnt := 0, lateSat := false } } := by
  simp [regWrite, hready]

variable {v} (hv : v < 4294967296)
include hv

/-- Q_STAT: a 1 written to bit 7 clears the queue's overflow. -/
theorem regWrite_qStat {q : Nat} (hq : q < 32) :
    regWrite port (0x300 + 4 * q) v 15 s = if bit v 7 then s.setQueue q { s.queue q with ovf := false } else s := by
  have hidx : (0x300 + 4 * q - 0x300) / 4 = q := by omega
  unfold regWrite
  simp only [hready, Bool.not_true, Bool.false_eq_true, if_false, and_byteMask_full hv]
  repeat rw [if_neg (by omega)]
  rw [if_pos (by omega), hidx]

/-- IRQ_STAT: ones written to bits 4 and 3 clear the two sticky causes. -/
theorem regWrite_irqStat : regWrite port 0x010 v 15 s = s.setPr port { s.pr port with
    stickyErr := (s.pr port).stickyErr && !bit v 4, stickyBoot := (s.pr port).stickyBoot && !bit v 3 } := by
  simp [regWrite, hready, and_byteMask_full hv]

/-- SNAP: a 1 written to bit 0 latches the snapshot. -/
theorem regWrite_snap : regWrite port 0x040 v 15 s = if bit v 0 then s.setPr port { s.pr port with
    snapNs := s.nowNs, snapFrac := s.tm.devT % 65536, snapFrame := s.tm.frame, snapDone := true } else s := by
  simp [regWrite, hready, and_byteMask_full hv, State.snap]

/-- ENG_STAT: a 1 written to bit 10 clears the note of a discarded frame. -/
theorem regWrite_engStat : regWrite port 0x084 v 15 s = { s with eng := { s.eng with disc := s.eng.disc && !bit v 10 } } := by
  simp [regWrite, hready, and_byteMask_full hv]

end

/-- Settles O12, a register at a time. -/
theorem registerClearsActAlone : Obligations.RegisterClearsActAlone := by
  unfold Obligations.RegisterClearsActAlone
  intro dt port q v s a hinv ha hregs hq hv hready
  refine ⟨fun hport => ⟨?_, ?_, ?_, ?_⟩, fun hqspi => ?_⟩
  · rw [exec_regWrite (exec_qStatOvfClear dt port q v s) (by simp [Instr.wf, hregs, hq, hv]) hinv ha hport (by omega) (by omega),
      regWrite_qStat hready port hv hq]
  · rw [exec_regWrite (exec_irqStatClear dt port v s) (by simp [Instr.wf, hregs, hv]) hinv ha hport (by decide) rfl,
      regWrite_irqStat hready _ hv]
  · rw [exec_regWrite (exec_portErrClear dt port v s) (by simp [Instr.wf, hregs, hv]) hinv ha hport (by decide) rfl,
      regWrite_portErr hready]
  · rw [exec_regWrite (exec_snapLatch dt port v s) (by simp [Instr.wf, hregs, hv]) hinv ha hport (by decide) rfl,
      regWrite_snap hready _ hv]
  · have hone : a.portRuns 1 = true := hqspi
    refine ⟨?_, ?_, ?_⟩
    · rw [exec_regWrite (exec_engPaceClear dt v s) (by simp [Instr.wf, hv]) hinv ha hone (by decide) rfl, regWrite_engPace hready]
    · rw [exec_regWrite (exec_engStatDiscClear dt v s) (by simp [Instr.wf, hv]) hinv ha hone (by decide) rfl,
        regWrite_engStat hready _ hv]
    · rw [exec_regWrite (exec_engLateClear dt v s) (by simp [Instr.wf, hv]) hinv ha hone (by decide) rfl, regWrite_engLate hready]

end Sys2Proof.Machine
end

section
/-! Heat and VCORE. -/
namespace Sys2Proof.Machine
open Sys2Proof

/-- The hotter die's temperature. -/
theorem State.hotDie_temp (s : State) : s.hotDie.2 = max s.env.tjC s.env.tjE := by
  unfold State.hotDie
  split <;> simp only <;> omega

/-- Whether the part is alive depends on the power unit only. -/
theorem State.alive_of_pwr {s t : State} (h : t.pwr = s.pwr) : t.alive = s.alive := by
  unfold State.alive; rw [h]

/-- A reset of the part leaves no command in flight. -/
theorem resetPart_inv (s : State) (cause : Nat) (full on : Bool) : (s.resetPart cause full on).Inv :=
  fun _ hf => absurd hf List.not_mem_nil

/-- What a part that is alive does at the temperature t of its hotter die. -/
theorem thermalAct_alive {s : State} (h : s.alive = true) : thermalAct s =
    (let t := max s.env.tjC s.env.tjE
     if 17280 ≤ t then ({ s with pwr := { s.pwr with tripped := true } } : State).resetPart 5 false false
     else if 16000 ≤ t then (if s.pwr.thermLevel = 2 then s else (thermalTripOutputs (setTherm 2 s)).thermalEvent 2)
     else if t < 12160 then (if s.pwr.thermLevel = 0 then s else (setTherm 0 s).thermalEvent 0)
     else if s.pwr.thermLevel = 2 then setTherm 1 s
     else if s.pwr.thermLevel = 0 ∧ 12800 ≤ t then (setTherm 1 s).thermalEvent 1
     else s) := by
  unfold thermalAct
  simp only [State.hotDie_temp, h, Bool.not_true, Bool.false_eq_true, if_false]

/-- VCORE_LOW on a part that is alive. -/
theorem vcoreLowStep_alive {s : State} (mv : Nat) (h : s.alive = true) : vcoreLowStep mv s =
    (let e : State := { s with env := { s.env with vcoreMv := mv } }
     if decide (mv < 760) = s.eng.lowv then e
     else ({ e with eng := { e.eng with lowv := decide (mv < 760) } } : State).raiseLim 0x031 0 100000000
       (le 1 (b2n (decide (mv < 760))) ++ le 1 0 ++ le 2 (min 0xFFFF mv) ++ le 4 s.frame32)) := by
  have halive : State.alive { s with env := { s.env with vcoreMv := mv } } = true := h
  unfold vcoreLowStep
  simp only [halive, Bool.not_true, Bool.false_or, decide_eq_true_eq]
  rfl

/-- Settles O32: the branch of THERMAL that each range of the hotter die's temperature takes. -/
theorem heatAndVcoreAreFollowed : Obligations.HeatAndVcoreAreFollowed := by
  unfold Obligations.HeatAndVcoreAreFollowed
  intro dt tjC tjE s a b ha halive hb
  obtain ⟨henv, hpwr⟩ := pairsHot_frame hb
  have hC : b.env.tjC = tjC := by rw [henv]
  have hE : b.env.tjE = tjE := by rw [henv]
  have hbalive : b.alive = true := (State.alive_of_pwr hpwr).trans halive
  have hrow : exec (.thermal dt tjC tjE) s = .next (thermalAct b).flush := by
    rw [exec_of_run (exec_thermal dt tjC tjE s) rfl ha, hb]; rfl
  rw [hrow, thermalAct_alive hbalive, hC, hE]
  dsimp only
  generalize max tjC tjE = t
  refine ⟨fun h => ?_, fun h1 h2 hl => ?_, fun h1 h2 hl => ?_, fun h hl => ?_, fun h1 h2 hl => ?_, fun h => ?_,
    fun mv e he => ?_, fun htrip hdue => ?_⟩
  · rw [if_pos h, State.flush_none _ (resetPart_inv _ _ _ _)]
  · rw [if_neg (by omega), if_pos h1, if_neg hl]; rfl
  · rw [if_neg (by omega), if_neg (by omega), if_neg (by omega), if_neg (by omega), if_pos ⟨hl, h1⟩]; rfl
  · rw [if_neg (by omega), if_neg (by omega), if_pos h, if_neg hl]; rfl
  · rw [if_neg (by omega), if_neg (by omega), if_neg (by omega), if_pos hl]; rfl
  · rcases h with ⟨h1, hl⟩ | ⟨h1, h2, hl⟩ | ⟨h1, h2, hl⟩
    · by_cases hcold : t < 12160
      · rw [if_neg (by omega), if_neg (by omega), if_pos hcold, if_pos hl]
      · rw [if_neg (by omega), if_neg (by omega), if_neg hcold, if_neg (by omega), if_neg (by omega)]
    · rw [if_neg (by omega), if_neg (by omega), if_neg (by omega), if_neg (by omega), if_neg (by omega)]
    · rw [if_neg (by omega), if_pos h1, if_pos hl]
  · rw [exec_of_run (exec_vcoreLow dt mv s) rfl ha, vcoreLowStep_alive mv halive, he]
    exact ⟨fun h => by rw [if_pos h], fun h => by rw [if_neg h]⟩
  · rw [exec_of_run (exec_thermalRestart dt s) rfl ha, thermalRestartStep, if_pos ⟨htrip, hdue⟩]; rfl

end Sys2Proof.Machine
end

section
/-! Rows of pins, ports and timers. -/
namespace Sys2Proof.Machine
open Sys2Proof

/-- Whether a record fits in a queue does not depend on the records that wait there. -/
theorem State.recFits_setWaitRecs (s : State) (q : Nat) (l : List Rec) (r : Rec) :
    (s.setQueue q { s.queue q with waitRecs := l }).recFits q r = s.recFits q r := by
  have hwin : (s.setQueue q { s.queue q with waitRecs := l }).twWindow q = s.twWindow q := by
    unfold State.twWindow
    refine congrArg List.length (List.filter_congr fun k hk => ?_)
    rw [State.queue_setQueue_other _ _ _ _ (Nat.ne_of_lt (List.mem_range.mp hk))]
  have hsize : (s.setQueue q { s.queue q with waitRecs := l }).winSize q = s.winSize q := by
    simp only [State.winSize, State.queue_setQueue_same, hwin]
  unfold State.recFits
  dsimp only
  rw [hsize, State.queue_setQueue_same]

/-- CQ_RECORD_WRITE on a queue of QSPI or TW0: the first record that waits is handed on where it fits. -/
theorem cqRecordStep_fits {s : State} {q : Nat} {r : Rec} {rest : List Rec} (hwait : (s.queue q).waitRecs = r :: rest)
    (hport : (s.queue q).port ≠ 2) (hfits : s.recFits q r = true) :
    cqRecordStep q s = (s.setQueue q { s.queue q with waitRecs := rest }).putRec q r := by
  unfold cqRecordStep
  simp only [hwait, if_neg hport, State.recFits_setWaitRecs, if_pos hfits]

/-- RESET_UNIT_DONE where the first reset can end. -/
theorem resetUnitDoneStep_first {s : State} {r : RstUnit} {rest : List RstUnit} (hrsts : s.rsts = r :: rest)
    (hready : s.rstReady r = true) : resetUnitDoneStep s = ({ s with rsts := rest } : State).finishOk r.id [] s.nowNs := by
  unfold resetUnitDoneStep
  rw [hrsts, List.find?_cons_of_pos hready]
  dsimp only
  rw [List.erase_cons_head]

/-- ENGINE_WORK_START with no step of device time due and no command for the frame. -/
theorem workStart_noCmds {s : State} {fr : Nat} {inp : InputSet} (hpend : s.eng.pendSet = some (fr, inp)) (hq : s.eng.applyQ = [])
    (hstep : s.stepDue = false) : workStart s = frameWork fr s.eng.pendB inp
      (mixJobsDone none (frameSteps fr s.eng.pendB { s with eng := { s.eng with working := none } })) := by
  rw [workStart_pending hpend]
  generalize hw : ({ s with eng := { s.eng with working := none } } : State) = w
  have hwq : w.eng.applyQ = [] := by rw [← hw]; exact hq
  have hwpend : w.eng.pendSet = some (fr, inp) := by rw [← hw]; exact hpend
  have hwB : w.eng.pendB = s.eng.pendB := by rw [← hw]
  have heng := frameSteps_eng fr s.eng.pendB w
  have hdrain : drainAll (frameSteps fr s.eng.pendB w) = frameSteps fr s.eng.pendB w := by
    unfold drainAll; rw [heng, hwq]; rfl
  simp only [hstep, Bool.false_eq_true, if_false, hwB, hdrain, heng, hwpend, Option.isNone_some]

/-- WAKE_N boots a part that sleeps, 10 ms after PWR_EN fell; so do a TW0 match with WAKE_EN, and a held cause. -/
theorem wakeNStep_boots {s : State} (hasleep : s.asleep = true) (hlow : s.discharged = true) :
    wakeNStep s = tryBoot (s.resetPart 6 false true) := by
  unfold wakeNStep
  rw [if_pos hasleep, if_pos hlow]; rfl

theorem tw0WakeStep_boots {s : State} (hasleep : s.asleep = true) (hlow : s.discharged = true) (hmatch : bit s.pc.tw0Fl 0 = true) :
    tw0WakeStep s = { tryBoot (s.resetPart 7 false true) with
      tw0 := { (tryBoot (s.resetPart 7 false true)).tw0 with stretch := !bit s.pc.tw0Fl 1, nackUntilRun := bit s.pc.tw0Fl 1 } } := by
  unfold tw0WakeStep
  simp only [hmatch, Bool.not_true, Bool.false_eq_true, if_false, if_pos hasleep, if_pos hlow]
  rfl

theorem heldWakeStep_boots {s : State} {c : Nat} (hasleep : s.asleep = true) (hlow : s.discharged = true)
    (hheld : s.pwr.heldWake = some c) : heldWakeStep s = { tryBoot (s.resetPart c false true) with
      tw0 := { (tryBoot (s.resetPart c false true)).tw0 with nackUntilRun := s.tw0.nackUntilRun } } := by
  unfold heldWakeStep
  simp only [hheld, hasleep, hlow, and_self, if_true]
  rfl

/-- TW0's own address with the direction bit. -/
theorem State.tw0Acks_iff {s : State} {x : Byte} {read : Bool} :
    s.tw0Acks x read = true ↔ x.toNat = 2 * (0x3C + s.pwr.straps.addr) + b2n read := by
  exact decide_eq_true_iff

/-- A read at TW0's own address that ends with a STOP. -/
theorem tw0ReadStep_stop {s : State} {x : Byte} (n : Nat) (hon : s.tw0On = true) (hx : s.tw0Acks x true = true) :
    tw0ReadStep ⟨x, n, true⟩ s = twStop (twReads n { s with tw0 := { s.tw0 with out := [] } }) := by
  have hack : ∀ v : Tw0, State.tw0Acks { s with tw0 := v } x true = true := fun _ => hx
  unfold tw0ReadStep
  simp only [hon, hack, Bool.not_true, Bool.false_eq_true, if_false, if_true]

/-- Settles O60, a row at a time. -/
theorem timerAndPinRowsComplete : Obligations.TimerAndPinRowsComplete := by
  unfold Obligations.TimerAndPinRowsComplete
  intro dt q slot n bs x h l stop s a ha hq hslot
  refine ⟨fun hready hlt => ?_, fun hon hx => ?_, fun hon hx => ?_, fun hasleep hlow => ⟨?_, fun hmatch => ?_, fun c hheld => ?_⟩,
    fun r rest hwait hport hfits => ?_, fun r rest hrsts hready => ?_, fun fr inp hpend hcmds hstep => ?_⟩
  · rw [exec_of_run (exec_hostSlotRelease dt slot s) (decide_eq_true hslot) ha, hostSlotReleaseStep, if_pos ⟨hready, hlt⟩]
  · have hack : a.tw0Acks x false = true := State.tw0Acks_iff.mpr hx
    rw [exec_of_run (exec_tw0Write dt (x :: h :: l :: bs) stop s) rfl ha]
    cases bs with
    | nil => rw [tw0WriteStep_pointer hon hack]
    | cons b r => rw [tw0WriteStep_bytes hon hack]
  · rw [exec_of_run (exec_tw0Read dt ⟨x, n, true⟩ s) rfl ha, tw0ReadStep_stop n hon (State.tw0Acks_iff.mpr hx)]
  · rw [exec_of_run (exec_wakeN dt s) rfl ha, wakeNStep_boots hasleep hlow]
  · rw [exec_of_run (exec_tw0WakeMatch dt s) rfl ha, tw0WakeStep_boots hasleep hlow hmatch]
  · rw [exec_of_run (exec_heldWake dt s) rfl ha, heldWakeStep_boots hasleep hlow hheld]
  · rw [exec_of_run (exec_cqRecordWrite dt q s) (decide_eq_true hq) ha, cqRecordStep_fits hwait hport hfits]
  · rw [exec_of_run (exec_resetUnitDone dt s) rfl ha, resetUnitDoneStep_first hrsts hready]
  · rw [exec_of_run (exec_engineWorkStart dt s) rfl ha, workStart_noCmds hpend hcmds hstep]

end Sys2Proof.Machine
end

section
/-! What every step keeps: no completed command is left with its record not handed on. -/
namespace Sys2Proof.Machine
open Sys2Proof

theorem exec_commandStart (dt : Nat) (s : State) : exec (.commandStart dt) s =
    if (s.advance dt).testStart then .refused .testGroup else run (.commandStart dt) s commandStartStep := rfl

theorem exec_configPacketRun (dt : Nat) (s : State) : exec (.configPacketRun dt) s =
    if (s.advance dt).testConfig then .refused .testGroup else run (.configPacketRun dt) s configRunStep := rfl

/-- A row that answers a next state has handed on the records of all that completed, whatever its effect is. -/
theorem run_inv {i : Instr} {s t : State} {f : State → State} (h : run i s f = .next t) : t.Inv := by
  unfold run at h
  split at h
  · injection h with h
    exact h ▸ State.flush_inv _
  · injection h

/-- So does every row: each is `run` of its effect, and two of them may be refused first. -/
theorem exec_inv {i : Instr} {s t : State} (h : exec i s = .next t) : t.Inv := by
  by_cases hstart : ∃ dt, i = .commandStart dt
  · obtain ⟨dt, rfl⟩ := hstart
    rw [exec_commandStart] at h
    split at h
    · injection h
    · exact run_inv h
  · by_cases hconfig : ∃ dt, i = .configPacketRun dt
    · obtain ⟨dt, rfl⟩ := hconfig
      rw [exec_configPacketRun] at h
      split at h
      · injection h
      · exact run_inv h
    · obtain ⟨f, hrun⟩ := exec_eq_run i s (not_exists.mp hstart) (not_exists.mp hconfig)
      exact run_inv (hrun ▸ h)

/-- Settles O5: a block that idles stays as it is, and a row ends with its records handed on. -/
theorem stepKeepsInvariant : Obligations.StepKeepsInvariant := by
  unfold Obligations.StepKeepsInvariant
  intro s t hinv hstep
  unfold step at hstep
  split at hstep
  · injection hstep with hst
    exact hst ▸ hinv
  · exact exec_inv hstep

/-- Settles O4: after reset no command is in flight. -/
theorem resetMeetsInvariant : Obligations.ResetMeetsInvariant := by
  unfold Obligations.ResetMeetsInvariant
  exact fun _ hf => absurd hf List.not_mem_nil

end Sys2Proof.Machine
end

section
/-! The queues after reset. -/
namespace Sys2Proof.Machine
open Sys2Proof

theorem State.reset_queue (q : Nat) : State.reset.queue q = queueReset q := rfl

/-- A queue after reset holds no packet and no record. -/
theorem queueReset_empty (q : Nat) :
    (queueReset q).unstarted = [] ∧ (queueReset q).recEnds = [] ∧ (queueReset q).waitRecs = [] := by
  unfold queueReset
  repeat' split
  all_goals exact ⟨rfl, rfl, rfl⟩

/-- R60's port of each queue: 0 to 19 QSPI, 20 to 27 Fjarord, 28 to 31 TW0. -/
theorem queueReset_port {q : Nat} (hq : q < 32) :
    (queueReset q).port = if q < 20 then 1 else if q < 28 then 2 else 3 := by
  revert q; decide

/-- R60's class of each queue: the first two of a port urgent and event, 16 to 19 bulk, the others normal. -/
theorem queueReset_cls {q : Nat} (hq : q < 32) :
    (queueReset q).cls = if q = 0 ∨ q = 20 ∨ q = 28 then .urgent else if q = 1 ∨ q = 21 ∨ q = 29 then .event
      else if 16 ≤ q ∧ q < 20 then .bulk else .normal := by
  revert q; decide

/-- Settles O2: the table of R60, and empty queues. -/
theorem resetBindsQueues : Obligations.ResetBindsQueues := by
  unfold Obligations.ResetBindsQueues
  intro q hq
  obtain ⟨hunstarted, hends, hwait⟩ := queueReset_empty q
  have hlevel : State.reset.level q = 0 := by
    simp only [State.level, State.reset_queue, hunstarted, hwait]
    exact ite_self 0
  exact ⟨queueReset_port hq, queueReset_cls hq, hlevel, hends, hwait⟩

end Sys2Proof.Machine
end

section
/-! A packet that meets a free interpreter: refused, scheduled, or taken at once. -/
namespace Sys2Proof.Machine
open Sys2Proof

/-- A packet that is refused as it starts is answered. -/
theorem State.began_refused {s : State} {p : Packet} (e : Err) (n : Nat) (hc : p.config = false) (hpend : s.eng.pendSet = none) :
    ((s.began p).finishErr (s.seq + 1) e n).flush = (s.began p).answered p e.status n (errData e) :=
  State.firstFlight_err (s := s) e n rfl hc hpend

/-- Settles O7: the packet's one flight ends refused, and its record is handed on. -/
theorem refusedCommandLeavesOnlyItsRecord : Obligations.RefusedCommandLeavesOnlyItsRecord := by
  unfold Obligations.RefusedCommandLeavesOnlyItsRecord
  intro i opc c s e hrow hwf hopen hchk
  rw [exec_packetRow_next s hrow hwf, arrive_refused opc e (State.opensTo_free hopen) hchk,
    State.began_refused e _ rfl (State.opensTo_pendSet hopen)]

/-- A scheduled command outside Listen is launched to wait for its WHEN, or to expire where that is past and NOTAFTER is set. -/
theorem launch_sched {s : State} {p : Packet} {d : OpDef} (hsched : p.sched = true) (hlisten : s.inListen = false) :
    launch (s.firstFlight p) d (s.began p) =
      if p.notAfter && (s.launched p).whenPast p.whenNs then
        ({ s.launched p with routeJobs := tdel (s.seq + 1) (s.launched p).routeJobs } : State).finishErr (s.seq + 1)
          { status := stExpired } (s.launched p).nowNs
      else (s.launched p).setPhase (s.seq + 1) .waitWhen := by
  have hin : (s.launched p).inListen = false := by
    obtain ⟨r, w, hl⟩ := launched_frame s p
    rw [hl]; exact hlisten
  have hw : takeWindow (s.firstFlight p).id (s.firstFlight p).pkt (if (s.firstFlight p).pkt.opc = 0x0101
    then routeSetStart (s.firstFlight p).id (s.firstFlight p).pkt (s.began p) else s.began p) = s.launched p := rfl
  unfold launch
  rw [hw]
  simp only [hsched, hin, if_true, Bool.false_eq_true, if_false]

/-- The one flight of a launched packet ends with EXPIRED: its answer. -/
theorem launched_expires {s : State} {opc : Nat} {c : Cmd} (hpend : s.eng.pendSet = none) (jobs : Tab RouteJob) :
    (State.finishErr { s.launched (s.packet opc c) with routeJobs := jobs } (s.seq + 1) { status := stExpired }
      (s.launched (s.packet opc c)).nowNs).flush =
    State.answered { s.launched (s.packet opc c) with routeJobs := jobs } (s.packet opc c) stExpired s.nowNs
      (errData { status := stExpired }) := by
  obtain ⟨r, w, hl⟩ := launched_frame s (s.packet opc c)
  rw [hl]
  exact State.flush_finishErr (f := { s.firstFlight (s.packet opc c) with win := w }) _ _ rfl rfl rfl hpend

/-- Settles O10: the launch expires and is answered, or waits with nothing completed. -/
theorem scheduledCommandWaitsOrExpires : Obligations.ScheduledCommandWaitsOrExpires := by
  unfold Obligations.ScheduledCommandWaitsOrExpires
  intro i opc c s d hrow hwf hopen hd hchk hsched hlisten b
  rw [exec_launches hrow hwf hopen hd hchk, launch_sched (p := (s.advance i.dt).packet opc c) hsched hlisten]
  refine congrArg Host.Outcome.next ?_
  show State.flush (if bit c.flags 1 && b.whenPast c.whenNs then _ else _) = _
  split
  · exact launched_expires (State.opensTo_pendSet hopen) _
  · exact State.flush_none _ (launched_waiting_inv _ _ (by simp))

end Sys2Proof.Machine
end

section
/-! A packet that takes effect as it arrives, opcode by opcode: each line names its row. -/
namespace Sys2Proof.Machine
open Sys2Proof

/-- Settles O57: `exec_takes` at each row of the group. -/
theorem systemPortListenAndGaugeCommandsComplete : Obligations.SystemPortListenAndGaugeCommandsComplete := by
  unfold Obligations.SystemPortListenAndGaugeCommandsComplete
  intro dt c s a ha
  subst ha
  exact ⟨exec_takes (i := .nop dt c) s rfl rfl,
    exec_takes (i := .caps dt c) s rfl rfl,
    exec_takes (i := .abort dt c) s rfl rfl,
    exec_takes (i := .resetUnit dt c) s rfl rfl,
    exec_takes (i := .powerState dt c) s rfl rfl,
    exec_takes (i := .eventMask dt c) s rfl rfl,
    exec_takes (i := .queueConfig dt c) s rfl rfl,
    exec_takes (i := .timeRead dt c) s rfl rfl,
    exec_takes (i := .listenCfg dt c) s rfl rfl,
    exec_takes (i := .modelLoad dt c) s rfl rfl,
    exec_takes (i := .historyRead dt c) s rfl rfl,
    exec_takes (i := .gaugeSeq dt c) s rfl rfl,
    exec_takes (i := .gaugeWindow dt c) s rfl rfl,
    exec_takes (i := .gaugeCal dt c) s rfl rfl,
    exec_takes (i := .gaugeUrgent dt c) s rfl rfl,
    exec_takes (i := .gaugePlaus dt c) s rfl rfl,
    exec_takes (i := .tw1Xfer dt c) s rfl rfl,
    exec_takes (i := .portCfg dt c) s rfl rfl⟩

/-- Settles O58: `exec_takes` at each row of the group. -/
theorem audioPathCommandsComplete : Obligations.AudioPathCommandsComplete := by
  unfold Obligations.AudioPathCommandsComplete
  intro dt c s a ha
  subst ha
  exact ⟨exec_takes (i := .routeSet dt c) s rfl rfl,
    exec_takes (i := .routeGet dt c) s rfl rfl,
    exec_takes (i := .routeFadeCfg dt c) s rfl rfl,
    exec_takes (i := .mixStage dt c) s rfl rfl,
    exec_takes (i := .mixCommit dt c) s rfl rfl,
    exec_takes (i := .busCfg dt c) s rfl rfl,
    exec_takes (i := .limiterCfg dt c) s rfl rfl,
    exec_takes (i := .meterCfg dt c) s rfl rfl,
    exec_takes (i := .meterRead dt c) s rfl rfl,
    exec_takes (i := .meterReset dt c) s rfl rfl,
    exec_takes (i := .ainCfg dt c) s rfl rfl,
    exec_takes (i := .ainPad dt c) s rfl rfl,
    exec_takes (i := .mergeStatus dt c) s rfl rfl,
    exec_takes (i := .chainCfg dt c) s rfl rfl,
    exec_takes (i := .chainSync dt c) s rfl rfl,
    exec_takes (i := .outCfg dt c) s rfl rfl,
    exec_takes (i := .jackCfg dt c) s rfl rfl,
    exec_takes (i := .firkinAlloc dt c) s rfl rfl,
    exec_takes (i := .firkinFree dt c) s rfl rfl,
    exec_takes (i := .delayCfg dt c) s rfl rfl,
    exec_takes (i := .firkinRead dt c) s rfl rfl,
    exec_takes (i := .firkinWrite dt c) s rfl rfl⟩

/-- Settles O59: `exec_takes` at each row of the group. -/
theorem networkTimeAndClockCommandsComplete : Obligations.NetworkTimeAndClockCommandsComplete := by
  unfold Obligations.NetworkTimeAndClockCommandsComplete
  intro dt c s a ha
  subst ha
  exact ⟨exec_takes (i := .netPortCfg dt c) s rfl rfl,
    exec_takes (i := .txstreamCfg dt c) s rfl rfl,
    exec_takes (i := .rxstreamCfg dt c) s rfl rfl,
    exec_takes (i := .hostFrameSend dt c) s rfl rfl,
    exec_takes (i := .ptpCfg dt c) s rfl rfl,
    exec_takes (i := .ttSelect dt c) s rfl rfl,
    exec_takes (i := .timePolicy dt c) s rfl rfl,
    exec_takes (i := .pllCfg dt c) s rfl rfl,
    exec_takes (i := .rampLoad dt c) s rfl rfl,
    exec_takes (i := .ckoCfg dt c) s rfl rfl,
    exec_takes (i := .tdmCfg dt c) s rfl rfl,
    exec_takes (i := .asrcCfg dt c) s rfl rfl⟩

end Sys2Proof.Machine
end

section
/-! System commands that answer as they arrive. -/
namespace Sys2Proof.Machine
open Sys2Proof

/-- Outside Listen nothing is settled for an entry to it. -/
theorem listenSettle_outside {s : State} (h : s.inListen = false) : listenSettle s = s := by
  unfold listenSettle
  simp only [h, Bool.false_eq_true, if_false]

/-- A packet whose opcode is not tied to a frame, and whose effect is to complete it with OK from a state u in which it still
runs alone, is answered from u. -/
theorem exec_accepts_ok {i : Instr} {opc : Nat} {c : Cmd} {s a u : State} {d : OpDef} {data : List Byte}
    (hrow : packetRow i = some (opc, c)) (ha : s.advance i.dt = a) (hacc : a.accepts opc c = true) (hd : opDef opc = some d)
    (htied : d.tied = false)
    (hap : d.apply (a.seq + 1) (a.packet opc c) a.nowNs (a.launched (a.packet opc c)) = u.finishOk (a.seq + 1) data a.nowNs)
    (hflight : u.flight = [a.firstFlight (a.packet opc c)]) (heng : u.eng = a.eng) (hpwr : u.pwr = a.pwr) :
    exec i s = .next (u.answered (a.packet opc c) stOk a.nowNs data) := by
  subst ha
  simp only [State.accepts, Bool.and_eq_true, Bool.not_eq_true', Option.isNone_iff_eq_none] at hacc
  obtain ⟨⟨⟨hwf, hopen⟩, hsched⟩, hchk⟩ := hacc
  have hend := State.firstFlight_ok data (s.advance i.dt).nowNs hflight rfl (by rw [heng]; exact State.opensTo_pendSet hopen)
  have hlisten : (u.finishOk ((s.advance i.dt).seq + 1) data (s.advance i.dt).nowNs).inListen = (s.advance i.dt).inListen := by
    unfold State.inListen; rw [State.finishOk_pwr, hpwr]
  rw [commandTakesEffectAtOnce i opc c s d hrow hwf hopen hd hchk hsched (.inl htied)]
  simp only [hap]
  cases hin : (s.advance i.dt).inListen with
  | true => rw [if_pos rfl, hend]
  | false => rw [if_neg Bool.false_ne_true, listenSettle_outside (hlisten.trans hin), hend]

theorem State.accepts_sched {s : State} {opc : Nat} {c : Cmd} (h : s.accepts opc c = true) : (s.packet opc c).sched = false := by
  simp only [State.accepts, Bool.and_eq_true, Bool.not_eq_true'] at h
  obtain ⟨⟨-, hsched⟩, -⟩ := h
  exact hsched

/-- The port of a command that has just started is its queue's. -/
theorem State.began_flightPort (s : State) (p : Packet) : (s.began p).flightPort (s.seq + 1) = (s.queue p.queue).port := by
  unfold State.flightPort
  rw [State.began_flightOf]

/-- A mask is not part of what is in flight, of the engine or of power. -/
theorem State.setMask_keeps (s : State) (port : Nat) (l : List Nat) :
    (s.setMask port l).flight = s.flight ∧ (s.setMask port l).eng = s.eng ∧ (s.setMask port l).pwr = s.pwr := by
  unfold State.setMask
  repeat' split
  all_goals exact ⟨rfl, rfl, rfl⟩

/-- QUEUE_CONFIG that gives no port an event queue binds the queue, and that is all. -/
theorem queueConfigApply_bind {p : Packet} (id t : Nat) (s : State) (h : p.u8 17 = 0 ∨ p.u8 18 ≠ 3) : queueConfigApply id p t s =
    (s.setQueue (p.u8 16) { s.queue (p.u8 16) with port := p.u8 17, cls := QClass.ofCode (p.u8 18) }).finishOk id [] t := by
  unfold queueConfigApply
  dsimp only
  rw [if_neg (by omega)]

/-- TIME_READ of a command that is not scheduled reads the present instant. -/
theorem timeReadApply_now {p : Packet} (id t : Nat) (s : State) (h : p.sched = false) : timeReadApply id p t s =
    s.finishOk id (le 6 (s.tm.devT / secT) ++ le 2 0 ++ le 4 (s.tm.devT % secT / 65536) ++ le 2 (s.tm.devT % 65536) ++ le 2 0 ++
      le 8 s.tm.frame ++ le 8 s.tm.frameT ++ le 4 s.tm.rate ++ le 1 s.ttActive ++ le 1 s.tstat ++ le 2 0) t := by
  unfold timeReadApply
  simp only [h, Bool.false_and, Bool.false_eq_true, if_false]

/-- Settles O38: what each opcode completes with, and from which state. -/
theorem systemCommandsAnswer : Obligations.SystemCommandsAnswer := by
  unfold Obligations.SystemCommandsAnswer
  intro dt c s a ha p b
  refine ⟨fun h => ?_, fun h => ?_, fun h => ?_, fun h hbind => ?_, fun h => ?_⟩
  · exact exec_accepts_ok (i := .nop dt c) rfl ha h rfl rfl rfl rfl rfl rfl
  · exact exec_accepts_ok (i := .caps dt c) rfl ha h rfl rfl rfl rfl rfl rfl
  · have hport : (b 6).flightPort (a.seq + 1) = (a.queue c.queue).port := State.began_flightPort a (p 6)
    obtain ⟨hflight, heng, hpwr⟩ := State.setMask_keeps (b 6) (a.queue c.queue).port
      (maskRun (a.evMask (a.queue c.queue).port) ((p 6).u16 16) ((p 6).u8 18) (decide ((p 6).u8 19 = 1)))
    refine exec_accepts_ok (i := .eventMask dt c) rfl ha h rfl rfl ?_ hflight heng hpwr
    show eventMaskApply (a.seq + 1) (p 6) a.nowNs (b 6) = _
    unfold eventMaskApply
    rw [hport]
    rfl
  · exact exec_accepts_ok (i := .queueConfig dt c) rfl ha h rfl rfl (queueConfigApply_bind _ _ (b 7) hbind) rfl rfl rfl
  · exact exec_accepts_ok (i := .timeRead dt c) rfl ha h rfl rfl (timeReadApply_now _ _ (b 8) (State.accepts_sched h)) rfl rfl rfl

end Sys2Proof.Machine
end

section
/-! The entry to Hibernate, step by step. -/
namespace Sys2Proof.Machine
open Sys2Proof

/-- A request for Hibernate that takes effect outside Run drops an open candidate and begins step 1. -/
theorem hibStart_outside_run {s : State} (t : PTrans) (h : s.inRun = false) : hibStart t s = { s with
    ls := if s.ls.cand then { s.ls with cand := false, candLow := none, drop := satInc 31 s.ls.drop } else s.ls,
    pwr := { s.pwr with deferral := none, trans := some { t with
      step := 1, at0 := s.clk, deferMs := min 2000 ((s.clk - t.at0) / 1000000) } } } := by
  have hrun : s.pwr.pstate ≠ .run := of_decide_eq_false h
  unfold hibStart candDrop
  cases s.ls.cand <;> simp [State.inRun, hrun]

theorem deferExpireStep_early {s : State} {t : PTrans} (h : s.pwr.deferral = some t) (hclk : s.clk < t.at0 + 2000000000) :
    deferExpireStep s = s := by
  unfold deferExpireStep
  simp only [h, if_neg (Nat.not_le_of_lt hclk)]

theorem deferExpireStep_due {s : State} {t : PTrans} (h : s.pwr.deferral = some t) (hclk : t.at0 + 2000000000 ≤ s.clk) :
    deferExpireStep s = hibStart t s := by
  unfold deferExpireStep
  simp only [h, if_pos hclk]

section
variable {s : State} {t : PTrans} (htrans : s.pwr.trans = some t) (htarget : t.target = .hibernate)
include htrans htarget

/-- Step 1 ends when the outputs are off or 402 ms have passed: every other command ends, and the request completes. -/
theorem hibernateEntry_step1_ends {id : Nat} (hstep : t.step = 1) (hend : s.outsOff = true ∨ t.at0 + 402000000 ≤ s.clk)
    (hjob : t.job = some id) : hibernateEntry s =
      ({ abortAll (some id) s with
          pwr := { (abortAll (some id) s).pwr with trans := some { t with step := 2, at0 := s.clk } } } : State).finishOk
        id (le 1 t.old.code ++ le 1 1 ++ le 2 t.deferMs) (abortAll (some id) s).nowNs := by
  unfold hibernateEntry
  simp only [htrans, htarget, hstep, hjob, ne_eq, not_true_eq_false, if_false, if_true, if_pos hend]
  generalize abortAll (some id) s = u
  rfl

theorem hibernateEntry_step1_runs (hstep : t.step = 1) (hon : s.outsOff = false) (hclk : s.clk < t.at0 + 402000000) :
    hibernateEntry s = s := by
  have hnot : ¬ (s.outsOff = true ∨ t.at0 + 402000000 ≤ s.clk) := by simp [hon, hclk]
  unfold hibernateEntry
  simp only [htrans, htarget, hstep, ne_eq, not_true_eq_false, if_false, if_true, if_neg hnot]

theorem hibernateEntry_step2 (hstep : t.step = 2) : hibernateEntry s =
    if t.at0 + 500000 ≤ s.clk then { s with pwr := { s.pwr with trans := some { t with step := 3 } } } else s := by
  unfold hibernateEntry
  simp only [htrans, htarget, hstep, ne_eq, not_true_eq_false, if_false, if_true, Nat.reduceEqDiff]

theorem hibernateEntry_step3 (hstep : t.step = 3) (hclk : t.at0 + 1000000 ≤ s.clk) : hibernateEntry s = hibernated s := by
  unfold hibernateEntry
  simp only [htrans, htarget, hstep, ne_eq, not_true_eq_false, if_false, Nat.reduceEqDiff, if_pos hclk]

end

/-- In Hibernate no command is in flight. -/
theorem hibernated_inv (s : State) : (hibernated s).Inv :=
  fun _ hf => absurd hf List.not_mem_nil

/-- Settles O31: a row at each step, before and after its time. -/
theorem hibernateIsEnteredInSteps : Obligations.HibernateIsEnteredInSteps := by
  unfold Obligations.HibernateIsEnteredInSteps
  refine ⟨fun dt s a t ha hdefer => ⟨fun hclk => ?_, fun hclk hrun => ?_⟩, fun dt id s a t ha htrans htarget => ?_⟩
  · rw [exec_of_run (exec_hibernateDeferralExpire dt s) rfl ha, deferExpireStep_early hdefer hclk]
  · rw [exec_of_run (exec_hibernateDeferralExpire dt s) rfl ha, deferExpireStep_due hdefer hclk, hibStart_outside_run t hrun]
  · rw [exec_of_run (exec_hibernateEntryStep dt s) rfl ha]
    refine ⟨fun hstep hend hjob => ?_, fun hstep hon hclk => ?_, fun hstep => ?_, fun hstep hclk => ⟨hibernated a, ?_, ?_⟩⟩
    · rw [hibernateEntry_step1_ends htrans htarget hstep hend hjob]
    · rw [hibernateEntry_step1_runs htrans htarget hstep hon hclk]
    · rw [hibernateEntry_step2 htrans htarget hstep]
    · rw [hibernateEntry_step3 htrans htarget hstep hclk, State.flush_none _ (hibernated_inv a)]
    · exact ⟨rfl, rfl, rfl, rfl, rfl, rfl, rfl, rfl, rfl, rfl, rfl, rfl, rfl, rfl, rfl⟩

end Sys2Proof.Machine
end

section
/-! Records that wait, resets that end, and events. -/
namespace Sys2Proof.Machine
open Sys2Proof

/-- CQ_RECORD_WRITE on a queue of QSPI or TW0: a record that has no room waits on. -/
theorem cqRecordStep_full {s : State} {q : Nat} {r : Rec} {rest : List Rec} (hwait : (s.queue q).waitRecs = r :: rest)
    (hport : (s.queue q).port ≠ 2) (hfits : s.recFits q r = false) : cqRecordStep q s = s := by
  unfold cqRecordStep
  simp only [hwait, if_neg hport, State.recFits_setWaitRecs, hfits, Bool.false_eq_true, if_false]

theorem cqRecordStep_none {s : State} {q : Nat} (hwait : (s.queue q).waitRecs = []) : cqRecordStep q s = s := by
  unfold cqRecordStep
  simp only [hwait]

theorem resetUnitDoneStep_none {s : State} (h : s.rsts = []) : resetUnitDoneStep s = s := by
  unfold resetUnitDoneStep
  rw [h]; rfl

/-- FJARORD_EVENT_SEND sends nothing where Fjarord has no event queue, or no event waits on it. -/
theorem fjEventStep_noQueue {s : State} (h : s.eventQueue 2 = none) : fjEventStep s = s := by
  unfold fjEventStep
  rw [h]

theorem fjEventStep_noEvent {s : State} {q : Nat} (h : s.eventQueue 2 = some q) (hwait : (s.queue q).waitRecs = []) :
    fjEventStep s = s := by
  unfold fjEventStep
  rw [h]
  cases s.fjEventPort with
  | none => rfl
  | some p => simp only [hwait]

/-- Settles O40, a row at a time. -/
theorem recordsFollowTheirRoom : Obligations.RecordsFollowTheirRoom := by
  unfold Obligations.RecordsFollowTheirRoom
  intro dt q slot s a ha hq hslot
  refine ⟨fun r rest hwait hport => ?_, fun hwait => ?_, fun r rest hrsts hready => ?_, fun hrsts => ?_, ?_, fun hqueue => ?_,
    fun e hqueue hwait => ?_⟩
  · rw [exec_of_run (exec_cqRecordWrite dt q s) (decide_eq_true hq) ha]
    cases hfits : a.recFits q r with
    | true => rw [cqRecordStep_fits hwait hport hfits, if_pos rfl]
    | false => rw [cqRecordStep_full hwait hport hfits, if_neg Bool.false_ne_true]
  · rw [exec_of_run (exec_cqRecordWrite dt q s) (decide_eq_true hq) ha, cqRecordStep_none hwait]
  · rw [exec_of_run (exec_resetUnitDone dt s) rfl ha, resetUnitDoneStep_first hrsts hready]
  · rw [exec_of_run (exec_resetUnitDone dt s) rfl ha, resetUnitDoneStep_none hrsts]
  · rw [exec_of_run (exec_hostSlotRelease dt slot s) (decide_eq_true hslot) ha, hostSlotReleaseStep]
  · rw [exec_of_run (exec_fjarordEventSend dt s) rfl ha, fjEventStep_noQueue hqueue]
  · rw [exec_of_run (exec_fjarordEventSend dt s) rfl ha, fjEventStep_noEvent hqueue hwait]

theorem State.raiseOn_masked {s : State} {port code : Nat} (data : List Byte) (done : Nat)
    (h : (s.evMask port).contains code = true) : s.raiseOn port code data done = s := by
  unfold State.raiseOn
  rw [if_pos h]

section
variable {s t : State} {port code : Nat} (data : List Byte) (done : Nat) (ht : t = s.flushLost port)
  (hmask : (s.evMask port).contains code = false)
include ht hmask

/-- An event that is not masked off is dropped and counted on a port without an event queue. -/
theorem State.raiseOn_noQueue (h : t.eventQueue port = none) :
    s.raiseOn port code data done = t.setDrop port (min 0xFFFF (t.evDrop port + 1)) := by
  unfold State.raiseOn
  simp only [hmask, Bool.false_eq_true, if_false, ← ht, h]

/-- With an event queue it is placed while the queue holds fewer than 63 records, else dropped and counted. -/
theorem State.raiseOn_queue {q : Nat} (h : t.eventQueue port = some q) : s.raiseOn port code data done =
    if t.evHeld q < 63 then t.postRec q { tag := 0xFFFF, status := 0x4000 + code, queue := q, doneNs := done, data := data }
    else t.setDrop port (min 0xFFFF (t.evDrop port + 1)) := by
  unfold State.raiseOn
  simp only [hmask, Bool.false_eq_true, if_false, ← ht, h]

end

theorem State.flushLost_queue {s : State} {port q : Nat} (h : s.eventQueue port = some q) : s.flushLost port =
    if 0 < s.evDrop port ∧ s.evHeld q < 63 then
      (s.postRec q { tag := 0xFFFF, status := 0x4001, queue := q, doneNs := s.nowNs,
                     data := le 2 (s.evDrop port) ++ le 2 0 }).setDrop port 0
    else s := by
  unfold State.flushLost
  simp only [h]
  rfl

/-- Settles O41: masked, without a queue, with a full one and with room; then EVENT_LOST. -/
theorem eventsArePlacedOrCounted : Obligations.EventsArePlacedOrCounted := by
  unfold Obligations.EventsArePlacedOrCounted
  intro port code done data s
  refine ⟨State.raiseOn_masked data done, fun t ht hmask => ⟨State.raiseOn_noQueue data done ht hmask, fun q hq hfull => ?_,
    fun q hq hroom => ?_⟩, fun dt q a ha hlo hhi hq => ?_⟩
  · rw [State.raiseOn_queue data done ht hmask hq, if_neg (Nat.not_lt_of_le hfull)]
  · rw [State.raiseOn_queue data done ht hmask hq, if_pos hroom]
  · have hwf : (Instr.eventLost dt port).wf = true := by simp [Instr.wf, hlo, hhi]
    rw [exec_of_run (exec_eventLost dt port s) hwf ha, State.flushLost_queue hq]

end Sys2Proof.Machine
end

section
/-! The trackers: their messages, timeouts and selection. -/
namespace Sys2Proof.Machine
open Sys2Proof

theorem delayReqStep_disabled {t : Nat} {s : State} (h : (s.tt t).en = false) : delayReqStep t s = s := by
  unfold delayReqStep
  simp only [h, Bool.false_and, Bool.not_false, if_true]

section
variable {t : Nat} {s : State} {k : Tracker} (hk : s.tt t = k)
include hk

/-- A locked follower whose request is due asks for its delay, and keeps the time it asked at. -/
theorem delayReqStep_due (hen : k.en = true) (hst : k.st = .locked) (hlead : k.lead.isSome = true)
    (hdue : k.dreqAt + logNs (k.dreqLog.getD k.logDreq) ≤ s.clk) (hup : s.portUp (s.ttPort t) = true) {b : State}
    (hb : b = s.setTt t { k with dreqSeq := (k.dreqSeq + 1) % 65536, dreqAt := s.clk, dreq := satInc 31 k.dreq,
                                 t3 := some (s.localT t + k.phyTx * 65536) }) :
    delayReqStep t s = b.ptpSend t true (ptpMsg b t 1 0 0 ((k.dreqSeq + 1) % 65536) 1 127 (be 10 0)) := by
  unfold delayReqStep
  simp only [hk, hen, hst, hlead, hdue, hup, decide_true, Bool.or_true, Bool.and_self, Bool.not_true, Bool.false_eq_true, if_false, hb]

theorem leaderSendStep_other (hst : k.st ≠ .leader) (sync : Bool) : leaderSendStep t sync s = s := by
  unfold leaderSendStep
  simp only [hk, if_pos hst]

/-- A leader whose Sync is due sends it, one-step, with the time at which it leaves. -/
theorem leaderSendStep_sync (hst : k.st = .leader) (hdue : k.syncSentAt + logNs k.logSync ≤ s.clk) {b : State}
    (hb : b = s.setTt t { k with sSeq := (k.sSeq + 1) % 65536, syncSentAt := s.clk }) :
    leaderSendStep t true s = b.ptpSend t true (ptpMsg b t 0 0 ((s.tm.devT + k.phyTx * 65536 : Int) % 65536) k.sSeq 0 k.logSync
      (stamp10 (s.tm.devT + k.phyTx * 65536))) := by
  unfold leaderSendStep
  simp only [hk, hst, ne_eq, not_true_eq_false, if_false, if_true, if_neg (Nat.not_lt_of_le hdue), hb]

/-- A locked tracker loses its leader where no Announce, or no Sync, has come in time. -/
theorem announceTimeoutStep_locked {l : PtpLeader} (hst : k.st = .locked) (hlead : k.lead = some l) :
    announceTimeoutStep t s =
      if l.annAt + k.annTo * logNs l.logAnn ≤ s.clk ∨ l.syncAt + 16 * logNs l.logSync ≤ s.clk then s.leadLost t else s := by
  unfold announceTimeoutStep
  simp only [hk, hst, hlead, or_true, if_true]

/-- With no other leader to follow, one that is lost leaves the tracker in holdover. -/
theorem State.leadLost_alone (h : bestOf (k.qualified s.clk) = none ∨ k.lead = none) : s.leadLost t = s.ttTo t .holdover := by
  unfold State.leadLost
  rw [hk]
  rcases h with h | h
  · rw [h]
  · rw [h]
    cases bestOf (k.qualified s.clk) <;> rfl

end

/-- While frames run a switch waits for the next boundary. -/
theorem State.switchAt_frames {s : State} (h : (s.framing && s.tm.frameRun && s.tm.begun) = true) (t c : Nat) :
    s.switchAt t c = { s with tm := { s.tm with switchWait := some (t, c) } } := by
  unfold State.switchAt
  rw [h, Bool.true_or, if_pos rfl]

/-- An event is not part of time or power. -/
theorem EventsOnly.tm_pwr {s t : State} (h : EventsOnly s t) : t.tm = s.tm ∧ t.pwr = s.pwr := by
  obtain ⟨_, _, _, _, _, _, _, rfl⟩ := h; exact ⟨rfl, rfl⟩

theorem EventsOnly.readers {s t : State} (h : EventsOnly s t) : t.readers = s.readers := by
  obtain ⟨_, _, _, _, _, _, _, rfl⟩ := h; rfl

/-- A tracker's change of state, and the checks that make one, leave device time, frames and power alone. -/
theorem State.ttTo_keeps (s : State) (t : Nat) (st : TtSt) : (s.ttTo t st).tm = s.tm ∧ (s.ttTo t st).pwr = s.pwr := by
  have hset : ∀ v, (s.setTt t v).tm = s.tm ∧ (s.setTt t v).pwr = s.pwr := by
    intro v; unfold State.setTt; split <;> exact ⟨rfl, rfl⟩
  unfold State.ttTo
  extract_lets k k1 hold avg k2
  split
  · exact ⟨rfl, rfl⟩
  · obtain ⟨htm, hpwr⟩ := (EventsOnly.raise (s.setTt t k2) 0x801
      (le 1 t ++ le 1 st.code ++ le 1 k.st.code ++ le 1 0 ++ le 4 s.frame32)).tm_pwr
    exact ⟨htm.trans (hset k2).1, hpwr.trans (hset k2).2⟩

theorem ttCheck_keeps (t : Nat) (s : State) : (ttCheck t s).tm = s.tm ∧ (ttCheck t s).pwr = s.pwr := by
  unfold ttCheck
  dsimp only
  split
  · exact ⟨rfl, rfl⟩
  · split
    · exact s.ttTo_keeps _ _
    · split
      · exact s.ttTo_keeps _ _
      · exact ⟨rfl, rfl⟩

theorem ttChecks_keeps (s : State) : (ttChecks s).tm = s.tm ∧ (ttChecks s).pwr = s.pwr :=
  ⟨(ttCheck_keeps 1 _).1.trans (ttCheck_keeps 0 s).1, (ttCheck_keeps 1 _).2.trans (ttCheck_keeps 0 s).2⟩

/-- A look at the media PLLs leaves device time, frames and power alone. -/
theorem State.pllHist_keeps (s : State) : s.pllHist.tm = s.tm ∧ s.pllHist.pwr = s.pwr := ⟨rfl, rfl⟩

/-- Whether boundaries come depends on device time's frames and on power only. -/
theorem State.framesRun_of_same {s t : State} (htm : t.tm = s.tm) (hpwr : t.pwr = s.pwr) : t.framesRun = s.framesRun := by
  unfold State.framesRun State.framing State.alive
  rw [htm, hpwr]

/-- While frames run the 10 ms evaluation measures D and makes no switch. -/
theorem evalMeasure_frames {s : State} (h : s.framesRun = true) : evalMeasure s = { (ttChecks s).pllHist with
    tm := { (ttChecks s).pllHist.tm with dMeas := (ttChecks s).pllHist.dDiff } } := by
  obtain ⟨htm, hpwr⟩ := ttChecks_keeps s
  obtain ⟨htm', hpwr'⟩ := State.pllHist_keeps (ttChecks s)
  have hframes := (State.framesRun_of_same (htm'.trans htm) (hpwr'.trans hpwr)).trans h
  unfold evalMeasure
  generalize (ttChecks s).pllHist = u at hframes
  exact if_pos hframes

section
variable {s e : State} (he : evalMeasure s = e)
include he

/-- With no selection, or a switch that waits, the evaluation selects nothing. -/
theorem trackerEvalStep_keeps (h : e.tm.mode = 0 ∨ e.tm.switchWait.isSome = true) : trackerEvalStep s = e := by
  unfold trackerEvalStep
  rw [he]
  rcases h with h | h
  · simp [h]
  · simp [h]

variable (halive : e.alive = true) (hwait : e.tm.switchWait = none)
include halive hwait

/-- The automatic selection takes the preferred tracker where none is active and it qualifies. -/
theorem trackerEvalStep_auto (hmode : e.tm.mode = 2) (hactive : e.tm.active = none) (hpref : e.qualifies e.tm.pref none = true) :
    trackerEvalStep s = e.switchAt e.tm.pref 4 := by
  unfold trackerEvalStep
  simp [he, halive, hwait, hmode, hactive, hpref]

/-- The manual selection takes the preferred tracker whenever it may be active. -/
theorem trackerEvalStep_manual (hmode : e.tm.mode = 1) (hactive : e.tm.active ≠ some e.tm.pref)
    (hest : (e.tt e.tm.pref).est.isSome = true) (hleads : (e.tt e.tm.pref).leads = false) :
    trackerEvalStep s = e.switchAt e.tm.pref 0 := by
  unfold trackerEvalStep
  simp [he, halive, hwait, hmode, hactive, hest, hleads]

end

end Sys2Proof.Machine
end

section
/-! Steps of device time. -/
namespace Sys2Proof.Machine
open Sys2Proof

/-- Commands that end are not part of device time, nor of the readers. -/
theorem finishAll_keeps (l : List Nat) (data : List Byte) (done : Nat) (s : State) :
    (forEach l (fun id a => a.finishOk id data done) s).tm = s.tm ∧
    (forEach l (fun id a => a.finishOk id data done) s).readers = s.readers := by
  constructor
  · exact forEach_keeps State.tm _ (fun id a => State.finishOk_tm a id data done) l s
  · exact forEach_keeps State.readers (fun id a => a.finishOk id data done) (fun _ _ => rfl) l s

theorem stepApplyFrame_none {s : State} (h : s.tm.step = none) : stepApplyFrame s = s := by
  unfold stepApplyFrame
  rw [h]; rfl

/-- While frames run no step is made before its frames have passed. -/
theorem stepApplyFrame_early {s : State} (hframing : s.framing = true) (hdue : s.stepDue = false) : stepApplyFrame s = s := by
  unfold stepApplyFrame
  simp only [hframing, hdue, Bool.not_false, Bool.and_self, Bool.or_true, if_true]

/-- What device time reads after a step: what was loaded, an initial step's tracker, or e further on. -/
def stepTarget (s : State) (x : TStep) : Int :=
  match x.load with
  | some v => v
  | none => if x.cause = 1 then (match s.tm.active with
      | some t => s.tm.jumpHeld.foldl (fun a j => a - j.1) ((s.tt t).est.getD s.tm.devT)
      | none => s.tm.devT) else s.tm.devT + x.e

theorem stepTarget_load {x : TStep} {v : Nat} (s : State) (h : x.load = some v) : (stepTarget s x).toNat = v := by
  unfold stepTarget
  rw [h]; rfl

theorem stepTarget_move {x : TStep} (s : State) (hload : x.load = none) (hcause : x.cause = 0) :
    stepTarget s x = s.tm.devT + x.e := by
  unfold stepTarget
  simp only [hload, hcause, Nat.zero_ne_one, if_false]

section
variable {s : State} {x : TStep} (hstep : s.tm.step = some x) (hleft : x.left = 0)
include hstep hleft

theorem stepDue_of_left : (s.tm.step.isNone || (s.framing && !s.stepDue)) = false := by
  cases hframing : s.framing <;> simp [State.stepDue, hstep, hleft, hframing]

section
variable {c : State}
  (hc : pllAfterStep (((stepApplyStep s).nowNs : Int) - s.nowNs) (gaugeSkip s.nowNs (stepApplyStep s).nowNs (stepApplyStep s)) = c)
include hc

/-- A step whose frames have passed is made; with no set pending that is all. -/
theorem stepApplyFrame_idle (hpend : c.eng.pendSet = none) : stepApplyFrame s = c := by
  unfold stepApplyFrame
  simp only [stepDue_of_left hstep hleft, Bool.false_eq_true, if_false, hc, hpend]

/-- With one pending, the commands of its frame are listed anew, and the frame opens (R72, R369). -/
theorem stepApplyFrame_pending {e : Nat × InputSet} (hpend : c.eng.pendSet = some e) :
    stepApplyFrame s = frameOpen { c with eng := { c.eng with applyQ := c.frameCmds e.1 } } := by
  unfold stepApplyFrame
  simp only [stepDue_of_left hstep hleft, Bool.false_eq_true, if_false, hc]
  rw [hpend]

end

/-- With no jump held, a step that is made is gone and counted; device time reads its target and the readers are dropped. -/
theorem stepApplyStep_made (hheld : s.tm.jumpHeld = []) {b : State} (hb : stepApplyStep s = b) :
    b.tm.step = none ∧ b.tm.stepCnt = satInc 31 s.tm.stepCnt ∧ b.tm.frame = s.tm.frame ∧ b.readers = [] ∧
      b.tm.devT = (stepTarget s x).toNat % wrapT := by
  have hdue : ¬ (x.left ≠ 0 ∧ s.framing = true) := fun h => h.1 hleft
  unfold stepApplyStep at hb
  rw [hstep] at hb
  replace hb := (if_neg hdue).symm.trans hb
  extract_lets m target e fresh ft eng moved tm media raised ended at hb
  have hended : ended = b := by
    have hnone : m.jumpHeld = [] := hheld
    rw [hnone] at hb
    cases hactive : m.active <;> rw [hactive] at hb <;> exact hb
  have hmedia : media.tm.step = none ∧ media.tm.stepCnt = satInc 31 s.tm.stepCnt ∧ media.tm.frame = s.tm.frame ∧
      media.readers = [] ∧ media.tm.devT = (stepTarget s x).toNat % wrapT := by
    simp only [media]
    split <;> exact ⟨rfl, rfl, rfl, rfl, rfl⟩
  have hraised : EventsOnly media raised := .raiseAt _ _ _ _
  obtain ⟨htm, hreaders⟩ := finishAll_keeps x.jobs (policyData raised) (if s.framing then ft else raised.nowNs) raised
  replace htm : ended.tm = media.tm := htm.trans hraised.tm_pwr.1
  replace hreaders : ended.readers = media.readers := hreaders.trans hraised.readers
  rw [← hended, htm, hreaders]
  exact hmedia

end

/-- Settles O52: the rows of one tracker, the evaluation, then slews and steps. -/
theorem trackersKeepTime : Obligations.TrackersKeepTime := by
  unfold Obligations.TrackersKeepTime
  intro dt t s a ha ht
  have hwf : decide (t < 2) = true := decide_eq_true ht
  refine ⟨?tracker, ?eval, fun c hframes => State.switchAt_frames hframes t c, ?_, fun hstep => ?_, fun hframing hdue => ?_,
    fun x hstep hleft => ?made⟩
  case tracker =>
    intro k
    have hk : a.tt t = k := rfl
    clear_value k
    refine ⟨fun hen => ?_, fun hen hst hlead hdue hup => ⟨_, rfl, ?_⟩, fun hst sync => ?_, fun hst hdue => ⟨_, rfl, ?_⟩,
      fun l hst hlead => ?_, fun _ hnone => State.leadLost_alone hk hnone, ?_⟩
    · rw [exec_of_run (exec_ptpDelayReqSend dt t s) hwf ha, delayReqStep_disabled (hk ▸ hen)]
    · rw [exec_of_run (exec_ptpDelayReqSend dt t s) hwf ha, delayReqStep_due hk hen hst hlead hdue hup rfl]
    · rw [exec_of_run (exec_leaderAnnounceSync dt t sync s) hwf ha, leaderSendStep_other hk hst]
    · rw [exec_of_run (exec_leaderAnnounceSync dt t true s) hwf ha, leaderSendStep_sync hk hst hdue rfl]
    · rw [exec_of_run (exec_announceTimeout dt t s) hwf ha, announceTimeoutStep_locked hk hst hlead]
    · rw [exec_of_run (exec_followerForget dt t s) hwf ha, followerForgetStep, hk]
  case eval =>
    intro e
    have he : evalMeasure a = e := rfl
    refine ⟨fun hkeep => ?_, fun halive hwait hmode hactive hpref => ?_, fun halive hwait hmode hactive hest hleads => ?_,
      fun hframes => evalMeasure_frames hframes⟩
    · rw [exec_of_run (exec_trackerEval dt s) rfl ha, trackerEvalStep_keeps he hkeep]
    · rw [exec_of_run (exec_trackerEval dt s) rfl ha, trackerEvalStep_auto he halive hwait hmode hactive hpref]
    · rw [exec_of_run (exec_trackerEval dt s) rfl ha, trackerEvalStep_manual he halive hwait hmode hactive hest hleads]
  · rw [exec_of_run (exec_slewEnd dt s) rfl ha, slewEndStep]
  · rw [exec_of_run (exec_stepApply dt s) rfl ha, stepApplyFrame_none hstep]
  · rw [exec_of_run (exec_stepApply dt s) rfl ha, stepApplyFrame_early hframing hdue]
  case made =>
    intro b c
    refine ⟨fun hpend => ?_, fun e hpend => ?_, fun hheld => ?_⟩
    · rw [exec_of_run (exec_stepApply dt s) rfl ha, stepApplyFrame_idle hstep hleft rfl hpend]
    · rw [exec_of_run (exec_stepApply dt s) rfl ha, stepApplyFrame_pending hstep hleft rfl hpend]
    · obtain ⟨hgone, hcnt, hframe, hreaders, hdev⟩ := stepApplyStep_made hstep hleft hheld (b := b) rfl
      refine ⟨hgone, hcnt, hframe, hreaders, fun v hload => ?_, fun hload hcause => ?_⟩
      · rw [hdev, stepTarget_load a hload]
      · rw [hdev, stepTarget_move a hload hcause]

end Sys2Proof.Machine
end

section
/-! The analogue inputs: stepped pad changes, power, settling and the blocks of calibration. -/
namespace Sys2Proof.Machine
open Sys2Proof

/-- A search whose window has ended begins its steps now, none made yet; one whose window runs goes on (R119). -/
theorem padSteppedStartStep_searching {ch : Nat} {s : State} {j : PadJob} (hjob : (s.ain ch).padJob = some j)
    (hsearch : j.stepping = none) :
    padSteppedStartStep ch s = if j.until0 ≤ 8 * s.tm.frame then
      s.setAin ch { s.ain ch with padJob := some { j with stepping := some (s.clk, 0) } } else s := by
  unfold padSteppedStartStep
  simp only [hjob, hsearch, true_and]

/-- Steps that began 1 ms ago are all made: the pad takes its target and the change ends as a stepped one (R119, R127). -/
theorem padChangeDoneStep_stepping {ch t0 n : Nat} {s : State} {j : PadJob} (hjob : (s.padNow ch).padJob = some j)
    (hsteps : j.stepping = some (t0, n)) :
    padChangeDoneStep ch s = if t0 + 1000000 ≤ s.clk then
      (s.setAin ch ((s.padNow ch).padGo j.target)).padEnd j.job ch s.tm.frameT 1 else s := by
  unfold padChangeDoneStep
  simp only [hjob, hsteps]

/-- In Run an enabled front-end without power gets it, with a synchronising reset at the next frame (R123, R139). -/
theorem frontEndPoweredStep_cold {ch : Nat} {s : State} (hrun : s.inRun = true) (hch : ch < s.nAin)
    (hen : (s.ain ch).en = true) (hcold : (s.ain ch).powered = false) :
    frontEndPoweredStep ch s =
      ((s.setAin ch (({ s.ain ch with powered := true } : Ain).sync s.nextFrame)).pairHot ch 0).pairHot ch 1 := by
  have hdue : (!(s.inRun && decide (ch < s.nAin) && (s.ain ch).en && !(s.ain ch).powered)) = false := by
    simp only [hrun, decide_eq_true hch, hen, hcold, Bool.not_false, Bool.and_self, Bool.not_true]
  unfold frontEndPoweredStep
  simp only [hdue, Bool.false_eq_true, if_false]

/-- A powered channel that settles delivers from its first valid frame on (R141). -/
theorem settleEndStep_settling {ch : Nat} {s : State} (hpower : (s.ain ch).powered = true)
    (hsettle : (s.ain ch).settling = true) :
    settleEndStep ch s =
      if (s.ain ch).firstValid ≤ s.nextFrame then s.setAin ch { s.ain ch with settling := false } else s := by
  unfold settleEndStep
  simp only [hpower, hsettle, Bool.and_self, Bool.true_and, decide_eq_true_eq]

section
variable {ch k : Nat} {tjC : Int} {s : State} {p : Pair} (hp : (s.ain ch).pair k = p) {e : Nat} (he : p.at0 + msInter s.tm.rate = e)
include hp he

/-- Outside Run, without power, or before a pair's 1 ms of instants is gathered, there is no block (R106). -/
theorem mergeCalBlockStep_none (h : s.inRun = false ∨ (s.ain ch).powered = false ∨ (s.ain ch).k < e) :
    mergeCalBlockStep ch k tjC s = s := by
  have hskip : (!s.inRun || !(s.ain ch).powered || decide ((s.ain ch).k < e)) = true := by
    rcases h with hrun | hpower | hearly
    · simp only [hrun, Bool.not_false, Bool.true_or]
    · simp only [hpower, Bool.not_false, Bool.or_true, Bool.true_or]
    · simp only [decide_eq_true hearly, Bool.or_true]
  unfold mergeCalBlockStep
  simp only [hp, he, hskip, if_true]

/-- In Run, with power and the 1 ms gathered, the block is due: a frozen pair only moves on to its next one, any other takes it
in and then the state that R108 gives (R106). -/
theorem mergeCalBlockStep_due (hrun : s.inRun = true) (hpower : (s.ain ch).powered = true) (hfull : e ≤ (s.ain ch).k) :
    mergeCalBlockStep ch k tjC s =
    if p.st = .frozen then s.setAin ch ((s.ain ch).setPair k { p with at0 := e })
    else
      let q := { p.block (s.ain ch) ch s.tm.rate k ((s.ain ch).cal.filter fun x => decide (p.at0 ≤ x.k) && decide (x.k < e)) tjC with
        at0 := e }
      (s.setAin ch ((s.ain ch).setPair k q)).pairTo ch k (q.next tjC p.lastTemp) := by
  have hdue : (!s.inRun || !(s.ain ch).powered || decide ((s.ain ch).k < e)) = false := by
    simp only [hrun, hpower, decide_eq_false (Nat.not_lt_of_le hfull), Bool.not_true, Bool.or_self]
  unfold mergeCalBlockStep
  simp only [hp, he, hdue, Bool.false_eq_true, if_false]

end

/-- Settles O49: the pad's two rows, power and settling, then the blocks of calibration. -/
theorem frontEndsSettleAndCalibrate : Obligations.FrontEndsSettleAndCalibrate := by
  unfold Obligations.FrontEndsSettleAndCalibrate
  intro dt ch pair tjC s a ha hch hpair
  have hwf : decide (ch < 32) = true := decide_eq_true hch
  refine ⟨fun j hjob hsearch => ?_, fun j t0 n hjob hsteps => ?_, fun hrun hain hen hcold => ?_, fun hpower hsettle => ?_, ?blocks⟩
  · rw [exec_of_run (exec_padSteppedStart dt ch s) hwf ha, padSteppedStartStep_searching hjob hsearch]
  · rw [exec_of_run (exec_padChangeDone dt ch s) hwf ha, padChangeDoneStep_stepping hjob hsteps]
  · rw [exec_of_run (exec_frontEndPowered dt ch s) hwf ha, frontEndPoweredStep_cold hrun hain hen hcold]
  · rw [exec_of_run (exec_settleEnd dt ch s) hwf ha, settleEndStep_settling hpower hsettle]
  case blocks =>
    intro p e
    have hrow : exec (.mergeCalBlock dt ch pair tjC) s = .next (mergeCalBlockStep ch pair tjC a).flush :=
      exec_of_run (exec_mergeCalBlock dt ch pair tjC s) (Bool.and_eq_true_iff.mpr ⟨hwf, decide_eq_true hpair⟩) ha
    refine ⟨fun hnone => ?_, fun hrun hpower hfull hfrozen => ?_, fun hrun hpower hfull hfrozen => ?_⟩
    · rw [hrow, mergeCalBlockStep_none (p := p) rfl rfl hnone]
    · rw [hrow, mergeCalBlockStep_due (p := p) rfl rfl hrun hpower hfull, if_pos hfrozen]
    · rw [hrow, mergeCalBlockStep_due (p := p) rfl rfl hrun hpower hfull, if_neg hfrozen]

end Sys2Proof.Machine
end

section
/-! Routes: how a request begins on a free destination, how a transition ends, and when the jobs of the mix are over. -/
namespace Sys2Proof.Machine
open Sys2Proof

/-- The account of a command is no route. -/
theorem State.route_jobBegun (s : State) (id fr t : Nat) (zf : Bool) (k : Nat) : (s.jobBegun id fr t zf).route k = s.route k := by
  unfold State.route
  rw [(job_frames id fr t zf s).1]

theorem State.route_jobSame (s : State) (id t k : Nat) : (s.jobSame id t).route k = s.route k := by
  unfold State.route
  rw [(job_frames id 0 t false s).2]

section
variable {s : State} {d : Nat} {q : Req} (fr t : Nat)

/-- A request for the source in force ends a transition that is over, and changes nothing else (R173). -/
theorem State.beginReq_same (hsrc : q.src = (s.route d).src) :
    s.beginReq d q fr t = (s.setRoute d { s.route d with trans := none }).jobSame q.job t := by
  unfold State.beginReq
  exact if_pos hsrc

/-- ZERO begins its search from the old source (R169). -/
theorem State.beginReq_zero (hsrc : q.src ≠ (s.route d).src) (hkind : q.kind = 3) :
    s.beginReq d q fr t = s.setRoute d { s.route d with
      src := q.src
      trans := some { kind := .zero, from0 := (s.route d).src, n := msFrames q.fade s.tm.rate,
                      w := msFrames q.win s.tm.rate, job := q.job } } := by
  unfold State.beginReq
  simp only [if_neg hsrc, if_pos hkind]

/-- FADE of some length begins its fade from the old source (R168). -/
theorem State.beginReq_fade (hsrc : q.src ≠ (s.route d).src) (hkind : q.kind = 2) (hn : 0 < msFrames q.fade s.tm.rate) :
    s.beginReq d q fr t = (s.setRoute d { s.route d with
      src := q.src
      trans := some { kind := .fade, from0 := (s.route d).src, n := msFrames q.fade s.tm.rate, job := q.job } }).jobBegun
        q.job fr t false := by
  have hzero : q.kind ≠ 3 := by omega
  unfold State.beginReq
  simp only [if_neg hsrc, if_neg hzero, if_pos (And.intro hkind hn)]

/-- Any other request takes the new source in its own frame: CUT, and a FADE of no length (R167, R168). -/
theorem State.beginReq_cut (hsrc : q.src ≠ (s.route d).src) (hzero : q.kind ≠ 3)
    (hfade : ¬ (q.kind = 2 ∧ 0 < msFrames q.fade s.tm.rate)) :
    s.beginReq d q fr t = (s.setRoute d { s.route d with src := q.src, trans := none, cutFr := some fr }).jobBegun
      q.job fr t false := by
  unfold State.beginReq
  simp only [if_neg hsrc, if_neg hzero, if_neg hfade]

theorem State.route_beginReq_cut (hsrc : q.src ≠ (s.route d).src)
    (hkind : q.kind = 1 ∨ (q.kind = 2 ∧ msFrames q.fade s.tm.rate = 0)) :
    (s.beginReq d q fr t).route d = { s.route d with src := q.src, trans := none, cutFr := some fr } := by
  rw [State.beginReq_cut fr t hsrc (by omega) (by omega), State.route_jobBegun, State.route_setRoute]

/-- Whatever it asks for, a request writes its own destination only. -/
theorem State.route_beginReq_other {k : Nat} (hk : k ≠ d) : (s.beginReq d q fr t).route k = s.route k := by
  by_cases hsrc : q.src = (s.route d).src
  · rw [State.beginReq_same fr t hsrc, State.route_jobSame, State.route_setRoute_other _ _ _ _ hk]
  by_cases hzero : q.kind = 3
  · rw [State.beginReq_zero fr t hsrc hzero, State.route_setRoute_other _ _ _ _ hk]
  by_cases hfade : q.kind = 2 ∧ 0 < msFrames q.fade s.tm.rate
  · obtain ⟨hkind, hn⟩ := hfade
    rw [State.beginReq_fade fr t hsrc hkind hn, State.route_jobBegun, State.route_setRoute_other _ _ _ _ hk]
  · rw [State.beginReq_cut fr t hsrc hzero hfade, State.route_jobBegun, State.route_setRoute_other _ _ _ _ hk]

end

/-- A destination without a transition takes its source's sample, and nothing moves on. -/
theorem routeWork_settled {s : State} {d : Nat} (fr t : Nat) (rd : Nat → Int) (cz : Nat → Bool) (h : (s.route d).trans = none) :
    routeWork s d fr t rd cz = (s, rd (s.route d).src) := by
  unfold routeWork
  simp only [h]

/-- Settles O46: the route after the request, which the frame's work and the next frame read. -/
theorem cutTakesItsFrame : Obligations.CutTakesItsFrame := by
  unfold Obligations.CutTakesItsFrame
  intro d fr t q s read cz hkind hsrc b
  have hroute : b.route d = { s.route d with src := q.src, trans := none, cutFr := some fr } :=
    State.route_beginReq_cut fr t hsrc (.inl hkind)
  refine ⟨?_, by rw [hroute], by rw [hroute], ?_⟩
  · rw [routeWork_settled fr t read cz (by rw [hroute]), hroute]
  · simp [hroute, Route.freeAt]

/-- A fade whose frames are made frees its destination; one that runs goes on (R168). -/
theorem routeFadeEndStep_fade {s : State} {d : Nat} {x : Trans} (hx : (s.route d).trans = some x) (hkind : x.kind ≠ .zero) :
    routeFadeEndStep d s = if x.n ≤ x.k then s.setRoute d { s.route d with trans := none } else s := by
  unfold routeFadeEndStep
  simp only [hx, ne_eq, hkind, not_false_eq_true, true_and]

theorem State.applyHeld_held {s : State} {d : Nat} {r : Req} (fr t : Nat) (hr : (s.route d).held = some r) :
    s.applyHeld d fr t =
      if (s.route d).freeAt fr then (s.setRoute d { s.route d with held := none }).beginReq d r fr t else s := by
  unfold State.applyHeld
  simp only [hr]

/-- A search whose window has passed begins its fade, or ends at once where that has no length (R169). -/
theorem zeroFallbackStep_zero {s : State} {d : Nat} {x : Trans} (hx : (s.route d).trans = some x) (hkind : x.kind = .zero) :
    zeroFallbackStep d s = if x.w < x.k then
      (s.setRoute d (if x.n = 0 then { s.route d with trans := none, cutFr := some s.apFrame }
        else { s.route d with trans := some { x with kind := .fallback, k := 0 } })).jobBegun x.job s.apFrame s.apT true
    else s := by
  unfold zeroFallbackStep
  simp only [hx, hkind, true_and]

/-- What a row does under P in a frame at hand, and only there, it does under both. -/
theorem State.ite_frameAtHand {a b : State} {P : Prop} [Decidable P] :
    (if a.frameAtHand then (if P then b else a) else a) = if a.frameAtHand = true ∧ P then b else a := by
  by_cases hhand : a.frameAtHand = true
  · simp only [hhand, if_true, true_and]
  · simp only [hhand, if_false, false_and, Bool.false_eq_true]

/-- The one job of the mix completes once its fades are over, unless its commit is of the frame at hand (R223, R234). -/
theorem mixFadeEndStep_one {s : State} {j : MixJob} (hj : s.mixJobs = [j]) :
    mixFadeEndStep s = if j.left = 0 ∧ s.openFrame ≠ some j.commitFr then
      { s.finishOk j.id (j.data 0 (j.endFr % 2 ^ 32)) j.endT with mixJobs := [] } else s := by
  have hout : (decide (j.left = 0) && !decide (s.openFrame = some j.commitFr)) =
      decide (j.left = 0 ∧ s.openFrame ≠ some j.commitFr) := by simp
  unfold mixFadeEndStep mixJobsDone
  simp only [hj, List.foldl_cons, List.foldl_nil, List.filter_cons, List.filter_nil, hout, decide_eq_true_eq]
  by_cases hend : j.left = 0 ∧ s.openFrame ≠ some j.commitFr
  · simp only [hend, ne_eq, not_false_eq_true, and_self, decide_true, Bool.not_true, Bool.false_eq_true, if_true, if_false]
  · simp only [if_neg hend, decide_eq_false hend, Bool.not_false, if_true, ← hj]

/-- Settles O45: the request's cases, then the four rows that end a transition. -/
theorem routesChangeByTheirTransition : Obligations.RoutesChangeByTheirTransition := by
  unfold Obligations.RoutesChangeByTheirTransition
  intro d fr t dt q s a ha hd
  have hwf : decide (d < 1024) = true := decide_eq_true hd
  refine ⟨?request, fun x hx hkind => ?_, fun r hr => ?_, fun x hx hkind => ?_, fun j hj => ?_⟩
  case request =>
    intro r n b
    refine ⟨fun k hk => State.route_beginReq_other fr t hk, fun hsrc => ?_, fun hsrc hkind => ?_, fun hsrc hkind hn => ?_,
      fun hsrc hkind => ?_⟩
    · show (a.beginReq d q fr t).route d = _
      rw [State.beginReq_same fr t hsrc, State.route_jobSame, State.route_setRoute]
    · exact State.route_beginReq_cut fr t hsrc hkind
    · show (a.beginReq d q fr t).route d = _
      rw [State.beginReq_fade fr t hsrc hkind hn, State.route_jobBegun, State.route_setRoute]
    · show (a.beginReq d q fr t).route d = _
      rw [State.beginReq_zero fr t hsrc hkind, State.route_setRoute]
  · rw [exec_of_run (exec_routeFadeEnd dt d s) hwf ha, routeFadeEndStep_fade hx hkind]
  · rw [exec_of_run (exec_routeHeldApply dt d s) hwf ha, State.applyHeld_held _ _ hr, State.ite_frameAtHand]
  · rw [exec_of_run (exec_zeroFallback dt d s) hwf ha, zeroFallbackStep_zero hx hkind, State.ite_frameAtHand]
  · rw [exec_of_run (exec_mixFadeEnd dt s) rfl ha, mixFadeEndStep_one hj]

end Sys2Proof.Machine
end

section
/-! Meters: what METER_READ, METER_RESET and METER_CFG make of each point. -/
namespace Sys2Proof.Machine
open Sys2Proof

/-- What METER_READ makes of a point it names, by its flags: bit 0 keeps the peaks, bit 1 clears the count of clips (R198). -/
def meterRestart (fl : Nat) (m : Meter) : Meter :=
  let m1 := if bit fl 0 then m else { m with peak := 0, tpeak := 0 }
  if bit fl 1 then { m1 with clip := 0, clipSat := false } else m1

/-- A point named twice is restarted as one named once. -/
theorem meterRestart_idem (fl : Nat) (m : Meter) : meterRestart fl (meterRestart fl m) = meterRestart fl m := by
  unfold meterRestart
  cases bit fl 0 <;> cases bit fl 1 <;> rfl

theorem meterRestart_peaks {fl : Nat} (m : Meter) (h : bit fl 0 = false) :
    (meterRestart fl m).peak = 0 ∧ (meterRestart fl m).tpeak = 0 ∧ (meterRestart fl m).hold = m.hold := by
  unfold meterRestart
  rw [h]
  cases bit fl 1 <;> exact ⟨rfl, rfl, rfl⟩

theorem meterRestart_keep {fl : Nat} (m : Meter) (h0 : bit fl 0 = true) (h1 : bit fl 1 = false) : meterRestart fl m = m := by
  unfold meterRestart
  simp only [h0, h1, if_true, Bool.false_eq_true, if_false]

/-- METER_READ restarts the points it names. -/
theorem meterReadApply_meter (id t k : Nat) (p : Packet) (s : State) : (meterReadApply id p t s).meter k =
    if k ∈ mpAt p 20 (p.u16 16) then meterRestart (p.u8 18) (s.meter k) else s.meter k :=
  each_meter (meterRestart (p.u8 18)) (meterRestart_idem (p.u8 18)) (mpAt p 20 (p.u16 16)) s k

theorem meterResetApply_meter (id t k : Nat) (p : Packet) (s : State) : (meterResetApply id p t s).meter k =
    if k ∈ mpNamed p 20 s then (s.meter k).clear (p.u8 17) else s.meter k :=
  each_meter (fun m => m.clear (p.u8 17)) (clear_clear (p.u8 17)) (mpNamed p 20 s) s k

/-- A mask of bit 0 alone sets the time constant alone (R196). -/
theorem meterSet_tau {p : Packet} (m : Meter) (h : p.u8 17 = 1) : meterSet p m = { m with tau := p.u16 20 } := by
  have hbits : bit 1 0 = true ∧ bit 1 1 = false ∧ bit 1 2 = false := by decide
  obtain ⟨h0, h1, h2⟩ := hbits
  unfold meterSet
  simp only [h, h0, h1, h2, if_true, Bool.false_eq_true, if_false]

/-- METER_CFG of the time constant alone sets that of the points it names. -/
theorem meterCfgApply_tau (id t k : Nat) {p : Packet} (s : State) (h : p.u8 17 = 1) : (meterCfgApply id p t s).meter k =
    if k ∈ mpNamed p 28 s then { s.meter k with tau := p.u16 20 } else s.meter k := by
  rw [← meterSet_tau (s.meter k) h]
  exact each_meter (meterSet p) (fun m => by simp only [meterSet_tau _ h]) (mpNamed p 28 s) s k

theorem meterCfgApply_unnamed (id t : Nat) {k : Nat} {p : Packet} (s : State) (h : k ∉ mpNamed p 28 s) :
    (meterCfgApply id p t s).meter k = s.meter k :=
  none_meter (meterSet p) (mpNamed p 28 s) k h s

/-- Settles O47: what each of the three makes of a point, named or not. -/
theorem metersActOnNamedPoints : Obligations.MetersActOnNamedPoints := by
  unfold Obligations.MetersActOnNamedPoints
  intro id t k p s
  refine ⟨fun hk => ?_, fun hk h0 => ?_, fun hk h0 h1 => ?_, meterResetApply_meter id t k p s, fun hmask hk => ?_,
    meterCfgApply_unnamed id t s⟩
  · rw [meterReadApply_meter, if_neg hk]
  · rw [meterReadApply_meter, if_pos hk]
    exact meterRestart_peaks (s.meter k) h0
  · rw [meterReadApply_meter, if_pos hk, meterRestart_keep (s.meter k) h0 h1]
  · rw [meterCfgApply_tau id t k s hmask, if_pos hk]
    exact ⟨rfl, rfl⟩

end Sys2Proof.Machine
end

section
/-! Firkin: how a line's fade and its held change end, and how the one clear or transfer that runs does. -/
namespace Sys2Proof.Machine
open Sys2Proof

section
variable {s : State} {k : Nat}

/-- A held change leaves the line and begins on it, and its command completes in the frame of commands (R253). -/
theorem delayHeldApplyStep_free {h : LReq} (hheld : (s.line k).held = some h) (hfree : (s.line k).free = true) :
    delayHeldApplyStep k s =
      let b := lineBegin k h.delay h.n s.apFrame (s.setLine k { s.line k with held := none, fade := none })
      b.finishOk h.job (lineData b k) s.apT := by
  unfold delayHeldApplyStep
  simp only [hheld, hfree, if_true]

/-- A fade to zero that is over releases the region, and the unbind's result is of the line released (R254, R262). -/
theorem unbindFadeEndStep_over {f : LFade} {j : Nat} (hfade : (s.line k).fade = some f) (hzero : f.toZero = true) (hover : f.n ≤ f.k)
    (hjob : (s.line k).unbindJob = some j) :
    unbindFadeEndStep k s = (lineRelease k s).finishOk j (lineData (lineRelease k s) k)
      (if f.n = 0 then s.tm.frameT else (s.line k).endT) := by
  have hend : f.toZero = true ∧ f.n ≤ f.k := ⟨hzero, hover⟩
  unfold unbindFadeEndStep
  simp only [hfade, if_pos hend, hjob]

end

section
variable {s : State} {x : Xfer} (hx : s.xfers = [x])
include hx

/-- The first of the one transfer that runs is that one, where it is of the kind sought. -/
theorem find_xfers_one {p : Xfer → Bool} (hp : p x = true) : s.xfers.find? p = some x := by
  rw [hx, List.find?_cons_of_pos hp]

/-- No transfer runs once the only one has ended. -/
theorem filter_xfers_one : s.xfers.filter (fun y => !decide (y.id = x.id)) = [] := by
  rw [hx, List.filter_cons_of_neg (by simp), List.filter_nil]

/-- The bushels of a region whose clear is over read zero (R259). -/
theorem regionClearDoneStep_one {r : Region} (hr : s.region x.region = some r) (hclear : x.clear = true) :
    regionClearDoneStep s =
      let b : State := { s with xfers := [], fk := mclear s.fk (4096 * r.first) (4096 * (r.first + r.n)) }
      b.finishOk x.id (allocData b x.region r.first r.frames) s.nowNs := by
  have hregion : ({ s with xfers := [] } : State).region x.region = some r := hr
  unfold regionClearDoneStep
  simp only [find_xfers_one hx hclear, filter_xfers_one hx, hregion]
  rfl

/-- A bulk transfer that is over has moved what the frames before had not (R256, R265, log 99). -/
theorem bulkTransferDoneStep_one (hmove : x.clear = false) :
    bulkTransferDoneStep s = (moveBytes x x.moved x.total { s with xfers := [] }).finishOk x.id
      (le 4 x.firstFr ++ le 4 s.frame32) s.nowNs := by
  have hfound : s.xfers.find? (fun y => !y.clear) = some x := find_xfers_one hx (by rw [hmove]; rfl)
  unfold bulkTransferDoneStep
  simp only [hfound, filter_xfers_one hx]

end

/-- Settles O48: the three rows of a line, then the clear and the bulk transfer. -/
theorem firkinOperationsEnd : Obligations.FirkinOperationsEnd := by
  unfold Obligations.FirkinOperationsEnd
  intro dt k s a ha hk
  have hwf : decide (k < 128) = true := decide_eq_true hk
  refine ⟨?_, fun h hheld hfree => ?_, fun f j hfade hzero hover hjob => ?_, fun x r hx hr => ⟨fun hclear => ?_, fun hmove => ?_⟩⟩
  · exact exec_of_run (f := delayXfadeEndStep k) (exec_delayXfadeEnd dt k s) hwf ha
  · rw [exec_of_run (exec_delayHeldApply dt k s) hwf ha, delayHeldApplyStep_free hheld hfree]
  · rw [exec_of_run (exec_unbindFadeEnd dt k s) hwf ha, unbindFadeEndStep_over hfade hzero hover hjob]
  · rw [exec_of_run (exec_regionClearDone dt s) rfl ha, regionClearDoneStep_one hx hr hclear]
  · rw [exec_of_run (exec_bulkTransferDone dt s) rfl ha, bulkTransferDoneStep_one hx hmove]

end Sys2Proof.Machine
end

section
/-! Protection of the output groups (R275): what a protective action makes of its own group, and which groups each row acts on. -/
namespace Sys2Proof.Machine
open Sys2Proof

@[simp] theorem State.grp_gZero (s : State) (g h : Nat) : (s.gZero h).grp g = s.grp g := by
  unfold State.grp
  rw [gZero_grps]

/-- A group that is shut at once keeps its settings, its fault and its latch. -/
theorem grpOff_grp (g : Nat) (s : State) : (grpOff g s).grp g = { s.grp g with
    st := 0, fast := false, offSoon := false, again := none, respGo := false, fillTo := none, rateMute := none } := by
  simp only [grpOff, State.grp_setGrp]

section
variable (g cause : Nat) (s : State)

/-- A protective action gives its group the fault, but for a cause 2 that is there already (log 153), and latches it, but for the two
causes that recover by themselves. -/
theorem protect_fault_latched : ((protect g cause s).grp g).fault = some (if (s.grp g).fault = some 2 then 2 else cause) ∧
    ((protect g cause s).grp g).latched = ((cause ≠ 3 ∧ cause ≠ 4) || (s.grp g).latched) := by
  have hlatch : (!(decide (cause = 3) || decide (cause = 4)) || (s.grp g).latched) =
      ((cause ≠ 3 ∧ cause ≠ 4) || (s.grp g).latched) := by
    simp
  unfold protect
  rw [fault_grp, ← hlatch]
  by_cases hmute : cause = 6
  · simp only [if_pos hmute, State.grp_setGrp, and_self]
  · simp only [if_neg hmute]
    split
    · simp only [State.grp_setGrp, and_self]
    · simp only [grpOff_grp, State.grp_setGrp, and_self]

/-- Neither heat nor the headphone mute: the group is off at once. -/
theorem protect_off (hheat : cause ≠ 2) (hmute : cause ≠ 6) : ((protect g cause s).grp g).st = 0 := by
  unfold protect
  rw [fault_grp]
  simp only [if_neg hmute, hheat, false_and, if_false, grpOff_grp]

/-- A muted pair keeps its place in its sequence (log 106). -/
theorem protect_mute_st : ((protect g 6 s).grp g).st = (s.grp g).st := by
  unfold protect
  rw [fault_grp]
  simp only [if_true, State.grp_setGrp]

/-- Every protective action ends with its OUT_FAULT. -/
theorem protect_raises : ∃ u : State, protect g cause s = u.outFault g cause (if cause = 3 ∨ cause = 4 then 1 else 0) := by
  have hhow : (if (!(decide (cause = 3) || decide (cause = 4))) = true then 0 else 1) = if cause = 3 ∨ cause = 4 then 1 else 0 := by
    by_cases h3 : cause = 3
    · simp [h3]
    · simp [h3]
  rw [← hhow]
  exact ⟨_, rfl⟩

end

/-- Loops over the two bridges. -/
theorem forEach_bridges (f : Nat → State → State) (s : State) : forEach [18, 19] f s = f 19 (f 18 s) := rfl

/-- PVDD out of range acts on bridge 0 alone where bridge 1 is off. -/
theorem pvddTrip_first {cause mv : Nat} {s : State} (h18 : (s.grp 18).st ≠ 0) (h19 : (s.grp 19).st = 0) :
    pvddTrip cause mv true s = protect 18 cause { s with env := { s.env with pvddMv := mv } } := by
  have hother : ((protect 18 cause { s with env := { s.env with pvddMv := mv } }).grp 19).st = 0 := by
    rw [(GrpOnly.protect 18 cause _).1 19 (by decide)]
    exact h19
  have hfirst : ¬ (State.grp { s with env := { s.env with pvddMv := mv } } 18).st = 0 := h18
  unfold pvddTrip
  simp only [if_true, forEach_bridges, if_neg hfirst, if_pos hother]

/-- What PVDD_RECOVERY makes of one bridge: it recovers, or an enable that waited starts. -/
def bridgeRecover (mv g : Nat) (a : State) : State :=
  let v := a.grp g
  let ok := (decide (v.fault = some 3) && decide (7500 ≤ mv)) || (decide (v.fault = some 4) && decide (mv ≤ 16500))
  if ok && !v.latched then
    let b := (a.setGrp g { v with fault := none, wait := false }).outFault g (v.fault.getD 0) 2
    if v.en && b.inRun then outEnable g 3 b else b
  else if v.wait && v.en && a.inRun && decide (7500 ≤ mv) && decide (mv ≤ 16500) && v.fault.isNone then
    outEnable g 3 (a.setGrp g { v with wait := false })
  else a

theorem pvddRecover_bridges (mv : Nat) (s : State) : pvddRecover mv s =
    bridgeRecover mv 19 (bridgeRecover mv 18 { s with env := { s.env with pvddMv := mv } }) := rfl

section
variable {mv g : Nat} {s : State}

/-- A bridge that is not enabled recovers from cause 3, and stays off. -/
theorem bridgeRecover_cause3 (hfault : (s.grp g).fault = some 3) (hlatch : (s.grp g).latched = false) (hen : (s.grp g).en = false)
    (hmv : 7500 ≤ mv) :
    bridgeRecover mv g s = (s.setGrp g { s.grp g with fault := none, wait := false }).outFault g 3 2 := by
  simp only [bridgeRecover, hfault, hlatch, hen, hmv, decide_true, Bool.and_self, Bool.true_or, Bool.not_false, Bool.false_and,
    if_true, Bool.false_eq_true, if_false, Option.getD_some]

/-- A bridge with no fault, on which no enable waits, stays as it is. -/
theorem bridgeRecover_idle (hfault : (s.grp g).fault = none) (hwait : (s.grp g).wait = false) : bridgeRecover mv g s = s := by
  simp only [bridgeRecover, hfault, hwait, reduceCtorEq, decide_false, Bool.false_and, Bool.or_self, Bool.false_eq_true, if_false]

/-- Bridge 0 recovers from cause 3, and bridge 1 has nothing to recover from. -/
theorem bridgeRecover_first (hfault : (s.grp 18).fault = some 3) (hlatch : (s.grp 18).latched = false) (hen : (s.grp 18).en = false)
    (hmv : 7500 ≤ mv) (hfault' : (s.grp 19).fault = none) (hwait : (s.grp 19).wait = false) :
    bridgeRecover mv 19 (bridgeRecover mv 18 s) = (s.setGrp 18 { s.grp 18 with fault := none, wait := false }).outFault 18 3 2 := by
  have hother : ((s.setGrp 18 { s.grp 18 with fault := none, wait := false }).outFault 18 3 2).grp 19 = s.grp 19 := by
    rw [fault_grp, State.grp_setGrp_other _ _ _ _ (by decide)]
  rw [bridgeRecover_cause3 hfault hlatch hen hmv, bridgeRecover_idle (by rw [hother, hfault']) (by rw [hother, hwait])]

end

/-- Settles O34: each row on the groups it acts on, then what a protective action changes. -/
theorem protectionShutsTheGroup : Obligations.ProtectionShutsTheGroup := by
  unfold Obligations.ProtectionShutsTheGroup
  refine ⟨fun dt k mv s a ha hk => ?_, fun g cause h i s hne => ?_⟩
  · have hwf : decide (k < 2) = true := decide_eq_true hk
    refine ⟨fun hst => ⟨?_, ?_⟩, fun hst => ⟨?_, ?_⟩, fun hok hst hfault => ?_, fun hmv => ?_, fun hmv => ?_,
      fun hmv h18 h19 => ?_, fun hmv h18 h19 => ?_, fun hfault hlatch hen hmv hfault' hwait => ?_⟩
    · rw [exec_of_run (exec_spkOvercurrent dt k s) hwf ha, spkTrip, if_neg hst]
    · rw [exec_of_run (exec_spkDcFault dt k s) hwf ha, spkTrip, if_neg hst]
    · rw [exec_of_run (exec_spkOvercurrent dt k s) hwf ha, spkTrip, if_pos hst]
    · rw [exec_of_run (exec_spkDcFault dt k s) hwf ha, spkTrip, if_pos hst]
    · rw [exec_of_run (exec_hpCurrentLimit dt k s) hwf ha, hpTrip, if_pos ⟨hok, hst, hfault⟩]
    · rw [exec_of_run (exec_pvddUnder dt mv s) rfl ha, decide_eq_false (Nat.not_lt_of_le hmv)]
      rfl
    · rw [exec_of_run (exec_pvddOver dt mv s) rfl ha, decide_eq_false (Nat.not_lt_of_le hmv)]
      rfl
    · rw [exec_of_run (exec_pvddUnder dt mv s) rfl ha, decide_eq_true hmv, pvddTrip_first h18 h19]
    · rw [exec_of_run (exec_pvddOver dt mv s) rfl ha, decide_eq_true hmv, pvddTrip_first h18 h19]
    · rw [exec_of_run (exec_pvddRecovery dt mv s) rfl ha, pvddRecover_bridges,
        bridgeRecover_first (s := { a with env := { a.env with pvddMv := mv } }) hfault hlatch hen hmv hfault' hwait]
      rfl
  · obtain ⟨hgrps, houts, hroutes, hflight, -⟩ := GrpOnly.protect g cause s
    obtain ⟨htrim, hsmute⟩ := houts i
    obtain ⟨hfault, hlatch⟩ := protect_fault_latched g cause s
    refine ⟨hgrps h hne, hfault, hlatch, protect_off g cause s, ?_, htrim, hsmute, protect_raises g cause s, hroutes,
      hflight⟩
    rintro rfl
    exact protect_mute_st g s

end Sys2Proof.Machine
end

section
/-! The power sequence of an output group, step by step, and the charge pump's rails. -/
namespace Sys2Proof.Machine
open Sys2Proof

/-- OUT_SEQ_STEP on a group that is off does nothing. -/
theorem outSeqStep_off {g : Nat} {s : State} (hst : (s.grp g).st = 0) : outSeqStep g s = s := by
  unfold outSeqStep
  simp [hst]

/-- Nor on one whose step is not due yet, by the part of the frame or by the frame counter. -/
theorem outSeqStep_early {g : Nat} {s : State} (hst : (s.grp g).st ≠ 5) (htime : s.mtime < (s.grp g).due)
    (hframe : s.tm.frame < (s.grp g).due / 1000) : outSeqStep g s = s := by
  unfold outSeqStep
  simp [hst, Nat.not_le_of_lt htime, Nat.not_le_of_lt hframe]

section
variable {g : Nat} {s : State} {v : Grp} (hgrp : s.grp g = v) (hdue : v.due ≤ s.mtime)
include hgrp hdue

/-- The clamp has opened: the bias begins to rise. -/
theorem outSeqStep_clamp (hst : v.st = 1) :
    outSeqStep g s = s.setGrp g { v with st := 2, rr := s.msT v.ramp, due := v.due + s.msT v.ramp } := by
  unfold outSeqStep
  simp [hgrp, hst, hdue]

/-- The bias stands: it is held 20 ms. -/
theorem outSeqStep_bias (hst : v.st = 2) : outSeqStep g s = s.setGrp g { v with st := 3, due := v.due + s.msT 20 } := by
  unfold outSeqStep
  simp [hgrp, hst, hdue]

/-- The hold is over: the gain begins to rise, with the response that waited. -/
theorem outSeqStep_hold (hst : v.st = 3) : outSeqStep g s = s.setGrp g { v with
    st := 4, due := v.due + s.msT (s.grpMute g), resp := v.respNew.getD v.resp, respNew := none, respGo := false, fillTo := none } := by
  unfold outSeqStep
  simp [hgrp, hst, hdue]

/-- The gain is full: the group is on. -/
theorem outSeqStep_gain (hst : v.st = 4) : outSeqStep g s = (s.setGrp g { v with st := 5 }).outSeq g 1 := by
  unfold outSeqStep
  simp [hgrp, hst, hdue]

/-- On the way off the gain is 0: the bias begins to fall. -/
theorem outSeqStep_gainDown (hst : v.st = 6) (hsoon : v.offSoon = false) : outSeqStep g s = biasDown g v.due (s.gZero g) := by
  unfold outSeqStep
  simp [hgrp, hst, hdue, hsoon]

/-- The bias has fallen: the clamp closes. -/
theorem outSeqStep_biasDown (hst : v.st = 7) : outSeqStep g s = s.setGrp g { v with st := 8, due := v.due + s.msT 1 } := by
  unfold outSeqStep
  simp [hgrp, hst, hdue]

/-- The clamp is closed, and no enable waits: the group is off. -/
theorem outSeqStep_clampDown (hst : v.st = 8) (hagain : v.again = none) :
    outSeqStep g s = (s.setGrp g { v with st := 0, again := none, rateMute := none }).outSeq g 0 := by
  unfold outSeqStep
  simp [hgrp, hst, hdue, hagain]

end

/-- Raised rails fall 50 ms after the last loud sample (R272). -/
theorem cpRailLowerStep_high {k : Nat} {s : State} (h : (s.grp (16 + k)).railHigh = true) :
    cpRailLowerStep k s = if (s.grp (16 + k)).loudAt + 50000000 ≤ s.clk then
      s.setGrp (16 + k) { s.grp (16 + k) with railHigh := false } else s := by
  unfold cpRailLowerStep
  simp only [h, true_and]

/-- Settles O35: a group that is off, a step that is not due, each step that is, and the rails. -/
theorem outputSequenceSteps : Obligations.OutputSequenceSteps := by
  unfold Obligations.OutputSequenceSteps
  intro dt g s a v ha hg hgrp
  rw [exec_of_run (exec_outSeqStep dt g s) (decide_eq_true hg) ha]
  refine ⟨fun hst => ?_, fun htime hframe hst => ?_, fun hdue => ⟨fun hst => ?_, fun hst => ?_, fun hst => ?_, fun hst => ?_,
    fun hst hsoon => ?_, fun hst => ?_, fun hst hagain => ?_⟩, fun k hk hhigh => ?_⟩
  · rw [outSeqStep_off (by rw [hgrp, hst])]
  · subst hgrp
    rw [outSeqStep_early hst htime hframe]
  · rw [outSeqStep_clamp hgrp hdue hst]
  · rw [outSeqStep_bias hgrp hdue hst]
  · rw [outSeqStep_hold hgrp hdue hst]
  · rw [outSeqStep_gain hgrp hdue hst]
  · rw [outSeqStep_gainDown hgrp hdue hst hsoon]
  · rw [outSeqStep_biasDown hgrp hdue hst]
  · rw [outSeqStep_clampDown hgrp hdue hst hagain]
  · rw [exec_of_run (exec_cpRailLower dt k s) (decide_eq_true hk) ha, cpRailLowerStep_high hhigh]

end Sys2Proof.Machine
end

section
/-! Jacks: the edge, the debounce it starts, and what an accepted state makes of a headphone pair. -/
namespace Sys2Proof.Machine
open Sys2Proof

@[simp] theorem State.jack_setGrp (s : State) (g j : Nat) (v : Grp) : (s.setGrp g v).jack j = s.jack j := rfl
@[simp] theorem State.grp_setJack (s : State) (j g : Nat) (v : Jack) : (s.setJack j v).grp g = s.grp g := rfl

/-- The last of two changes of a jack stands. -/
@[simp] theorem State.setJack_setJack (s : State) (j : Nat) (v w : Jack) : (s.setJack j v).setJack j w = s.setJack j w := by
  simp only [State.setJack, tset_tset]

theorem EventsOnly.jackEvent (s : State) (j fl ns : Nat) : EventsOnly s (s.jackEvent j fl ns) := .raiseAt _ _ _ _

theorem State.grp_jackEvent (s : State) (j fl ns g : Nat) : (s.jackEvent j fl ns).grp g = s.grp g := by
  obtain ⟨_, _, _, _, _, _, _, h⟩ := EventsOnly.jackEvent s j fl ns
  rw [h]
  rfl

theorem State.jack_jackEvent (s : State) (j fl ns k : Nat) : (s.jackEvent j fl ns).jack k = s.jack k := by
  obtain ⟨_, _, _, _, _, _, _, h⟩ := EventsOnly.jackEvent s j fl ns
  rw [h]
  rfl

/-- Closing the mute leaves everything else. -/
theorem hpMute_closes (k : Nat) (s : State) : hpMute k true s = s.setGrp (16 + k) { s.grp (16 + k) with hwMute := true } := by
  simp only [hpMute, Bool.not_true, Bool.and_false, Bool.false_eq_true, if_false]

/-- The hardware mute of a pair is all that changes in its group (R288). -/
theorem hpMute_grp (k : Nat) (closed : Bool) (s : State) :
    (hpMute k closed s).grp (16 + k) = { s.grp (16 + k) with hwMute := closed } := by
  cases closed with
  | true => rw [hpMute_closes, State.grp_setGrp]
  | false =>
    simp only [hpMute]
    split <;> exact State.grp_setGrp _ _ _

/-! ### The edge -/

/-- The state in which the pin of jack j has come to show the other level. -/
def State.edged (s : State) (j : Nat) (level : Bool) : State :=
  { s with pins := { s.pins with jackLow := (List.range 4).map fun i => if i = j then !level else s.pins.jackLow.getD i false } }

/-- An edge to removed closes the hardware mute of a headphone pair (R288). -/
def edgeMute (j : Nat) (s : State) : State := if !s.jackRead j ∧ j < 2 then hpMute j true s else s

/-- A return to inserted (r) during a removal's debounce counts as a glitch (R287). -/
def edgeGlitch (j : Nat) (r : Bool) (s : State) : State :=
  if r && decide ((s.jack j).acc = some true) && (match (s.jack j).deb with
      | some d => !d.toIn
      | none => false) then
    s.setJack j { s.jack j with glitch := satInc 15 (s.jack j).glitch }
  else s

/-- What a debounce from the state r that the pin shows counts from. -/
def State.debFrom (s : State) (r : Bool) : Deb := { toIn := r, at0 := s.clk, ns := s.nowNs, fr := s.frame32 }

section
variable {s : State} {j : Nat}

theorem edgeMute_out (hout : s.jackRead j = false) (hj : j < 2) : edgeMute j s = hpMute j true s :=
  if_pos ⟨by rw [hout]; rfl, hj⟩

theorem edgeMute_in (hin : s.jackRead j = true) : edgeMute j s = s :=
  if_neg fun h => by simp [hin] at h

theorem edgeMute_line (hj : 2 ≤ j) : edgeMute j s = s :=
  if_neg fun h => absurd h.2 (Nat.not_lt_of_le hj)

theorem edgeGlitch_out : edgeGlitch j false s = s := rfl

theorem edgeGlitch_quiet {r : Bool} (hdeb : (s.jack j).deb = none) : edgeGlitch j r s = s :=
  if_neg (by simp [hdeb])

theorem edgeGlitch_back {d : Deb} (hacc : (s.jack j).acc = some true) (hdeb : (s.jack j).deb = some d) (hd : d.toIn = false) :
    edgeGlitch j true s = s.setJack j { s.jack j with glitch := satInc 15 (s.jack j).glitch } :=
  if_pos (by simp [hacc, hdeb, hd])

/-- A pin that shows the accepted state does not debounce, unless it is inserted behind a closed mute (R288). -/
theorem debounce_same (hacc : (s.jack j).acc = some (s.jackRead j)) : debounce j s = s.setJack j { s.jack j with
    deb := if (s.jackRead j && (decide (j < 2) && (s.grp (16 + j)).hwMute)) = true then some (s.debFrom (s.jackRead j)) else none } := by
  unfold debounce
  cases hshut : s.jackRead j && (decide (j < 2) && (s.grp (16 + j)).hwMute) with
  | true => simp only [hshut, Bool.not_true, Bool.false_eq_true, and_false, if_false, if_true, State.debFrom]
  | false => simp only [hshut, Bool.not_false, and_true, if_pos hacc, Bool.false_eq_true, if_false]

theorem debounce_other (hacc : (s.jack j).acc ≠ some (s.jackRead j)) :
    debounce j s = s.setJack j { s.jack j with deb := some (s.debFrom (s.jackRead j)) } := by
  simp only [debounce, hacc, false_and, if_false, State.debFrom]

/-- JACK_EDGE moves the pin; on an enabled jack it closes the mute, counts the glitch and restarts the debounce. -/
theorem jackEdgeStep_moves {level : Bool} {b : State} (hlevel : s.pins.jackLow.getD j false = level) (hb : s.edged j level = b) :
    jackEdgeStep j level s =
      if !(b.jackUnit && b.jackEn j) then b else debounce j (edgeGlitch j (b.jackRead j) (edgeMute j b)) := by
  subst hb
  have hmove : ¬ s.pins.jackLow.getD j false = !level := by rw [hlevel]; cases level <;> decide
  unfold jackEdgeStep
  rw [if_neg hmove]
  rfl

end

section
variable {s : State} {j : Nat}

/-- On a jack that is no headphone jack, and does not debounce, a debounce begins where the pin leaves the accepted state. -/
theorem edge_line (hj : 2 ≤ j) (hdeb : (s.jack j).deb = none) : debounce j (edgeGlitch j (s.jackRead j) (edgeMute j s)) =
    s.setJack j { s.jack j with
      deb := if (s.jack j).acc = some (s.jackRead j) then none else some (s.debFrom (s.jackRead j)) } := by
  have hline : (s.jackRead j && (decide (j < 2) && (s.grp (16 + j)).hwMute)) = false := by simp [Nat.not_lt_of_le hj]
  rw [edgeMute_line hj, edgeGlitch_quiet hdeb]
  by_cases hacc : (s.jack j).acc = some (s.jackRead j)
  · rw [debounce_same hacc, if_pos hacc, hline]; rfl
  · rw [debounce_other hacc, if_neg hacc]

/-- A plug that leaves a headphone jack closes the mute, and its removal debounces. -/
theorem edge_removed (hj : j < 2) (hout : s.jackRead j = false) (hacc : (s.jack j).acc = some true) :
    debounce j (edgeGlitch j (s.jackRead j) (edgeMute j s)) =
      (hpMute j true s).setJack j { s.jack j with deb := some (s.debFrom false) } := by
  have hread : ((hpMute j true s).jackRead j) = false := by rw [hpMute_closes]; exact hout
  have hjack : (hpMute j true s).jack j = s.jack j := by rw [hpMute_closes]; rfl
  have hfrom : (hpMute j true s).debFrom false = s.debFrom false := by rw [hpMute_closes]; rfl
  rw [hout, edgeMute_out hout hj, edgeGlitch_out, debounce_other (by rw [hjack, hacc, hread]; decide), hread, hjack, hfrom]

/-- A plug that comes back before its removal is accepted counts a glitch, and debounces behind the closed mute. -/
theorem edge_back {d : Deb} (hj : j < 2) (hin : s.jackRead j = true) (hacc : (s.jack j).acc = some true)
    (hdeb : (s.jack j).deb = some d) (hd : d.toIn = false) :
    debounce j (edgeGlitch j (s.jackRead j) (edgeMute j s)) = s.setJack j { s.jack j with
      glitch := satInc 15 (s.jack j).glitch, deb := if (s.grp (16 + j)).hwMute then some (s.debFrom true) else none } := by
  generalize hc : s.setJack j { s.jack j with glitch := satInc 15 (s.jack j).glitch } = c
  have hread : c.jackRead j = true := by
    rw [← hin, ← hc, State.jackRead, State.jackRead, State.jack_setJack]
    rfl
  have hshut : (c.jackRead j && (decide (j < 2) && (c.grp (16 + j)).hwMute)) = (s.grp (16 + j)).hwMute := by
    rw [hread, decide_eq_true hj, ← hc]; rfl
  rw [hin, edgeMute_in hin, edgeGlitch_back hacc hdeb hd, hc,
    debounce_same (by rw [hread, ← hc, State.jack_setJack]; exact hacc), hshut, hread, ← hc,
    State.jack_setJack, State.setJack_setJack]
  rfl

end

/-! ### The debounce's end -/

/-- A jack whose state has been accepted: everything of the plug before is forgotten. -/
def Jack.accepted (k : Jack) (d : Deb) : Jack :=
  { k with acc := some d.toIn, deb := none, edgeFr := d.fr, edgeNs := d.ns, meas := none, btnNow := none, cand := none, polls := [],
           cls := 0 }

section
variable {s : State} {j : Nat} {d : Deb}

section
variable (hdeb : (s.jack j).deb = some d) (hon : (s.jackUnit && s.jackEn j) = true)
include hdeb hon

/-- Before the debounce time a state is not accepted. -/
theorem jackExpireStep_early (hclk : s.clk < d.at0 + (if d.toIn then (s.jack j).dbIn else (s.jack j).dbOut) * 1000000) :
    jackExpireStep j s = s := by
  unfold jackExpireStep
  simp only [hdeb, hon, decide_eq_true hclk, Bool.or_true, if_true]

variable (hclk : d.at0 + (if d.toIn then (s.jack j).dbIn else (s.jack j).dbOut) * 1000000 ≤ s.clk)
include hclk

/-- The accepted state has come back after a glitch: the mute opens, and nothing else. -/
theorem jackExpireStep_glitch (hacc : (s.jack j).acc = some d.toIn) :
    jackExpireStep j s = hpMute j false (s.setJack j { s.jack j with deb := none }) := by
  unfold jackExpireStep
  simp only [hdeb, hon, decide_eq_false (Nat.not_lt_of_le hclk), Bool.not_true, Bool.or_false, Bool.false_eq_true, if_false, if_pos hacc]

theorem jackExpireStep_accepts (hacc : (s.jack j).acc ≠ some d.toIn) : jackExpireStep j s = gaugeResume 1 (jackAccept j d s) := by
  unfold jackExpireStep
  simp only [hdeb, hon, decide_eq_false (Nat.not_lt_of_le hclk), Bool.not_true, Bool.or_false, Bool.false_eq_true, if_false, if_neg hacc]

end

/-- With no event that waits for a measurement, nothing is dropped. -/
theorem State.measureDrop_none (hwaits : (s.jack j).waits = none) : s.measureDrop j = s := by
  unfold State.measureDrop
  simp only [hwaits]

/-- A jack that is no headphone jack only reports, and triggers GB. -/
theorem jackAccept_line (hwaits : (s.jack j).waits = none) (hj : 2 ≤ j) : jackAccept j d s =
    gaugeTrig (0x10 + (j - 2)) ((s.setJack j ((s.jack j).accepted d)).jackEvent j 0 d.ns) := by
  unfold jackAccept
  rw [State.measureDrop_none hwaits]
  exact if_pos hj

/-- A headphone jack moves the mute, and with AUTO (run) the group, and reports whether the group moved. -/
theorem jackAccept_phones {run : Bool} {u v : State} (hwaits : (s.jack j).waits = none) (hj : j < 2)
    (hu : hpMute j (!d.toIn) (s.setJack j ((s.jack j).accepted d)) = u)
    (hfault : ¬ (d.toIn = true ∧ (u.grp (16 + j)).fault = some 6)) (hhsdet : ¬ (d.toIn = true ∧ (s.jack j).hsdet = true))
    (hrun : ((s.jack j).auto && u.inRun && (if d.toIn then (u.grp (16 + j)).en else decide ((u.grp (16 + j)).st ≠ 0))) = run)
    (hv : (if run then if d.toIn then outEnable (16 + j) 1 u else outDisable (16 + j) 1 false u else u) = v) :
    jackAccept j d s = v.jackEvent j (b2n (run && decide (v.grp (16 + j) ≠ u.grp (16 + j)))) d.ns := by
  have hv' : (if !run then u else if d.toIn then outEnable (16 + j) 1 u else outDisable (16 + j) 1 false u) = v := by
    rw [← hv]
    cases run <;> rfl
  unfold Jack.accepted at hu
  unfold jackAccept
  rw [State.measureDrop_none hwaits]
  simp only [if_neg (Nat.not_le_of_lt hj), hu, if_neg hfault, hrun, hv', if_neg hhsdet]

/-- A removal accepted shuts the group where AUTO is set in Run (R289). -/
theorem jackAccept_removed {u v : State} (hwaits : (s.jack j).waits = none) (hj : j < 2) (hout : d.toIn = false)
    (hu : hpMute j true (s.setJack j ((s.jack j).accepted d)) = u)
    (hv : (if (s.jack j).auto ∧ u.inRun ∧ (u.grp (16 + j)).st ≠ 0 then outDisable (16 + j) 1 false u else u) = v) :
    jackAccept j d s = v.jackEvent j
      (if (s.jack j).auto ∧ u.inRun ∧ (u.grp (16 + j)).st ≠ 0 ∧ v.grp (16 + j) ≠ u.grp (16 + j) then 1 else 0) d.ns := by
  rw [jackAccept_phones (run := decide ((s.jack j).auto ∧ u.inRun ∧ (u.grp (16 + j)).st ≠ 0)) (u := u) (v := v) hwaits hj
    (by rw [hout]; exact hu) (by simp [hout]) (by simp [hout]) (by simp [hout, Bool.and_assoc]) (by simpa [hout] using hv)]
  simp [b2n, and_assoc]

/-- An insertion accepted opens the mute, and powers an enabled group up where AUTO is set in Run (R289). -/
theorem jackAccept_inserted {u v : State} (hwaits : (s.jack j).waits = none) (hj : j < 2) (hin : d.toIn = true)
    (hhsdet : (s.jack j).hsdet = false) (hfault : (s.grp (16 + j)).fault ≠ some 6)
    (hu : hpMute j false (s.setJack j ((s.jack j).accepted d)) = u)
    (hv : (if (s.jack j).auto ∧ u.inRun ∧ (u.grp (16 + j)).en then outEnable (16 + j) 1 u else u) = v) :
    jackAccept j d s = v.jackEvent j
      (if (s.jack j).auto ∧ u.inRun ∧ (u.grp (16 + j)).en ∧ v.grp (16 + j) ≠ u.grp (16 + j) then 1 else 0) d.ns := by
  have hfault' : (u.grp (16 + j)).fault ≠ some 6 := by rw [← hu, hpMute_grp]; exact hfault
  rw [jackAccept_phones (run := decide ((s.jack j).auto ∧ u.inRun ∧ (u.grp (16 + j)).en)) (u := u) (v := v) hwaits hj
    (by rw [hin]; exact hu) (by simp [hfault']) (by simp [hhsdet]) (by simp [hin, Bool.and_assoc]) (by simpa [hin] using hv)]
  simp [b2n, and_assoc]

/-- What a dropped measurement leaves of its jack's settings, and of the groups. -/
theorem State.measureDrop_keeps (s : State) (j g : Nat) : ((s.measureDrop j).jack j).hsdet = (s.jack j).hsdet ∧
    ((s.measureDrop j).jack j).auto = (s.jack j).auto ∧ (s.measureDrop j).grp g = s.grp g := by
  unfold State.measureDrop
  cases (s.jack j).waits with
  | none => exact ⟨rfl, rfl, rfl⟩
  | some m =>
    simp only [State.jack_jackEvent, State.jack_setJack, State.grp_jackEvent, State.grp_setJack, and_self]

/-- An insertion accepted ends the headphone mute of the current limit (R275), with AUTO off and no measurement to begin. -/
theorem jackAccept_fault6 (hj : j < 2) (hin : d.toIn = true) (hhsdet : (s.jack j).hsdet = false) (hauto : (s.jack j).auto = false)
    (hfault : (s.grp (16 + j)).fault = some 6) :
    (jackAccept j d s).grp (16 + j) = { s.grp (16 + j) with hwMute := false, fault := none, latched := false } := by
  obtain ⟨hhsdet', hauto', hgrp⟩ := s.measureDrop_keeps j (16 + j)
  rw [hhsdet] at hhsdet'
  rw [hauto] at hauto'
  unfold jackAccept
  generalize s.measureDrop j = t at *
  have hmute : ∀ v : Jack, (hpMute j false (t.setJack j v)).grp (16 + j) = { s.grp (16 + j) with hwMute := false } := by
    intro v
    rw [hpMute_grp, State.grp_setJack, hgrp]
  simp only [if_neg (Nat.not_le_of_lt hj), hin, Bool.not_true, hmute, hfault, and_self, if_true, hauto', hhsdet', Bool.false_and,
    Bool.not_false, Bool.false_eq_true, and_false, if_false, State.grp_jackEvent, State.grp_setGrp]

end

/-- Settles O36: the edge on a jack that is off, on one of each kind, then the debounce's end and the end of a fault 6. -/
theorem jackDebounce : Obligations.JackDebounce := by
  unfold Obligations.JackDebounce
  intro dt j level s a b ha hj hlevel hb k deb
  have hjack : b.jack j = k := by rw [hb]; rfl
  have hwf : decide (j < 4) = true := decide_eq_true hj
  have hedge : exec (.jackEdge dt j level) s =
      .next (if !(b.jackUnit && b.jackEn j) then b else debounce j (edgeGlitch j (b.jackRead j) (edgeMute j b))).flush := by
    rw [exec_of_run (exec_jackEdge dt j level s) hwf ha, jackEdgeStep_moves hlevel hb.symm]
  have hedgeOn (hon : (b.jackUnit && b.jackEn j) = true) : exec (.jackEdge dt j level) s =
      .next (debounce j (edgeGlitch j (b.jackRead j) (edgeMute j b))).flush := by
    rw [hedge, hon]
    rfl
  have hexpire : exec (.jackDebounceExpire dt j) s = .next (jackExpireStep j a).flush :=
    exec_of_run (exec_jackDebounceExpire dt j s) hwf ha
  refine ⟨fun hoff => ?_, fun hon => ⟨fun hline hdeb => ?_, fun hphone hout hacc => ?_, fun d hphone hin hacc hdeb hd => ?_⟩,
    fun d hdeb hon => ⟨fun hclk => ?_, fun hclk => ?_⟩, fun x v hgrp hfault hphone d hin hhsdet hauto => ?_⟩
  · rw [hedge, hoff]; rfl
  · rw [hedgeOn hon, edge_line hline (by rw [hjack]; exact hdeb), hjack, hb]
    rfl
  · rw [hedgeOn hon, edge_removed hphone hout (by rw [hjack]; exact hacc), hjack, hb]
    rfl
  · rw [hedgeOn hon, edge_back hphone hin (by rw [hjack]; exact hacc) (by rw [hjack]; exact hdeb) hd,
      hjack, hb]
    rfl
  · rw [hexpire, jackExpireStep_early hdeb hon hclk]
  · intro q
    refine ⟨fun hacc => ?_, fun hacc hwaits hline => ?_, fun hacc hwaits hphone hout => ?_,
      fun hacc hwaits hphone hin hhsdet hfault => ?_⟩
    · rw [hexpire, jackExpireStep_glitch hdeb hon hclk hacc]
    · rw [hexpire, jackExpireStep_accepts hdeb hon hclk hacc, jackAccept_line hwaits hline]
      rfl
    · intro u v
      rw [hexpire, jackExpireStep_accepts hdeb hon hclk hacc, jackAccept_removed (u := u) (v := v) hwaits hphone hout rfl rfl]
    · intro u v
      rw [hexpire, jackExpireStep_accepts hdeb hon hclk hacc,
        jackAccept_inserted (u := u) (v := v) hwaits hphone hin hhsdet hfault rfl rfl]
  · rw [jackAccept_fault6 hphone hin hhsdet hauto (by rw [hgrp]; exact hfault)]
    exact ⟨rfl, rfl, rfl⟩

end Sys2Proof.Machine
end

section
/-! Headset measurements, and the polls of a headset's buttons. -/
namespace Sys2Proof.Machine
open Sys2Proof

@[simp] theorem State.jack_setGg (s : State) (c j : Nat) (v : Gauge) : (s.setGg c v).jack j = s.jack j := by
  unfold State.setGg
  split <;> rfl

@[simp] theorem State.jack_gaugeResume (s : State) (c j : Nat) : (gaugeResume c s).jack j = s.jack j := by
  simp only [gaugeResume]
  split
  · exact s.jack_setGg c j _
  · rfl

/-- What the jack unit's conversions leave on GB touches no jack. -/
@[simp] theorem State.jack_gbServed (s : State) (t j : Nat) : (gbServed t s).jack j = s.jack j := by
  simp only [gbServed, State.jack_gaugeResume, State.jack_setGg]

/-- HEADSET_MEASUREMENT_START: GB is free, and the measurement's turn has come. -/
theorem measureStartStep_turn {j : Nat} {s : State} {m : HsMeas} (hmeas : (s.jack j).meas = some m)
    (hturn : m.step = 0 ∧ m.at0 + 5000000 ≤ s.clk ∧ s.framing ∧ s.gaugeFree 1 ∧ s.gbJack = false ∧
      s.gbAhead (m.at0 + 5000000) = false ∧ s.gb.calGap s.clk) :
    measureStartStep j s = s.setJack j { s.jack j with meas := some { m with step := 1, at0 := s.clk } } := by
  unfold measureStartStep
  simp [hmeas, hturn]

/-- HEADSET_MEASURE_DONE gives the plug the class of the sum of the two currents, and raises the JACK event that waited for it. -/
theorem measureDoneStep_converts {j : Nat} {s : State} {m : HsMeas} (i1 i2 : Nat) (hmeas : (s.jack j).meas = some m)
    (hstep : m.step = 1) : measureDoneStep j i1 i2 s =
      (gbServed m.at0 (s.setJack j { s.jack j with
        meas := none, pollAt := s.clk, cls := hsClass (i1 + i2) (s.jack j).iShort,
        iMicb := min 0xFFFE ((i1 + i2 + 1) / 2) })).jackEvent j m.jflags m.ns := by
  unfold measureDoneStep
  simp only [hmeas, if_pos hstep]

/-- The range a poll falls in does not depend on when the poll was. -/
theorem Jack.pollKind_pollAt (k : Jack) (t i : Nat) : Jack.pollKind { k with pollAt := t } i = k.pollKind i := rfl

/-- BUTTON_POLL on a jack that is not polled, or before a poll's conversion can have ended. -/
theorem buttonPollStep_early {j i : Nat} {s : State} (h : s.polled j = false ∨ s.clk < (s.jack j).pollAt + 5250000) :
    buttonPollStep j i s = s := by
  have hnot : (!s.polled j || decide (s.clk < (s.jack j).pollAt + 5000000 + 250000)) = true := by
    rcases h with hoff | hclk
    · rw [hoff, Bool.not_false, Bool.true_or]
    · have hlate : s.clk < (s.jack j).pollAt + 5000000 + 250000 := by rw [Nat.add_assoc]; exact hclk
      rw [decide_eq_true hlate, Bool.or_true]
  exact if_pos (by rw [hnot, Bool.true_or])

section
variable {j i b : Nat} {s u : State} (hpolled : s.polled j = true) (hclk : (s.jack j).pollAt + 5250000 ≤ s.clk)
  (hturn : s.gbTurn (s.clk - 250000) = true)
  (hu : gbServed (s.clk - 250000)
    (s.setJack j { s.jack j with pollAt := nextPoll ((s.jack j).pollAt + 5000000) (s.clk - 250000) }) = u)

include hpolled hclk hturn in
theorem buttonPoll_turn :
    (!s.polled j || decide (s.clk < (s.jack j).pollAt + 5000000 + 250000) || !s.gbTurn (s.clk - 250000)) = false := by
  have hlate : ¬ s.clk < (s.jack j).pollAt + 5000000 + 250000 := by omega
  simp only [hpolled, hturn, hlate, decide_false, Bool.not_true, Bool.or_self]

include hpolled hclk hturn hu

/-- The fourth poll alike in a button's range presses the button. -/
theorem buttonPollStep_press (hkind : (u.jack j).pollKind i = some b) (hb : b < 4) (hcand : (u.jack j).cand = some b)
    (hnow : (u.jack j).btnNow = none) (hlen : (u.jack j).polls.length = 3) :
    buttonPollStep j i s =
      (u.setJack j { u.jack j with polls := (u.jack j).polls ++ [i], iMicb := min 0xFFFE i, btnNow := some b }).buttonEvent j b 1
        (meanOf ((u.jack j).polls ++ [i])) (u.jack j).firstPoll := by
  have hbutton : b ≠ 4 := by omega -- so the window band's cases do not apply
  unfold buttonPollStep
  simp only [buttonPoll_turn hpolled hclk hturn, Bool.false_eq_true, if_false, hu]
  simp [hkind, hcand, hnow, hlen]

/-- The second poll alike in the window band releases the button that is held. -/
theorem buttonPollStep_release (hkind : (u.jack j).pollKind i = some 4) (hcand : (u.jack j).cand = some 4)
    (hnow : (u.jack j).btnNow = some b) (hlen : (u.jack j).polls.length = 1) :
    buttonPollStep j i s =
      (u.setJack j { u.jack j with polls := (u.jack j).polls ++ [i], iMicb := min 0xFFFE i, btnNow := none }).buttonEvent j b 0
        (meanOf ((u.jack j).polls ++ [i])) (u.jack j).firstPoll := by
  unfold buttonPollStep
  simp only [buttonPoll_turn hpolled hclk hturn, Bool.false_eq_true, if_false, hu]
  simp [hkind, hcand, hnow, hlen]

end

/-- Settles O37: the measurement's start and its class, then a poll before its time, at the press and at the release. -/
theorem headsetMeasurementAndButtons : Obligations.HeadsetMeasurementAndButtons := by
  unfold Obligations.HeadsetMeasurementAndButtons
  intro dt j i1 i2 s a m ha hj
  have hwf : decide (j < 4) = true := decide_eq_true (by omega)
  refine ⟨fun hmeas hstep hbias hframing hfree hgb hahead hgap => ?_, fun hmeas hstep => ?_, fun hearly => ?_,
    fun b hpolled hclk hturn => ?_⟩
  · rw [exec_of_run (exec_headsetMeasurementStart dt j s) hwf ha,
      measureStartStep_turn hmeas ⟨hstep, hbias, hframing, hfree, hgb, hahead, hgap⟩]
  · rw [exec_of_run (exec_headsetMeasureDone dt j i1 i2 s) hwf ha, measureDoneStep_converts i1 i2 hmeas hstep]
    rfl
  · rw [exec_of_run (exec_buttonPoll dt j i1 s) hwf ha, buttonPollStep_early hearly]
  · intro at1 u
    have hjack : u.jack j = { a.jack j with pollAt := at1 } := (State.jack_gbServed _ _ _).trans (State.jack_setJack _ _ _)
    rw [exec_of_run (exec_buttonPoll dt j i1 s) hwf ha]
    refine ⟨fun hkind hb hcand hnow hlen => ?_, fun hkind hcand hnow hlen => ?_⟩
    · rw [buttonPollStep_press (u := u) hpolled hclk hturn rfl (by rw [hjack, Jack.pollKind_pollAt, hkind]) hb (by rw [hjack, hcand])
        (by rw [hjack, hnow]) (by rw [hjack, hlen]), hjack]
    · rw [buttonPollStep_release (u := u) hpolled hclk hturn rfl (by rw [hjack, Jack.pollKind_pollAt, hkind]) (by rw [hjack, hcand])
        (by rw [hjack, hnow]) (by rw [hjack, hlen]), hjack]

end Sys2Proof.Machine
end

section
/-! Media streams: the last port of a due packet, the arrival of a datagram, and the report of a stream's state. -/
namespace Sys2Proof.Machine
open Sys2Proof

theorem txPacketStep_none {p st : Nat} {s : State} (h : (s.txs st).due = []) : txPacketStep p st s = s := by
  unfold txPacketStep
  simp only [h, List.find?_nil]

/-- The one packet due, on the last of its ports and in its turn, leaves an up port, counted for its stream and for the port; on one
that is down it is skipped (R315, R317, R327). -/
theorem txPacketStep_last {p st : Nat} {k : TxPkt} {s : State} (hdue : (s.txs st).due = [k]) (hport : bit k.ports p = true)
    (hturn : (s.tx.any fun e => decide (e.1 < st) && e.2.due.any fun x => bit x.ports p) = false) (hlast : k.ports = 2 ^ p)
    (hcfg : (s.txs st).cfg.isSome = true) : txPacketStep p st s =
      if s.portUp p then
        (s.setTx st { s.txs st with due := [], pkts := if k.old then (s.txs st).pkts else satInc 31 (s.txs st).pkts }).setNet p
          { s.netP p with txOk := satInc 31 (s.netP p).txOk, txMedia := satInc 31 (s.netP p).txMedia,
                          lastTx := pad60 (k.frame (s.netP p) s.tm.rate k.k) }
      else s.setTx st { s.txs st with due := [], skip := if k.old then (s.txs st).skip else satInc 31 (s.txs st).skip } := by
  have hfind : (s.txs st).due.find? (fun k => bit k.ports p) = some k := by
    rw [hdue]; exact List.find?_cons_of_pos hport
  have hkept : (s.txs st).cfg.isNone = false := by
    obtain ⟨c, hc⟩ := Option.isSome_iff_exists.mp hcfg
    rw [hc]; rfl
  have hgone : (s.txs st).due.erase k = [] := by rw [hdue, List.erase_cons_head]
  unfold txPacketStep
  simp only [hfind, hturn, hlast, Nat.sub_self, hgone, hkept, if_true, Bool.and_false, Bool.false_and, Bool.false_eq_true, if_false]
  cases s.portUp p <;> cases k.old <;> rfl

@[simp] theorem State.setRx_setRx (s : State) (i : Nat) (v w : Rx) : (s.setRx i v).setRx i w = s.setRx i w := by
  simp only [State.setRx, tset_tset]

/-- A stream whose state is the one last reported raises nothing. -/
theorem rxReport_same {i : Nat} {s : State} (hst : (s.rxs i).st = (s.rxs i).repSt) (hpaths : (s.rxs i).paths = (s.rxs i).repPaths) :
    rxReport i s = s := by
  unfold rxReport
  simp only [hst, hpaths, ne_eq, not_true_eq_false, decide_false, Bool.or_self, Bool.false_and, Bool.false_eq_true, if_false]

/-- A new state is reported at once where the stream has raised no event before (R337, R596). -/
theorem rxReport_first {i : Nat} {s : State} (hst : (s.rxs i).st ≠ (s.rxs i).repSt)
    (hfirst : tget? s.evLast (0x703 * 65536 + i) = none) : rxReport i s = s.rxEvent i := by
  unfold rxReport
  simp only [hfirst, decide_eq_true hst, Bool.true_or, Bool.and_self, if_true]

/-- A datagram whose UDP checksum is wrong counts as BAD_FMT and does nothing else (R317). -/
theorem rxPacket_badSum (i p : Nat) (c : RxCfg) (d : List Byte) (arr : Nat) (s : State) :
    rxPacket i p c false d arr s = s.setRx i { s.rxs i with badFmt := satInc 31 (s.rxs i).badFmt } := by
  unfold rxPacket
  cases rtpPayload d with
  | none => rfl
  | some b => simp only [Bool.not_false, Bool.true_or, if_true]

section
variable {st lim : Nat} {r : Rx} {c : RxCfg} {y : RxFly} {s : State} (hrx : s.rx = [(st, r)]) (hfly : r.fly = [y])
include hrx

theorem State.rxs_alone : s.rxs st = r := by
  unfold State.rxs
  rw [hrx]
  exact if_pos rfl

include hfly

/-- A datagram of the one stream that is still under way stays so. -/
theorem rxLands_later (harr : lim ≤ y.arr) : rxLands lim s = s := by
  have hnot : decide (y.arr < lim) = false := decide_eq_false (Nat.not_lt_of_le harr)
  unfold rxLands forEach
  simp only [hrx, List.map_cons, List.map_nil, List.foldl_cons, List.foldl_nil, State.rxs_alone hrx, hfly]
  simp [hnot, sortBy]

/-- One that has arrived is taken off the wire and checked (R320; log 141). -/
theorem rxLands_arrived (hcfg : r.cfg = some c) (harr : y.arr < lim) (hport : bit c.ports y.port = true) :
    rxLands lim s = rxPacket st y.port c y.sumOk y.data y.arr (s.setRx st { r with fly := [] }) := by
  have hdue : sortBy (·.arr) (r.fly.filter fun y => decide (y.arr < lim)) = [y] := by
    simp only [hfly, List.filter_cons, decide_eq_true harr, if_true, List.filter_nil]; rfl
  have hleft : (r.fly.filter fun y => !decide (y.arr < lim)) = [] := by
    simp only [hfly, List.filter_cons, decide_eq_true harr, Bool.not_true, Bool.false_eq_true, if_false, List.filter_nil]
  unfold rxLands forEach
  simp only [hrx, List.map_cons, List.map_nil, List.foldl_cons, List.foldl_nil, State.rxs_alone hrx, hdue, hleft,
    State.rxs_setRx, hcfg, hport, List.isEmpty_cons, Bool.false_eq_true, if_false, if_true]

end

/-- Settles O51: the packet due, the three rows of a receiving stream, then the arrival of its datagram. -/
theorem streamsSendAndTimeOut : Obligations.StreamsSendAndTimeOut := by
  unfold Obligations.StreamsSendAndTimeOut
  intro dt p st s a ha hp hst
  have hwf : decide (st < 128) = true := decide_eq_true hst
  have hrow : exec (.txMediaPacket dt p st) s = .next (txPacketStep p st a).flush :=
    exec_of_run (exec_txMediaPacket dt p st s) (Bool.and_eq_true_iff.mpr ⟨decide_eq_true hp, hwf⟩) ha
  refine ⟨fun k hdue hport hturn hlast hcfg => ⟨fun hup => ?_, fun hup => ?_⟩, fun hdue => ?_, ?receive,
    fun c y lim r hrx hcfg hfly => ⟨rxLands_later hrx hfly, fun harr hport => ?_⟩⟩
  · rw [hrow, txPacketStep_last hdue hport hturn hlast hcfg, if_neg (by rw [hup]; exact Bool.false_ne_true)]
  · rw [hrow, txPacketStep_last hdue hport hturn hlast hcfg, if_pos hup]
  · rw [hrow, txPacketStep_none hdue]
  case receive =>
    intro b r
    refine ⟨?_, ?_, fun hst hpaths => ?_, fun hst hfirst => ?_⟩
    · rw [exec_of_run (exec_rxNoSignal dt st s) hwf ha, rxNoSignalStep]
    · rw [exec_of_run (exec_rxPathTimeout dt st p s) (Bool.and_eq_true_iff.mpr ⟨hwf, decide_eq_true hp⟩) ha, rxPathTimeoutStep]
    · rw [exec_of_run (exec_rxStream dt st s) hwf ha, rxReport_same hst hpaths]
    · rw [exec_of_run (exec_rxStream dt st s) hwf ha, rxReport_first hst hfirst]
  · have hland := rxLands_arrived hrx hfly hcfg harr hport
    refine ⟨hland, fun hsum => ?_⟩
    rw [hland, hsum, rxPacket_badSum, State.rxs_setRx, State.setRx_setRx]

end Sys2Proof.Machine
end

section
/-! The network: received frames row by row, host slots, frames that leave, links, and the events of Fjarord. -/
namespace Sys2Proof.Machine
open Sys2Proof

section
variable {p : Nat} {f : List Byte} {s : State}

theorem ethRxStep_down (ok : Bool) (hup : s.portUp p = false) : ethRxStep p f ok s = s := by
  unfold ethRxStep
  simp only [hup, Bool.not_false, Bool.true_or, if_true]

section
variable (hup : s.portUp p = true) (hpresent : (s.isSmall && decide (p = 1)) = false)
include hup hpresent

theorem ethRxStep_error : ethRxStep p f false s = s.rxCount p fun n => { n with rxErr := satInc 31 n.rxErr } := by
  unfold ethRxStep
  simp only [hup, hpresent, Bool.not_true, Bool.not_false, Bool.or_self, Bool.true_or, Bool.false_eq_true, if_false, if_true]

variable (hlen : f.length + 4 ≤ (s.netP p).mtu)
include hlen

theorem ethRxStep_pause (hflow : flowControl f = true) :
    ethRxStep p f true s = s.rxCount p fun n => { n with rxPause := satInc 31 n.rxPause } := by
  have hfits : decide ((s.netP p).mtu < f.length + 4) = false := decide_eq_false (Nat.not_lt_of_le hlen)
  unfold ethRxStep
  simp only [hup, hpresent, hfits, hflow, Bool.not_true, Bool.or_self, Bool.false_eq_true, if_false, if_true]

/-- A frame that neither PROMISC, the port's address, broadcast nor a filter entry lets pass counts as RX_UNMATCHED (R309 row 3). -/
theorem ethRxStep_unmatched (hflow : flowControl f = false) (hprom : bit (s.netP p).nfl 3 = false)
    (hmac : (ethOf f).dst ≠ (s.netP p).mac) (hbcast : (ethOf f).dst ≠ 0xFFFFFFFFFFFF) (hfilter : (ethOf f).dst ∉ s.filters p) :
    ethRxStep p f true s = s.rxCount p fun n => { n with rxUnmatched := satInc 31 n.rxUnmatched } := by
  have hfits : decide ((s.netP p).mtu < f.length + 4) = false := decide_eq_false (Nat.not_lt_of_le hlen)
  have hmiss : (s.filters p).contains (ethOf f).dst = false := by simpa using hfilter
  unfold ethRxStep
  simp only [hup, hpresent, hfits, hflow, hprom, decide_eq_false hmac, decide_eq_false hbcast, hmiss, Bool.not_true, Bool.not_false,
    Bool.and_self, Bool.or_self, Bool.false_eq_true, if_false, if_true]

end

/-- A frame of a tracker goes to it (R309 row 4). -/
theorem ethRxStep_ptp {l2 : Bool} {m : List Byte} {t : Nat} (hpass : s.rxPasses p f = true)
    (hptp : ptpOf (ethOf f) f = some (l2, m)) (howner : s.ptpOwner p l2 m = some t) :
    ethRxStep p f true s = ptpRx t m (s.rxCount p fun n => { n with rxOk := satInc 31 n.rxOk }) := by
  rw [ethRx_passes hpass, hptp]
  simp only [howner]

section
variable {e : Eth} {ip : Ip4} {u : Udp} (hip : ip4Of f = some ip) (hudp : udpOf ip = some u)
include hip hudp

/-- A datagram of a stream is on its way to it for its wire time and 2 µs (R309 row 5, R320). -/
theorem rxIp_stream {i : Nat} {c : RxCfg} (hmatch : s.rxMatch p ip u = some (i, c)) : rxIp p e f s =
    (s.rxCount p fun n => { n with rxMedia := satInc 31 n.rxMedia }).setRx i { s.rxs i with fly := (s.rxs i).fly ++
      [{ arr := s.clk + (max 64 (f.length + 4) + 20) * 8 * 1000000000 / max 1 (speedBps (s.netP p).speed) + 2000, port := p,
         sumOk := u.sumOk, data := u.data }] } := by
  unfold rxIp
  simp only [hip, hudp, hmatch]
  unfold rxTake State.rxCount
  rw [State.netP_setNet]
  rfl

/-- A datagram for the Fjarord port that is no stream's goes there (R309 row 6). -/
theorem rxIp_fjarord (hmatch : s.rxMatch p ip u = none) (hport : s.fjPort p ip u = true) : rxIp p e f s =
    fjRx p e.src ip.src u.sport u.data (s.rxCount p fun n => { n with rxOk := satInc 31 n.rxOk }) := by
  simp only [State.fjPort, Bool.and_eq_true, Bool.or_eq_true, decide_eq_true_eq] at hport
  unfold rxIp
  simp only [hip, hudp, hmatch, if_pos hport]

end

/-- With Fjarord off a datagram to its port counts as FJ_BAD (R538). -/
theorem fjRx_off {mac ip udp : Nat} {d : List Byte} (h : bit s.pc.fjFl 0 = false) : fjRx p mac ip udp d s = { s with pc := s.pc.bad } := by
  unfold fjRx
  simp only [h, Bool.not_false, Bool.true_or, if_true]

/-- A frame that a port sends leaves its settings as they are. -/
theorem State.sendFrame_nfl (s : State) (p : Nat) (f : List Byte) : ((s.sendFrame p f).netP p).nfl = (s.netP p).nfl := by
  unfold State.sendFrame
  split
  · dsimp only
    rw [State.netP_setNet]
  · rfl

theorem State.fwEth_nfl (s : State) (p dst etype : Nat) (body : List Byte) :
    ((s.fwEth p dst etype body).netP p).nfl = (s.netP p).nfl :=
  s.sendFrame_nfl _ _

theorem State.fwIp_nfl (s : State) (p dstMac dst proto ttl dscp : Nat) (opts body : List Byte) :
    ((s.fwIp p dstMac dst proto ttl dscp opts body).netP p).nfl = (s.netP p).nfl :=
  s.fwEth_nfl _ _ _ _

theorem Net.echoed_nfl (n : Net) (clk : Nat) : (n.echoed clk).nfl = n.nfl := by
  unfold Net.echoed; split <;> rfl

/-- A frame to the port's own address that is no IGMP message is the host's (R309 row 10). -/
theorem rxHostRow_own {e : Eth} (hmac : macGroup e.dst = false) : rxHostRow p e f s = hostRx p f false s := by
  unfold rxHostRow
  simp only [hmac, Bool.false_and, Bool.false_eq_true, if_false]

theorem hostRx_full (answered : Bool) (hfull : s.slotFull s.ring = true) : hostRx p f answered s =
    s.setNet p { s.netP p with rxHostDrop := satInc 31 (s.netP p).rxHostDrop } := by
  unfold hostRx
  simp only [hfull, if_true]

/-- A frame for the host fills the next slot, and is announced where the slot before it is free (R331, R332). -/
theorem hostRx_slot (answered : Bool) (hfree : s.slotFull s.ring = false) : hostRx p f answered s =
    let d := le 2 f.length ++ le 1 p ++ le 1 (flags [true, (ethOf f).tagged, answered]) ++ le 4 0 ++ le 8 s.nowNs ++
      le 2 (s.tm.devT % 65536) ++ le 2 0 ++ le 4 s.frame32 ++ le 8 0 ++ f
    let b := ({ s with ring := (s.ring + 1) % s.nSlots, mem := mwrites s.mem (s.slotBase s.ring) d } : State).setNet p
      { s.netP p with rxHost := satInc 31 (s.netP p).rxHost }
    if s.slotFull (if s.ring = 0 then s.nSlots - 1 else s.ring - 1) then b else b.raise 0x702 (le 1 s.ring ++ le 3 0) := by
  unfold hostRx
  simp only [hfree, Bool.false_eq_true, if_false]

/-- The first IGMP job, once due, leaves (R325). -/
theorem igmpSendStep_first {j : IgmpJob} {r : List IgmpJob} (hjobs : (s.netP p).igmp = j :: r) (hdue : j.due ≤ s.clk) :
    igmpSendStep p s =
      let dst := if bit (s.netP p).nfl 2 then 0xE0000016 else if j.kind = 2 then 0xE0000002 else j.group
      (s.setNet p { s.netP p with igmp := r }).fwIp p (mcastMac dst) dst 2 1 (s.netP p).dscp (be 4 0x94040000)
        (if bit (s.netP p).nfl 2 then igmp3 j else igmp2 j) := by
  have hfirst : (s.netP p).igmp.find? (fun j => decide (j.due ≤ s.clk)) = some j := by
    rw [hjobs]; exact List.find?_cons_of_pos (decide_eq_true hdue)
  have hrest : (s.netP p).igmp.erase j = r := by rw [hjobs, List.erase_cons_head]
  unfold igmpSendStep
  simp only [hfirst, hrest]

/-- The first host frame leaves an up port with no media packet due (R336, R348). -/
theorem hostDepartStep_first {h : HostTx} {r : List HostTx} (hq : (s.netP p).txq = h :: r) (hup : s.portUp p = true)
    (hmedia : s.mediaDue p = false) : hostDepartStep p s =
      let g := pad60 (mreads s.mem (0x1A0000 + h.wofs) h.len)
      (s.setNet p { s.netP p with txq := r, txOk := satInc 31 (s.netP p).txOk, txHost := satInc 31 (s.netP p).txHost,
                                  lastTx := if h.stamp then stampFrame g h s else g }).finishOk
        h.id (le 8 s.nowNs ++ le 2 (s.tm.devT % 65536) ++ le 2 0 ++ le 4 s.frame32) s.nowNs := by
  unfold hostDepartStep
  simp only [hq, hup, hmedia, Bool.not_true, Bool.or_self, Bool.false_eq_true, if_false]

section
variable {speed : Nat} {an rf : Bool}

theorem linkChangeStep_off (hoff : (s.netP p).nmode = 0) : linkChangeStep p speed an rf s = s := by
  unfold linkChangeStep
  simp only [hoff, ne_eq, not_true_eq_false, decide_false, Bool.and_false, Bool.not_false, if_true]

/-- A link that is up and goes down loses what it carried, and is announced (R337, R339, R348). -/
theorem linkDown_eq (p : Nat) (s : State) : linkDown p s = if (s.netP p).up = false then s else
    (hostFramesLost p (s.setNet p { s.netP p with
      up := false, speed := 0, an := false, rf := false, linkFr := s.frame32, held := 0,
      linkDown := satInc 31 (s.netP p).linkDown })).netLink p := by
  unfold linkDown
  simp only [Bool.not_eq_true']

variable (hframing : s.framing = true) (hpresent : p < s.nPort) (hon : (s.netP p).nmode ≠ 0)
include hframing hpresent hon

theorem linkChangeStep_down : linkChangeStep p 0 an rf s = linkDown p s := by
  unfold linkChangeStep
  simp only [hframing, decide_eq_true hpresent, decide_eq_true hon, Bool.and_self, Bool.not_true, Bool.false_eq_true, if_false, if_true]

/-- A link that comes up at a rate of its mode is announced; without an address there is no ARP request (R307, R337). -/
theorem linkChangeStep_up (hspeed : speed ≠ 0) (hrate : (s.netP p).rates.contains speed = true) (hdown : (s.netP p).up = false)
    (hip : (s.netP p).ipv4 = 0) {b : State} (hb : b = s.setNet p { s.netP p with
      up := true, speed := speed, an := an && bit (s.netP p).nfl 0 && decide ((s.netP p).nmode ≠ 1), rf := rf, linkFr := s.frame32 }) :
    linkChangeStep p speed an rf s = (b.setNet p { b.netP p with held := b.heldCount p }).netLink p := by
  rw [hb]
  unfold linkChangeStep
  simp only [hframing, decide_eq_true hpresent, decide_eq_true hon, hspeed, hrate, hdown, hip, Bool.and_self, Bool.not_true,
    Bool.false_eq_true, false_and, or_true, if_false, if_true]

end

/-- A port that is off runs at no rate. -/
theorem Net.rates_off {n : Net} (h : n.nmode = 0) : n.rates = [] := by
  unfold Net.rates
  simp only [h]

/-- FJARORD_EVENT_SEND sends the oldest event of Fjarord where there is an address to send to (R544). -/
theorem fjEventStep_sends {q port : Nat} {r : Rec} {rest : List Rec} {b : State} (hqueue : s.eventQueue 2 = some q)
    (hport : s.fjEventPort = some port) (hwait : (s.queue q).waitRecs = r :: rest) (haddr : s.pc.evtIp ≠ 0)
    (hsend : s.fjSend port (ipMac s.freeCtr s.pc.evtIp) s.pc.evtIp s.pc.evtUdp 4 0xFFFF (b2n (bit s.pc.fjFl 2)) q r = some b) :
    fjEventStep s = (b.setQueue q { b.queue q with waitRecs := rest }).bump := by
  unfold fjEventStep
  simp only [hqueue, hport, hwait, haddr, hsend, if_false]

end

/-- Settles O50: the frames that are counted, those that pass, the host's slots, then what a port sends, its link and Fjarord. -/
theorem portsCarryTheirFrames : Obligations.PortsCarryTheirFrames := by
  unfold Obligations.PortsCarryTheirFrames
  intro dt p speed an rf f s a ha hp hspeed
  have hwf : decide (p < 2) = true := decide_eq_true hp
  have hrx : ∀ ok, exec (.ethFrameRx dt p f ok) s = .next (ethRxStep p f ok a).flush :=
    fun ok => exec_of_run (exec_ethFrameRx dt p f ok s) hwf ha
  have hlink : ∀ v, v < 7 → exec (.linkChange dt p v an rf) s = .next (ttChecks (linkChangeStep p v an rf a)).flush :=
    fun v hv => exec_of_run (f := fun x => ttChecks (linkChangeStep p v an rf x)) (exec_linkChange dt p v an rf s) (Bool.and_eq_true_iff.mpr ⟨hwf, decide_eq_true hv⟩) ha
  refine ⟨fun hup hpresent => ⟨?_, fun hlen hflow => ?_, fun hlen hflow hprom hmac hbcast hfilter => ?_⟩, fun hup => ?_, ?passes,
    fun answered => ⟨hostRx_full answered, hostRx_slot answered⟩, fun j r hjobs hdue => ?_, fun h r hq hup hmedia => ?_,
    fun hoff => ?_, fun hframing hport hon => ?_, fun hframing hport hne hrate hdown hip => ?_,
    fun q port r rest b hqueue hport hwait haddr hsend => ?_⟩
  · rw [hrx, ethRxStep_error hup hpresent]
  · rw [hrx, ethRxStep_pause hup hpresent hlen hflow]
  · rw [hrx, ethRxStep_unmatched hup hpresent hlen hflow hprom hmac hbcast hfilter]
  · rw [hrx, ethRxStep_down true hup]
  case passes =>
    intro hpass n b
    refine ⟨fun l2 m t hptp howner => ?_, fun ip u hplain hip hudp => ⟨fun i c hmatch => ?_, fun hmatch hport => ⟨?_, fun hoff => ?_⟩⟩,
      fun hleft => ?left⟩
    · rw [hrx, ethRxStep_ptp hpass hptp howner]
    · rw [hrx, ethRx_plain hpass hplain, rxIp_stream hip hudp hmatch]
    · rw [hrx, ethRx_plain hpass hplain, rxIp_fjarord hip hudp hmatch hport]
    · rw [hrx, ethRx_plain hpass hplain, rxIp_fjarord hip hudp hmatch hport, fjRx_off (s := a.rxCount p _) hoff]
      rfl
    case left =>
      intro kept
      refine ⟨fun mac body harp => ?_, fun harp => ⟨fun ip body hecho hroom => ?_, fun hecho => ⟨?query, fun hother hown hmac => ?_⟩⟩⟩
      · rw [hrx, ethRx_left hpass hleft, rxLocal_arp harp, rxAnswered, State.fwEth_nfl]
      · rw [hrx, ethRx_left hpass hleft, rxLocal_other harp, rxEcho_answered hecho hroom, rxAnswered, State.fwIp_nfl,
          State.netP_setNet, Net.echoed_nfl]
      case query =>
        intro ip hip hproto hlen htype
        rw [hrx, ethRx_left hpass hleft, rxLocal_other harp, rxEcho_other hecho, rxRest_query hip hproto hlen htype]
      · rw [hrx, ethRx_left hpass hleft, rxLocal_other harp, rxEcho_other hecho, rxRest_host hother, rxHostRow_own (by rw [hown, hmac])]
  · rw [exec_of_run (exec_igmpReportSend dt p s) hwf ha, igmpSendStep_first hjobs hdue]
  · rw [exec_of_run (exec_hostFrameDepart dt p s) hwf ha, hostDepartStep_first hq hup hmedia]
  · rw [hlink speed hspeed, linkChangeStep_off hoff]
  · rw [hlink 0 (by omega), linkChangeStep_down hframing hport hon, linkDown_eq]
  · have hon : (a.netP p).nmode ≠ 0 := fun hoff => by rw [Net.rates_off hoff] at hrate; cases hrate
    rw [hlink speed hspeed, linkChangeStep_up hframing hport hon hne hrate hdown hip rfl]
  · rw [exec_of_run (exec_fjarordEventSend dt s) rfl ha, fjEventStep_sends hqueue hport hwait haddr hsend]

end Sys2Proof.Machine
end

section
/-! Clock outputs, serial ports and the channels of the converter. -/
namespace Sys2Proof.Machine
open Sys2Proof

@[simp] theorem State.setTp_setTp (s : State) (p : Nat) (v w : Tp) : (s.setTp p v).setTp p w = s.setTp p w := by
  simp only [State.setTp, tset_tset]

theorem ckoApplyStep_dirty {k : Nat} {s : State} (h : (s.cko k).dirty = true) :
    ckoApplyStep k s = s.setCko k { s.cko k with now := (s.cko k).cfg, dirty := false } := by
  unfold ckoApplyStep
  rw [if_pos h]

theorem ckoApplyStep_clean {k : Nat} {s : State} (h : (s.cko k).dirty = false) : ckoApplyStep k s = s := by
  unfold ckoApplyStep
  rw [if_neg (by rw [h]; exact Bool.false_ne_true)]

/-- The age of the newest port frame half a frame old or older, else that of the one that ended at clk e: what the input deadline is
centred on (R429). -/
def State.newestAge (s : State) (p e : Nat) : Nat :=
  (((s.tp p).frames.find? fun f => decide (f.1 + s.frameNs / 2 ≤ s.clk)).map fun f => s.clk - f.1).getD (s.clk - e)

section
variable {p mhz : Nat} {slots : List Nat} {valid : Bool} {s : State}

theorem tpClockLossStep_slave (hrole : (s.tp p).role = 0) (hst : (s.tp p).st ≠ 0) :
    tpClockLossStep p s = (s.setTp p { s.tp p with good := 0, bad := 0, clkOk := false, mhz := 0 }).tpTo p 1 := by
  unfold tpClockLossStep
  simp only [hrole, hst, Nat.zero_ne_one, or_self, if_false]

theorem tpClockLossStep_none (h : (s.tp p).role = 1 ∨ (s.tp p).st = 0) : tpClockLossStep p s = s := by
  unfold tpClockLossStep
  simp only [h, if_true]

theorem tpFrameStep_none (h : (s.tp p).st = 0 ∨ (s.tp p).st = 3 ∨ (s.tp p).st = 4) : tpFrameStep p slots valid mhz s = s := by
  unfold tpFrameStep
  simp only [h, if_true]

/-- A slave port after it has counted a port frame: `near` tells that its rate is within its bound, `ck` whether the rate is that of a
clock near the base rate, which a valid frame shows (R431, R439). -/
def Tp.counted (t : Tp) (valid near ck : Bool) (mhz : Nat) : Tp :=
  { t with good := if valid && near then min 8 (t.good + 1) else 0, bad := if valid then 0 else min 4 (t.bad + 1), mhz := mhz,
           clkOk := valid && ck, ferr := if valid then t.ferr else satInc 31 t.ferr }

theorem Tp.counted_near (t : Tp) (ck : Bool) (mhz : Nat) : t.counted true true ck mhz =
    { t with good := min 8 (t.good + 1), bad := 0, mhz := mhz, clkOk := ck } := rfl

theorem Tp.counted_far (t : Tp) (ck : Bool) (mhz : Nat) : t.counted true false ck mhz =
    { t with good := 0, bad := 0, mhz := mhz, clkOk := ck } := rfl

theorem Tp.counted_error (t : Tp) (near ck : Bool) (mhz : Nat) : t.counted false near ck mhz =
    { t with good := 0, bad := min 4 (t.bad + 1), mhz := mhz, clkOk := false, ferr := satInc 31 t.ferr } := rfl

theorem Tp.samples_valid (t : Tp) (slots : List Nat) : t.samples slots true = (List.range 16).map fun i =>
    if bit t.inMask i ∧ i < t.nslot then slotIn t.width (slots.getD i 0) else 0 := by
  unfold Tp.samples
  simp only [Bool.true_and, Bool.and_eq_true, decide_eq_true_eq]

theorem Tp.samples_error (t : Tp) (slots : List Nat) : t.samples slots false = List.replicate 16 0 := by
  unfold Tp.samples
  simp only [Bool.false_and, Bool.false_eq_true, if_false, List.map_const', List.length_range]

section
variable {near : Bool} (hrole : (s.tp p).role = 0)
  (hnear : (if (s.tp p).clk = 1 then rateNear mhz (s.tp p).prate 65 else s.nearBase mhz) = near)
include hrole hnear

section
variable {c : Tp} (hc : (s.tp p).counted valid near (rateNear mhz s.tm.rate 60) mhz = c)
include hc

/-- A port frame counts for a slave port that waits, and for one that runs, which also takes its samples. -/
theorem tpFrameStep_slave {x : List Int} (hx : (s.tp p).samples slots valid = x) (hst : (s.tp p).st = 1 ∨ (s.tp p).st = 2) :
    tpFrameStep p slots valid mhz s =
      if (s.tp p).st = 1 then (if c.good = 8 then (s.setTp p c).tpTo p 2 else s.setTp p c)
      else if c.bad = 4 ∨ (valid = true ∧ near = false) then (s.setTp p c).tpTo p 1
      else tpOutput p (asrcFeed 0 p (((s.tp p).frames.head?.map (·.1)).getD (s.clk - 1000000000000 / max 1 mhz)) x
        (s.setTp p { c with frames := (s.clk, x) :: (s.tp p).frames.take 3 })) := by
  have hserved : ¬ ((s.tp p).st = 0 ∨ (s.tp p).st = 3 ∨ (s.tp p).st = 4) := by omega
  have hslave : decide ((s.tp p).role = 1) = false := decide_eq_false (by omega)
  rw [← hc, ← hx]
  unfold tpFrameStep
  extract_lets t ok near1 good bad c1 s1 x1 start s2
  rw [if_neg hserved]
  have hok : ok = valid := by simp only [ok, t, hslave, Bool.or_false]
  have hnear1 : near1 = near := by simp only [near1, t, hslave, Bool.false_or, hnear]
  have hcount : c1 = (s.tp p).counted valid near (rateNear mhz s.tm.rate 60) mhz := by
    simp only [c1, good, bad, hok, hnear1]; rfl
  have hgood : good = ((s.tp p).counted valid near (rateNear mhz s.tm.rate 60) mhz).good := congrArg Tp.good hcount
  have hbad : bad = ((s.tp p).counted valid near (rateNear mhz s.tm.rate 60) mhz).bad := congrArg Tp.bad hcount
  have hsamples : x1 = (s.tp p).samples slots valid := by simp only [x1, hok, hcount]; rfl
  simp only [s2, start, s1, hsamples, hcount, hok, hnear1, hgood, hbad, State.setTp_setTp, Bool.not_eq_true']
  rfl

/-- One that waits runs from its eighth good frame in a row on (R431). -/
theorem tpFrameStep_waiting (hst : (s.tp p).st = 1) :
    tpFrameStep p slots valid mhz s = if c.good = 8 then (s.setTp p c).tpTo p 2 else s.setTp p c := by
  rw [tpFrameStep_slave hrole hnear hc rfl (.inl hst), if_pos hst]

/-- One that runs waits again after the fourth frame in error or off its rate, and takes every other frame (R431). -/
theorem tpFrameStep_running {x : List Int} (hx : (s.tp p).samples slots valid = x) (hst : (s.tp p).st = 2) :
    tpFrameStep p slots valid mhz s =
      if c.bad = 4 ∨ (valid = true ∧ near = false) then (s.setTp p c).tpTo p 1
      else tpOutput p (asrcFeed 0 p (((s.tp p).frames.head?.map (·.1)).getD (s.clk - 1000000000000 / max 1 mhz)) x
        (s.setTp p { c with frames := (s.clk, x) :: (s.tp p).frames.take 3 })) := by
  rw [tpFrameStep_slave hrole hnear hc hx (.inr hst), if_neg (by omega)]

end

end

theorem EventsOnly.tps {s t : State} (h : EventsOnly s t) : t.tps = s.tps := by
  obtain ⟨_, _, _, _, _, _, _, rfl⟩ := h; rfl

/-- A slip counts, and the output's deadline is centred anew (R430). -/
theorem tpSlip_tp (kind : Nat) : (tpSlip p kind s).tp p = { s.tp p with slip := satInc 31 (s.tp p).slip, outAge := none } := by
  unfold tpSlip State.tp
  rw [(EventsOnly.raiseLim _ _ _ _ _).tps]
  exact State.tp_setTp _ _ _

section
variable {d u e : Nat} {smp : List Int} (hst : (s.tp p).st = 2) (hrole : (s.tp p).role = 0) (hclk : (s.tp p).clk = 0)
  (hage : (s.tp p).inAge = some d) (hused : (s.tp p).used = some u)
  (hfind : (s.tp p).frames.find? (fun f => decide (f.1 + d ≤ s.clk)) = some (e, smp))
include hst hrole hclk hage hused hfind

/-- The latch of a running slave port takes the newest port frame older than its deadline; one that it has taken before, or one that
passes over another, is a slip (R429, R430). -/
theorem tpLatch_slave : ∃ v : Tp, v.inNow = smp ∧ v.slip = (s.tp p).slip ∧ tpLatch p s =
    if u = e then tpSlip p 0 (s.setTp p v)
    else if (s.tp p).frames.any (fun f => decide (u < f.1) && decide (f.1 < e)) then tpSlip p 1 (s.setTp p v)
    else s.setTp p { s.tp p with inNow := smp, used := some e, inLag := s.clk - e + s.frameNs } := by
  refine ⟨{ s.tp p with inNow := smp, used := none, inLag := s.newestAge p e + s.frameNs,
                        inAge := some (s.newestAge p e - s.frameNs / 2) }, rfl, rfl, ?_⟩
  have hlatches : ¬ ((s.tp p).st ≠ 2 ∨ (s.tp p).clk = 1) := by omega
  have hslave : ¬ (s.tp p).role = 1 := by omega
  unfold tpLatch
  simp only [if_neg hlatches, if_neg hslave, hage, hused, Option.getD_some, hfind, Option.isNone_some, Bool.false_or]
  by_cases hagain : u = e
  · simp only [hagain, if_true, Option.isSome_some]
    rfl
  · simp only [hagain, if_false]
    cases (s.tp p).frames.any fun f => decide (u < f.1) && decide (f.1 < e) <;> rfl

end

end

/-! Channels of the converter. -/

theorem ratioOk_iff {r : Nat} : ratioOk r = true ↔ 0x400000 ≤ r ∧ r ≤ 0x4000000 := by
  unfold ratioOk
  simp only [Bool.and_eq_true, decide_eq_true_eq]

theorem asrcLockStep_locks {ch ratio : Nat} {s : State} (hst : (s.asr ch).st = 1) (hratio : 0x400000 ≤ ratio ∧ ratio ≤ 0x4000000) :
    asrcLockStep ch ratio s = (s.setAsr ch { s.asr ch with ratio := ratio }).asrTo ch 2 := by
  unfold asrcLockStep
  exact if_pos ⟨hst, ratioOk_iff.mpr hratio⟩

theorem asrcLockStep_none {ch ratio : Nat} {s : State} (h : (s.asr ch).st ≠ 1 ∨ ratio < 0x400000 ∨ 0x4000000 < ratio) :
    asrcLockStep ch ratio s = s := by
  unfold asrcLockStep
  refine if_neg fun ⟨hst, hratio⟩ => ?_
  have := ratioOk_iff.mp hratio
  omega

theorem asrcUnlockStep_unlocks {ch ratio : Nat} {s : State} (hst : (s.asr ch).st ≠ 0) : asrcUnlockStep ch ratio s =
    s.asrTo ch (if 0x400000 ≤ ratio ∧ ratio ≤ 0x4000000 then 1 else 3) := by
  unfold asrcUnlockStep
  simp only [hst, if_false, ratioOk_iff]

theorem asrcUnlockStep_none {ch ratio : Nat} {s : State} (hst : (s.asr ch).st = 0) : asrcUnlockStep ch ratio s = s := by
  unfold asrcUnlockStep
  rw [if_pos hst]

end Sys2Proof.Machine
end

section
/-! The change of the base rate: what each of its parts leaves alone. -/
namespace Sys2Proof.Machine
open Sys2Proof

/-- Where each round of a loop keeps P, keeps Q under P, and round k gives Q, a loop over k gives Q. -/
theorem forEach_gives {α : Type} {P Q : State → Prop} {f : α → State → State} {k : α} (hP : ∀ j a, P a → P (f j a))
    (hQ : ∀ j a, P a → Q a → Q (f j a)) (hk : ∀ a, P a → Q (f k a)) (l : List α) :
    ∀ s, k ∈ l → P s → Q (forEach l f s) := by
  have hkeep : ∀ (l : List α) s, P s → Q s → Q (forEach l f s) := by
    intro l
    induction l with
    | nil => exact fun s _ hq => hq
    | cons j l ih => exact fun s hp hq => ih _ (hP j s hp) (hQ j s hp hq)
  induction l with
  | nil => exact fun s hmem => absurd hmem List.not_mem_nil
  | cons j l ih =>
    intro s hmem hp
    rcases List.mem_cons.mp hmem with rfl | hmem
    · exact hkeep l _ (hP k s hp) (hk s hp)
    · exact ih _ hmem (hP j s hp)

/-! ### Beside the streams and the serial ports -/

/-- t has the change of the rate, time, the inputs and the output groups as s has them. -/
structure RateKept (s t : State) : Prop where
  rateChg : t.rateChg = s.rateChg
  tm : t.tm = s.tm
  ains : t.ains = s.ains
  grps : t.grps = s.grps

theorem RateKept.refl (s : State) : RateKept s s := ⟨rfl, rfl, rfl, rfl⟩
theorem RateKept.trans {s t u : State} (h : RateKept s t) (g : RateKept t u) : RateKept s u :=
  ⟨g.rateChg.trans h.rateChg, g.tm.trans h.tm, g.ains.trans h.ains, g.grps.trans h.grps⟩

/-- t has, beside these, the receiving streams and their readers as s has them. -/
structure StreamsKept (s t : State) : Prop extends RateKept s t where
  rx : t.rx = s.rx
  readers : t.readers = s.readers

theorem StreamsKept.refl (s : State) : StreamsKept s s := ⟨.refl s, rfl, rfl⟩
theorem StreamsKept.trans {s t u : State} (h : StreamsKept s t) (g : StreamsKept t u) : StreamsKept s u :=
  ⟨h.toRateKept.trans g.toRateKept, g.rx.trans h.rx, g.readers.trans h.readers⟩
theorem StreamsKept.ite {c : Prop} [Decidable c] {s t u : State} (h : StreamsKept s t) (g : StreamsKept s u) :
    StreamsKept s (if c then t else u) := by
  split
  · exact h
  · exact g
theorem StreamsKept.events {s t : State} (h : EventsOnly s t) : StreamsKept s t := by
  obtain ⟨_, _, _, _, _, _, _, rfl⟩ := h
  exact ⟨⟨rfl, rfl, rfl, rfl⟩, rfl, rfl⟩
theorem StreamsKept.forEach {α : Type} {f : α → State → State} (h : ∀ k a, StreamsKept a (f k a)) (l : List α) :
    ∀ s, StreamsKept s (forEach l f s) := by
  induction l with
  | nil => exact .refl
  | cons k l ih => exact fun s => (h k s).trans (ih _)
theorem StreamsKept.setTp (s : State) (p : Nat) (v : Tp) : StreamsKept s (s.setTp p v) := ⟨⟨rfl, rfl, rfl, rfl⟩, rfl, rfl⟩
theorem StreamsKept.setAsr (s : State) (c : Nat) (v : Asrc) : StreamsKept s (s.setAsr c v) := ⟨⟨rfl, rfl, rfl, rfl⟩, rfl, rfl⟩
theorem StreamsKept.setNet (s : State) (p : Nat) (v : Net) : StreamsKept s (s.setNet p v) := ⟨⟨rfl, rfl, rfl, rfl⟩, rfl, rfl⟩
theorem StreamsKept.raise (s : State) (c : Nat) (d : List Byte) : StreamsKept s (s.raise c d) := .events (.raise s c d)

theorem StreamsKept.asrTo (s : State) (ch st : Nat) : StreamsKept s (s.asrTo ch st) :=
  .ite (.refl s) ((StreamsKept.setAsr s _ _).trans (.raise _ _ _))

theorem StreamsKept.tpTo (s : State) (p st : Nat) : StreamsKept s (s.tpTo p st) :=
  .ite (.refl s) (((StreamsKept.setTp s _ _).trans (.raise _ _ _)).trans (.forEach (fun c a => .asrTo a c _) _ _))

theorem StreamsKept.tpBegin (s : State) (p : Nat) : StreamsKept s (s.tpBegin p) :=
  .ite (.tpTo _ _ _) (.ite (.tpTo _ _ _) (.ite (.tpTo _ _ _) (.tpTo _ _ _)))

/-- The serial ports and the converter at a new rate. -/
theorem StreamsKept.tpsRate (s : State) : StreamsKept s (tpsRate s) :=
  (StreamsKept.forEach (l := List.range 4) (fun p a => .ite (.tpBegin a p) (.refl a)) s).trans
    (.forEach (fun c a => .ite (.refl a) (.asrTo a c 1)) _ _)

/-- IGMP work after a change of users, and the streams held. -/
theorem StreamsKept.usersChanged (s before : State) : StreamsKept s (s.usersChanged before) := by
  unfold State.usersChanged
  refine .forEach (fun p a => .ite (.setNet _ _ _) ?_) _ s
  have hheld := fun (v w : Net) => (StreamsKept.setNet a p v).trans (.setNet _ p w)
  exact .ite ((hheld _ _).trans (.raise _ _ _)) (hheld _ _)

/-! ### The regions of the streams -/

theorem RateKept.rxFree (i : Nat) (s : State) : RateKept s (rxFree i s) := by
  unfold Machine.rxFree
  split <;> exact ⟨rfl, rfl, rfl, rfl⟩

theorem RateKept.rxRegion {i rate : Nat} {c : RxCfg} {s t : State} (h : rxRegion i c rate s = .ok t) : RateKept s t := by
  have hfree := RateKept.rxFree i s
  unfold Machine.rxRegion at h
  dsimp only at h
  split at h
  · cases h
  · injection h with h
    rw [← h]
    exact hfree.trans ⟨rfl, rfl, rfl, rfl⟩

theorem RateKept.rxRealloc (rate : Nat) (s : State) : RateKept s (rxRealloc rate s).1 := by
  have hfree : ∀ (l : List Nat) (a : State), RateKept a (forEach l Machine.rxFree a) := by
    intro l
    induction l with
    | nil => exact .refl
    | cons i l ih => exact fun a => (RateKept.rxFree i a).trans (ih _)
  have hfold : ∀ (f : State × Option Nat → Nat → State × Option Nat), (∀ x i, RateKept x.1 (f x i).1) →
      ∀ (l : List Nat) x, RateKept x.1 (l.foldl f x).1 := by
    intro f hf l
    induction l with
    | nil => exact fun x => .refl x.1
    | cons i l ih => exact fun x => (hf x i).trans (ih _)
  unfold Machine.rxRealloc
  extract_lets ids s1
  refine (hfree ids s).trans (hfold _ (fun x i => ?_) ids (s1, none))
  split
  · split
    · exact .rxRegion ‹_›
    · exact .refl x.1
  · exact .refl x.1

/-- A stream's table with every buffer emptied holds empty buffers only. -/
theorem tget_tmap_emptied {f : Rx → Rx} (hbuf : ∀ r, (f r).buf = [] ∧ (f r).fly = []) (t : Tab Rx) (n : Nat) :
    (tget {} (tmap f t) n).buf = [] ∧ (tget {} (tmap f t) n).fly = [] := by
  induction t with
  | nil => exact ⟨rfl, rfl⟩
  | cons e t ih =>
    simp only [tmap, tget]
    split
    · exact hbuf _
    · exact ih

/-- The streams at a new rate: no reader, and nothing received (R328). -/
theorem streamsRate_kept (s : State) : RateKept s (streamsRate s) ∧ (streamsRate s).readers = [] ∧
    ∀ n, ((streamsRate s).rxs n).buf = [] ∧ ((streamsRate s).rxs n).fly = [] := by
  unfold streamsRate
  extract_lets s1
  have hregions : RateKept s s1 := .rxRealloc _ s
  clear_value s1
  have husers := fun x : State => StreamsKept.usersChanged x s
  refine ⟨.trans ?_ (husers _).toRateKept, (husers _).readers, fun n => ?_⟩
  · exact hregions.trans ⟨rfl, rfl, rfl, rfl⟩
  · unfold State.rxs
    rw [(husers _).rx]
    exact tget_tmap_emptied (fun r => ⟨rfl, rfl⟩) _ n

/-! ### The outputs -/

/-- Outputs and their groups may differ, but neither a group's state nor its response; the part, time, the change of the rate and the
inputs do not. -/
structure OutsMoved (s t : State) : Prop where
  part : t.part = s.part
  tm : t.tm = s.tm
  rateChg : t.rateChg = s.rateChg
  ains : t.ains = s.ains
  st : ∀ g, (t.grp g).st = (s.grp g).st
  resp : ∀ g, (t.grp g).resp = (s.grp g).resp

theorem OutsMoved.refl (s : State) : OutsMoved s s := ⟨rfl, rfl, rfl, rfl, fun _ => rfl, fun _ => rfl⟩
theorem OutsMoved.trans {s t u : State} (h : OutsMoved s t) (k : OutsMoved t u) : OutsMoved s u :=
  ⟨k.part.trans h.part, k.tm.trans h.tm, k.rateChg.trans h.rateChg, k.ains.trans h.ains, fun g => (k.st g).trans (h.st g),
    fun g => (k.resp g).trans (h.resp g)⟩
theorem OutsMoved.ite {c : Prop} [Decidable c] {s t u : State} (h : OutsMoved s t) (g : OutsMoved s u) :
    OutsMoved s (if c then t else u) := by
  split
  · exact h
  · exact g
theorem OutsMoved.forEach {α : Type} {f : α → State → State} (h : ∀ k a, OutsMoved a (f k a)) (l : List α) :
    ∀ s, OutsMoved s (forEach l f s) := by
  induction l with
  | nil => exact .refl
  | cons k l ih => exact fun s => (h k s).trans (ih _)
theorem OutsMoved.setOut (s : State) (i : Nat) (v : Out) : OutsMoved s (s.setOut i v) :=
  ⟨rfl, rfl, rfl, rfl, fun _ => rfl, fun _ => rfl⟩
theorem OutsMoved.gZero (s : State) (g : Nat) : OutsMoved s (s.gZero g) := .forEach (fun i a => .setOut a i _) _ s

/-- A group set with its state and its response as they were. -/
theorem OutsMoved.setGrp (s : State) (g : Nat) {v : Grp} (hst : v.st = (s.grp g).st) (hresp : v.resp = (s.grp g).resp) :
    OutsMoved s (s.setGrp g v) := by
  have hgrp : ∀ h, (s.setGrp g v).grp h = if h = g then v else s.grp h := by
    intro h
    split
    · next he => rw [he, State.grp_setGrp]
    · next he => exact State.grp_setGrp_other _ _ _ _ he
  refine ⟨rfl, rfl, rfl, rfl, fun h => ?_, fun h => ?_⟩
  · rw [hgrp]; split
    · next he => rw [he, hst]
    · rfl
  · rw [hgrp]; split
    · next he => rw [he, hresp]
    · rfl

theorem OutsMoved.outsRelock (s : State) : OutsMoved s (outsRelock false s) := by
  refine .forEach (fun g a => ?_) _ s
  simp only [Bool.false_eq_true, if_false]
  refine .ite ((OutsMoved.gZero a g).trans (.setGrp _ g ?_ ?_)) (.refl a)
  · rw [State.grp_gZero]
  · rw [State.grp_gZero]

/-- The outputs' histories are dropped as the rate changes. -/
theorem OutsMoved.clearHists (s : State) : OutsMoved s (forUpto 22 (fun i a => a.setOut i { a.out i with hist := [] }) s) :=
  .forEach (f := fun i a => a.setOut i { a.out i with hist := [] }) (fun i a => .setOut a i _) (List.range 22) s

theorem OutsMoved.outsRateApply (old new : Nat) (s : State) : OutsMoved s (outsRateApply old new s) := by
  refine (OutsMoved.clearHists s).trans (.forEach (fun g a => ?_) _ _)
  exact .ite (.refl a) (.setGrp a g rfl rfl)

/-- Which outputs a part has does not depend on the base rate (R34, R267). -/
theorem State.dstOk_out {s t : State} (hpart : t.part = s.part) {i : Nat} (hi : i < 22) : t.dstOk (0x200 + i) = s.dstOk (0x200 + i) := by
  have hsmall : t.isSmall = s.isSmall := by unfold State.isSmall; rw [hpart]
  have hlout : t.nLout = s.nLout := by unfold State.nLout State.capV; rw [hsmall]
  have hhp : t.nHp = s.nHp := by unfold State.nHp; rw [hsmall]
  have hnch : ¬ 0x200 + i < 0x200 := by omega
  have hlate : 0x200 + i < 0x216 := by omega
  unfold State.dstOk State.dstAt
  simp only [if_neg hnch, if_pos hlate, hlout, hhp]

theorem grpDsts_lt {g i : Nat} (hg : g < 20) (hi : i ∈ grpDsts g) : i < 22 := by
  unfold grpDsts at hi
  split at hi
  · simp only [List.mem_singleton] at hi; omega
  · split at hi
    · simp only [List.mem_cons, List.not_mem_nil, or_false] at hi; omega
    · simp only [List.mem_singleton] at hi; omega

theorem State.allGrp_of_part {s t : State} (hpart : t.part = s.part) : t.allGrp = s.allGrp := by
  unfold State.allGrp
  refine List.filter_congr fun g hg => ?_
  unfold State.grpOk
  rw [Bool.eq_iff_iff, List.all_eq_true, List.all_eq_true]
  exact forall₂_congr fun i hi => by rw [State.dstOk_out hpart (grpDsts_lt (List.mem_range.mp hg) hi)]

/-- At a new rate each group that is on stays muted until the delay of its response has passed from the first frame on (R410). -/
theorem outsRateApply_mutes {g : Nat} {s : State} (old new : Nat) (hg : g ∈ s.allGrp) (hst : (s.grp g).st ≠ 0) :
    ((outsRateApply old new s).grp g).rateMute = some (s.tm.frame + 1 + dacDelay (s.grp g).resp) := by
  unfold outsRateApply
  refine forEach_gives (P := OutsMoved s) (Q := fun a => (a.grp g).rateMute = some (s.tm.frame + 1 + dacDelay (s.grp g).resp))
    (fun h a ha => ha.trans ?_) (fun h a ha hq => ?_) (fun a ha => ?_) _ _ hg (.clearHists s)
  · exact .ite (.refl a) (.setGrp a h rfl rfl)
  · dsimp only
    split
    · exact hq
    · by_cases he : g = h
      · rw [← he, State.grp_setGrp, ha.resp]
      · rw [State.grp_setGrp_other _ _ _ _ he, hq]
  · have hon : ¬ (a.grp g).st = 0 := by rw [ha.st]; exact hst
    simp only [if_neg hon, State.grp_setGrp, ha.resp]

/-! ### The inputs -/

/-- Every powered channel of a list resets at the next frame (R139, R410). -/
def ainsReset (l : List Nat) (s : State) : State :=
  forEach l (fun ch a => if (a.ain ch).powered then a.setAin ch ((a.ain ch).sync (a.tm.frame + 1)) else a) s

/-- Only the inputs change. -/
theorem ainsReset_keeps {α : Type} (g : State → α) (h : ∀ a ch v, g (State.setAin a ch v) = g a) (l : List Nat) (s : State) :
    g (ainsReset l s) = g s :=
  forEach_keeps g _ (fun ch a => by
    split
    · exact h _ _ _
    · rfl) l s

theorem State.ain_of_ains {s t : State} (h : t.ains = s.ains) (n : Nat) : t.ain n = s.ain n := by
  unfold State.ain; rw [h]
theorem State.grp_of_grps {s t : State} (h : t.grps = s.grps) (g : Nat) : t.grp g = s.grp g := by
  unfold State.grp; rw [h]
theorem State.rxs_of_rx {s t : State} (h : t.rx = s.rx) (n : Nat) : t.rxs n = s.rxs n := by
  unfold State.rxs; rw [h]

/-- A powered channel of the list is reset, and settles. -/
theorem ainsReset_resets {n : Nat} {l : List Nat} {s : State} (hn : n ∈ l) (hpower : (s.ain n).powered = true) :
    ((ainsReset l s).ain n).resetFr = s.tm.frame + 1 ∧ ((ainsReset l s).ain n).settling = true := by
  refine forEach_gives (P := fun a => (a.ain n).powered = true ∧ a.tm = s.tm)
    (Q := fun a => (a.ain n).resetFr = s.tm.frame + 1 ∧ (a.ain n).settling = true)
    (fun ch a ha => ?_) (fun ch a ha hq => ?_) (fun a ha => ?_) _ _ hn ⟨hpower, rfl⟩
  · split
    · refine ⟨?_, ha.2⟩
      by_cases he : n = ch
      · rw [← he, State.ain_setAin]; exact ha.1
      · rw [State.ain_setAin_other _ _ _ _ he]; exact ha.1
    · exact ha
  · split
    · by_cases he : n = ch
      · rw [← he, State.ain_setAin, ha.2]; exact ⟨rfl, rfl⟩
      · rw [State.ain_setAin_other _ _ _ _ he]; exact hq
    · exact hq
  · simp only [ha.1, if_true, State.ain_setAin, ha.2]
    exact ⟨rfl, rfl⟩

/-! ### RATE_CHANGE_APPLY -/

section
variable {s : State}

theorem rateApplyStep_none (h : s.rateChg = none) : rateApplyStep s = s := by
  unfold rateApplyStep
  rw [h]

variable {c : RateChg} (hchg : s.rateChg = some c)
include hchg

theorem rateApplyStep_waits (h : c.applied = true ∨ c.stored = true ∨ s.clk < c.at0 + 1000000 ∨ (s.pll (famOf c.rate)).lstate ≠ 2) :
    rateApplyStep s = s := by
  have hwaits : c.applied = true ∨ c.stored = true ∨ (!s.framing) = true ∨ s.clk < c.at0 + 1000000 ∨
      (s.pll (famOf c.rate)).lstate ≠ 2 := by
    rcases h with h | h | h | h
    · exact .inl h
    · exact .inr (.inl h)
    · exact .inr (.inr (.inr (.inl h)))
    · exact .inr (.inr (.inr (.inr h)))
  unfold rateApplyStep
  simp only [hchg, if_pos hwaits]

/-- The change of the rate itself, its outputs' mute by a relock opened where the family changes (R284, R410). -/
def State.atRate (s : State) (c : RateChg) : State :=
  let s0 := if famOf s.tm.rate = famOf c.rate then s else outsRelock false s
  { s0 with rateChg := some { c with applied := true }, tm := { s0.tm with rate := c.rate, tick := tickLen c.rate - 1, mediaSet := false } }

theorem rateApplyStep_due (happlied : c.applied = false) (hstored : c.stored = false) (hframing : s.framing = true)
    (hclk : c.at0 + 1000000 ≤ s.clk) (hlock : (s.pll (famOf c.rate)).lstate = 2) : rateApplyStep s =
      tpsRate (streamsRate (ainsReset ((s.atRate c).ains.map (·.1)) (outsRateApply s.tm.rate c.rate (s.atRate c)))) := by
  have hdue : ¬ (c.applied = true ∨ c.stored = true ∨ (!s.framing) = true ∨ s.clk < c.at0 + 1000000 ∨
      (s.pll (famOf c.rate)).lstate ≠ 2) := by
    simp only [happlied, hstored, hframing, hlock]
    simp only [Bool.false_eq_true, Bool.not_true, ne_eq, not_true_eq_false, or_false, false_or]
    omega
  unfold rateApplyStep
  simp only [hchg, if_neg hdue]
  rfl

end

/-- The rate, the tick and the media count begin anew; the part and its outputs' states stay, and so do the inputs. -/
theorem State.atRate_eq (s : State) (c : RateChg) : (s.atRate c).rateChg = some { c with applied := true } ∧
    (s.atRate c).tm = { s.tm with rate := c.rate, tick := tickLen c.rate - 1, mediaSet := false } ∧
    (s.atRate c).part = s.part ∧ (s.atRate c).ains = s.ains ∧ (∀ g, ((s.atRate c).grp g).st = (s.grp g).st) ∧
    ∀ g, ((s.atRate c).grp g).resp = (s.grp g).resp := by
  have hrelock : OutsMoved s (if famOf s.tm.rate = famOf c.rate then s else outsRelock false s) := .ite (.refl s) (.outsRelock s)
  unfold State.atRate
  generalize (if famOf s.tm.rate = famOf c.rate then s else outsRelock false s) = s0 at hrelock ⊢
  exact ⟨rfl, congrArg (fun m : Tm => { m with rate := c.rate, tick := tickLen c.rate - 1, mediaSet := false }) hrelock.tm, hrelock.part,
     hrelock.ains, hrelock.st, hrelock.resp⟩

/-- The one command of a change completes at the boundary that begins the new rate (R410). -/
theorem rateLands_one {s : State} {c : RateChg} {id : Nat} (hchg : s.rateChg = some c) (happlied : c.applied = true)
    (hjobs : c.jobs = [id]) : rateLands s =
      let b := ({ s with rateChg := none } : State).raise 0x904 (le 4 s.tm.rate ++ le 4 s.frame32)
      (b.finishOk id (pllRec b b.serving) b.nowNs).bump := by
  have hserving : ∀ b : State, EventsOnly { s with rateChg := none } b → b.serving = s.serving := by
    intro b hb
    unfold State.serving
    rw [hb.tm_pwr.1]
  unfold rateLands
  simp only [hchg, happlied, hjobs, Bool.not_true, Bool.false_eq_true, if_false]
  rw [hserving _ (.raise _ _ _)]
  rfl

/-- The rate, the tick and the media count begin anew, and nothing received or read is left (R310, R328, R410); powered inputs reset at
the next frame (R139), and each group that is on stays muted for the delay of its response. -/
theorem rateApplyStep_applies {s : State} {c : RateChg} (hchg : s.rateChg = some c) (happlied : c.applied = false)
    (hstored : c.stored = false) (hframing : s.framing = true) (hclk : c.at0 + 1000000 ≤ s.clk)
    (hlock : (s.pll (famOf c.rate)).lstate = 2) {t : State} (ht : rateApplyStep s = t) :
    t.rateChg = some { c with applied := true } ∧
    t.tm = { s.tm with rate := c.rate, tick := tickLen c.rate - 1, mediaSet := false } ∧ t.readers = [] ∧
    (∀ n, (t.rxs n).buf = [] ∧ (t.rxs n).fly = []) ∧
    (∀ n x, (n, x) ∈ s.ains → (s.ain n).powered = true → (t.ain n).resetFr = s.tm.frame + 1 ∧ (t.ain n).settling = true) ∧
    ∀ g ∈ s.allGrp, (s.grp g).st ≠ 0 →
      (t.grp g).rateMute = some (s.tm.frame + 1 + dacDelay (s.grp g).resp) ∧ (t.grp g).st = (s.grp g).st := by
  rw [rateApplyStep_due hchg happlied hstored hframing hclk hlock] at ht
  obtain ⟨hchgU, htmU, hpartU, hainsU, hstU, hrespU⟩ := s.atRate_eq c
  generalize s.atRate c = u at ht hchgU htmU hpartU hainsU hstU hrespU
  have houts : OutsMoved u (outsRateApply s.tm.rate c.rate u) := .outsRateApply _ _ u
  have hmutes := fun g => outsRateApply_mutes (g := g) (s := u) s.tm.rate c.rate
  generalize outsRateApply s.tm.rate c.rate u = v at ht houts hmutes
  have hresets := fun n => ainsReset_resets (n := n) (l := u.ains.map (·.1)) (s := v)
  have hchgW := ainsReset_keeps State.rateChg (fun _ _ _ => rfl) (u.ains.map (·.1)) v
  have htmW := ainsReset_keeps State.tm (fun _ _ _ => rfl) (u.ains.map (·.1)) v
  have hgrpsW := ainsReset_keeps State.grps (fun _ _ _ => rfl) (u.ains.map (·.1)) v
  generalize ainsReset (u.ains.map (·.1)) v = w at ht hresets hchgW htmW hgrpsW
  obtain ⟨hkept, hreaders, hrx⟩ := streamsRate_kept w
  have hports := StreamsKept.tpsRate (streamsRate w)
  rw [ht] at hports
  have hsame : RateKept w t := hkept.trans hports.toRateKept
  have hframeU : u.tm.frame = s.tm.frame := by rw [htmU]
  have hframeV : v.tm.frame = s.tm.frame := by rw [houts.tm, hframeU]
  refine ⟨hsame.rateChg.trans (hchgW.trans (houts.rateChg.trans hchgU)), hsame.tm.trans (htmW.trans (houts.tm.trans htmU)),
    hports.readers.trans hreaders, fun n => ?_, fun n x hmem hpower => ?_, fun g hg hst => ?_⟩
  · rw [State.rxs_of_rx hports.rx]
    exact hrx n
  · rw [State.ain_of_ains hsame.ains, ← hframeV]
    exact hresets n (hainsU ▸ List.mem_map_of_mem hmem) (by rw [State.ain_of_ains (houts.ains.trans hainsU), hpower])
  · rw [State.grp_of_grps (hsame.grps.trans hgrpsW), houts.st, hstU,
      hmutes g (State.allGrp_of_part hpartU ▸ hg) (by rw [hstU]; exact hst), hrespU, hframeU]
    exact ⟨rfl, rfl⟩

/-- Settles O54: the clock outputs, the rows of a serial port and its latch, the channels of the converter, then the change of the
rate. -/
theorem serialPortsAndConvertersLock : Obligations.SerialPortsAndConvertersLock := by
  unfold Obligations.SerialPortsAndConvertersLock
  intro dt k p ch ratio mhz slots valid s a ha hk hp hch hratio hmhz hslots
  have hwf : decide (p < 4) = true := decide_eq_true hp
  have hconv : (decide (ch < 64) && decide (ratio < 4294967296)) = true :=
    Bool.and_eq_true_iff.mpr ⟨decide_eq_true hch, decide_eq_true hratio⟩
  refine ⟨fun hdirty => ?_, fun hclean => ?_, ?port, fun hst hlo hhi => ?_, fun hnone => ?_, fun hst => ?_, fun hst => ?_,
    fun hchg => ?_, fun c hchg hwait => ?_, fun c hchg happlied hstored hframing hclk hlock => ?_,
    fun c id hchg happlied hjobs => rateLands_one hchg happlied hjobs⟩
  · rw [exec_of_run (exec_ckoApply dt k s) (decide_eq_true hk) ha, ckoApplyStep_dirty hdirty]
  · rw [exec_of_run (exec_ckoApply dt k s) (decide_eq_true hk) ha, ckoApplyStep_clean hclean]
  case port =>
    intro t near ck start bad
    have hrow : ∀ ok, exec (.tpFrame dt p slots ok mhz) s = .next (tpFrameStep p slots ok mhz a).flush := by
      refine fun ok => exec_of_run (exec_tpFrame dt p slots ok mhz s) ?_ ha
      simp only [Instr.wf, hwf, decide_eq_true hmhz, Bool.true_and, Bool.and_true, List.all_eq_true, decide_eq_true_eq]
      exact hslots
    refine ⟨fun hrole hst => ?_, fun hstill => ?_, fun hstill => ?_, fun hst hrole => ⟨fun hnear hgood => ?_, fun hnear hgood => ?_,
      fun hnear => ?_, ?_⟩, fun hst hrole => ⟨fun hnear => ⟨_, rfl, ?_⟩, fun hnear => ?_, fun hbad => ?_, fun hbad => ?_⟩,
      fun d u e smp hst hrole hclk hage hused hfind => ?latch⟩
    · rw [exec_of_run (exec_tpClockLoss dt p s) hwf ha, tpClockLossStep_slave hrole hst]
    · rw [exec_of_run (exec_tpClockLoss dt p s) hwf ha, tpClockLossStep_none hstill]
    · rw [hrow, tpFrameStep_none hstill]
    · have hmin : min 8 (t.good + 1) = t.good + 1 := by omega
      rw [hrow, tpFrameStep_waiting hrole hnear (Tp.counted_near t ck mhz) hst, hmin, if_neg (by dsimp only; omega)]
    · have hmin : min 8 (t.good + 1) = 8 := by omega
      rw [hrow, tpFrameStep_waiting hrole hnear (Tp.counted_near t ck mhz) hst, hmin, if_pos rfl]
    · rw [hrow, tpFrameStep_waiting hrole hnear (Tp.counted_far t ck mhz) hst, if_neg (by dsimp only; omega)]
    · rw [hrow, tpFrameStep_waiting hrole rfl (Tp.counted_error t _ ck mhz) hst, if_neg (by dsimp only; omega)]
    · rw [hrow, tpFrameStep_running hrole hnear (Tp.counted_near t ck mhz) (t.samples_valid slots) hst, if_neg (by simp)]
    · rw [hrow, tpFrameStep_running hrole hnear (Tp.counted_far t ck mhz) rfl hst, if_pos (.inr ⟨rfl, rfl⟩)]
    · rw [hrow, tpFrameStep_running hrole rfl (Tp.counted_error t _ ck mhz) rfl hst, if_pos (.inl (by dsimp only; omega))]
    · rw [hrow, tpFrameStep_running hrole rfl (Tp.counted_error t _ ck mhz) (t.samples_error slots) hst,
        if_neg (by simp only [Bool.false_eq_true, false_and, or_false]; omega)]
    case latch =>
      intro twice lost
      obtain ⟨v, hnow, hslip, hlatch⟩ := tpLatch_slave hst hrole hclk hage hused hfind
      rw [hlatch]
      by_cases hagain : u = e
      · have htwice : twice = true := decide_eq_true hagain
        rw [if_pos hagain, tpSlip_tp, State.tp_setTp, htwice]
        exact ⟨hnow, congrArg (satInc 31) hslip, fun h => Bool.noConfusion h⟩
      · have htwice : twice = false := decide_eq_false hagain
        rw [if_neg hagain, htwice]
        cases hlost : lost with
        | true =>
          rw [if_pos hlost, tpSlip_tp, State.tp_setTp]
          exact ⟨hnow, congrArg (satInc 31) hslip, fun _ h => Bool.noConfusion h⟩
        | false =>
          rw [if_neg (Bool.eq_false_iff.mp hlost), State.tp_setTp]
          exact ⟨rfl, rfl, fun _ _ => ⟨rfl, rfl⟩⟩
  · rw [exec_of_run (exec_asrcLock dt ch ratio s) hconv ha, asrcLockStep_locks hst ⟨hlo, hhi⟩]
  · rw [exec_of_run (exec_asrcLock dt ch ratio s) hconv ha, asrcLockStep_none hnone]
  · rw [exec_of_run (exec_asrcUnlock dt ch ratio s) hconv ha, asrcUnlockStep_unlocks hst]
  · rw [exec_of_run (exec_asrcUnlock dt ch ratio s) hconv ha, asrcUnlockStep_none hst]
  · rw [exec_of_run (exec_rateChangeApply dt s) rfl ha, rateApplyStep_none hchg]
  · rw [exec_of_run (exec_rateChangeApply dt s) rfl ha, rateApplyStep_waits hchg hwait]
  · exact ⟨_, exec_of_run (exec_rateChangeApply dt s) rfl ha,
      rateApplyStep_applies hchg happlied hstored hframing hclk hlock rfl⟩

end Sys2Proof.Machine
end

section
/-! What a cause of reset leaves (R389, R553, R554, R562, R563). -/
namespace Sys2Proof.Machine
open Sys2Proof

theorem State.inv_of_noFlight {s : State} (h : s.flight = []) : s.Inv :=
  fun _ hf => absurd (h ▸ hf) List.not_mem_nil

/-- A row whose effect leaves no command in flight answers that effect. -/
theorem exec_of_run_noFlight {i : Instr} {s a : State} {f : State → State} (hrun : exec i s = run i s f) (hwf : i.wf = true)
    (ha : s.advance i.dt = a) (hnone : (f a).flight = []) : exec i s = .next (f a) := by
  rw [exec_of_run hrun hwf ha, State.flush_none _ (State.inv_of_noFlight hnone)]

/-- The part is Off after a reset while VAON is absent (R554). -/
theorem resetPart_off_iff (s : State) (cause : Nat) (full en : Bool) :
    (s.resetPart cause full en).pwr.pstate = .off ↔ s.pwr.vaonLow = true := by
  cases h : s.pwr.vaonLow <;> simp [State.resetPart, State.cold, h]

/-- A full reset loses what VAON holds. -/
theorem resetPart_full_vaon (s : State) (cause : Nat) (en : Bool) : (s.resetPart cause true en).pwr.straps = {} ∧
    (s.resetPart cause true en).pwr.trims = false ∧ (s.resetPart cause true en).pc = {} :=
  ⟨rfl, Bool.and_false _, rfl⟩

/-- A short one keeps it. -/
theorem resetPart_short_vaon (s : State) (cause : Nat) (en : Bool) : (s.resetPart cause false en).pwr.straps = s.pwr.straps ∧
    (s.resetPart cause false en).pwr.trims = s.pwr.trims ∧ (s.resetPart cause false en).pc = { tw0Fl := s.pc.tw0Fl } :=
  ⟨rfl, Bool.and_true _, rfl⟩

/-- Where a reset moves PWR_EN, that is when PWR_EN last moved. -/
theorem resetPart_pwrEnAt_moved {s : State} {en : Bool} (cause : Nat) (full : Bool) (h : en ≠ s.pwr.pwrEn) :
    (s.resetPart cause full en).pwr.pwrEnAt = s.clk := if_neg h

section
variable {s : State}

/-- A crystal that stops while the part is powered resets it (R389). -/
theorem crystalStopStep_powered (hen : s.pwr.pwrEn = true) (hpg : s.pins.pgIn = true) : crystalStopStep s =
    ({ s with pwr := { s.pwr with crystalStopped := true } } : State).resetPart 2 true true := by
  unfold crystalStopStep
  rw [if_pos ⟨hen, hpg⟩]

/-- PG_IN lost with PWR_EN high and no full reset held: a short reset, and PWR_EN falls, to be raised again (R563). -/
theorem pgLostStep_resets (hpg : s.pins.pgIn = true) (hen : s.pwr.pwrEn = true) (hheld : s.fullHeld = false) : pgLostStep s =
    (let r := ({ s with pins := { s.pins with pgIn := false } } : State).resetPart 3 false false
     { r with pwr := { r.pwr with raiseDue := true, brownOut := false } }) := by
  unfold pgLostStep
  simp only [hpg, hen, hheld, Bool.not_true, Bool.or_self, Bool.false_eq_true, if_false]

/-- A brown-out of a VCORE that is switched on is held, and resets a part that runs (R563). -/
theorem brownOutStep_low {mv : Nat} (hmv : mv < 680) (hen : s.pwr.pwrEn = true) (hpg : s.pins.pgIn = true) : brownOutStep mv s =
    (let b : State := { s with env := { s.env with vcoreMv := mv }, pwr := { s.pwr with brownOut := true } }
     if s.alive then b.resetPart 4 false true else b) := by
  have hlow : ¬ 680 ≤ mv := by omega
  unfold brownOutStep
  simp only [hlow, hen, hpg, Bool.not_true, Bool.false_eq_true, or_self, if_false]
  rfl

end

/-- Settles O25: the row of each cause, then what `resetPart` leaves. -/
theorem resetCausesResetThePart : Obligations.ResetCausesResetThePart := by
  unfold Obligations.ResetCausesResetThePart
  refine ⟨fun dt mv s a ha => ⟨?_, ⟨powerOnResetStep a, ?_, ?_⟩, fun hen hpg => ?_, fun hpg hen hheld => ⟨pgLostStep a, ?_⟩,
    fun hmv hen hpg halive hinv => ?_, fun hmv hen hpg halive => ⟨brownOutStep mv a, ?_⟩⟩, ?frame⟩
  · exact exec_of_run_noFlight (exec_rstNAssert dt s) rfl ha rfl
  · exact exec_of_run_noFlight (exec_powerOnReset dt s) rfl ha rfl
  · exact ⟨rfl, rfl, rfl, rfl, rfl, rfl, rfl, rfl, rfl, rfl, rfl, rfl⟩
  · have hstep := crystalStopStep_powered hen hpg
    rw [exec_of_run_noFlight (exec_crystalStop dt s) rfl ha (by rw [hstep]; rfl), hstep]
  · have hstep := pgLostStep_resets hpg hen hheld
    have hfalls : false ≠ a.pwr.pwrEn := by rw [hen]; exact Bool.false_ne_true
    refine ⟨exec_of_run_noFlight (exec_pgInLost dt s) rfl ha (by rw [hstep]; rfl), ?_⟩
    rw [hstep]
    exact ⟨rfl, rfl, rfl, resetPart_pwrEnAt_moved 3 false hfalls, rfl, rfl, rfl, rfl, rfl, rfl, rfl⟩
  · have hadvanced : a.Inv := ha ▸ hinv.advance dt
    rw [exec_of_run (exec_vcoreBrownOut dt mv s) rfl ha, brownOutStep_low hmv hen hpg, halive]
    exact congrArg _ (State.flush_none _ (hadvanced.of_same rfl rfl rfl))
  · have hstep := brownOutStep_low hmv hen hpg
    rw [halive] at hstep
    refine ⟨exec_of_run_noFlight (exec_vcoreBrownOut dt mv s) rfl ha (by rw [hstep]; rfl), ?_⟩
    rw [hstep]
    exact ⟨rfl, rfl, rfl, rfl, rfl, rfl, rfl, rfl, rfl⟩
  case frame =>
    rintro cause full en s t rfl
    refine ⟨rfl, rfl, rfl, rfl, rfl, rfl, rfl, rfl, rfl, rfl, rfl, rfl, rfl, rfl, rfl, rfl, rfl, rfl, rfl, rfl, rfl, rfl, rfl, rfl, rfl,
      rfl, rfl, rfl, rfl, rfl, rfl, rfl, resetPart_off_iff s cause full en, fun hfull => ?_, fun hshort => ?_,
      rfl, rfl, rfl, rfl, rfl⟩
    · rw [hfull]; exact resetPart_full_vaon s cause en
    · rw [hshort]; exact resetPart_short_vaon s cause en

end Sys2Proof.Machine
end

section
/-! The media PLLs (R394 to R406). -/
namespace Sys2Proof.Machine
open Sys2Proof

section
variable {m : Nat} {s : State}

/-- A valid reference is lost: at a ball, or where the part no longer sees it. The average correction of the last 10 s holds (R396). -/
theorem refLossStep_lost (hlock : (s.pll m).lstate ≠ 0) (hok : (s.pll m).refOk = true)
    (hlost : (s.pll m).ref = 4 ∨ (s.pll m).ref = 6 ∨ (2 ≤ (s.pll m).ref ∧ s.refSeen m = false)) : refLossStep m s =
    (let q := (s.pllPush m).pll m
     ((s.pllPush m).setPll m { q with refOk := false, corr := avgOver q.hist, refLoss := satInc 31 q.refLoss }).rstTo m 4 0
       (q.phaseNow s.clk)) := by
  have hfar : ¬ (s.pll m).ref < 2 := by omega
  have hunseen : ¬ (s.refCould m = true ∧ (s.pll m).ref ≠ 4 ∧ (s.pll m).ref ≠ 6) := by
    rintro ⟨hcould, h4, h6⟩
    have hseen : s.refSeen m = true := by simpa [State.refCould, h4, h6] using hcould
    rcases hlost with h | h | ⟨-, h⟩
    · exact h4 h
    · exact h6 h
    · exact Bool.noConfusion (h.symm.trans hseen)
  unfold refLossStep
  simp only [hlock, hok, hfar, hunseen, Bool.not_true, Bool.false_eq_true, or_self, if_false]

theorem refLossStep_none (h : (s.pll m).ref < 2 ∨ (s.pll m).refOk = false ∨ (s.pll m).lstate = 0) : refLossStep m s = s := by
  refine if_pos ?_
  rcases h with hnear | hlost | hoff
  · exact .inr (.inr (.inl hnear))
  · exact .inr (.inl (by rw [hlost]; rfl))
  · exact .inl hoff

/-- A reference may return: at a ball or as frame sync after a loss, or as a tracker's estimate, which may also have jumped. -/
def State.refReturns (s : State) (m : Nat) : Prop :=
  (((s.pll m).ref = 4 ∨ (s.pll m).ref = 6 ∨ ((s.pll m).ref = 5 ∧ s.refSeen m = true)) ∧ (s.pll m).refOk = false) ∨
    (((s.pll m).ref = 2 ∨ (s.pll m).ref = 3) ∧ s.refSeen m = true)

/-- A reference within its window is followed again: by a relock above 200 ppm, under a ramp or a pull as it stands, else once its
phase is aligned (R397, R405). -/
theorem refReturnStep_returns {phi ppb : Int} (hlock : (s.pll m).lstate ≠ 0) (hreturns : s.refReturns m)
    (hband : refInBand (s.pll m).ref (s.pllCorr m + ppb) = true) : refReturnStep m phi ppb s =
    (let b := (s.pllPush m).setPll m { (s.pllPush m).pll m with refOk := true, corr := s.pllCorr m + ppb, refAt := s.clk }
     let red := reducePhi (s.refHz m) phi
     if 200000 < ppb.natAbs then relockStart m 1 (b.rstTo m 1 2 red)
     else if (s.pll m).following s.nowNs then b.rstTo m 3 0 red
     else align m red false b) := by
  have hfar : ¬ (s.pll m).ref < 2 := by
    rcases hreturns with ⟨h, -⟩ | ⟨h, -⟩ <;> omega
  have hcould : s.refCould m = true := by
    rcases hreturns with ⟨h | h | ⟨-, h⟩, -⟩ | ⟨-, h⟩ <;> simp [State.refCould, h]
  have hnew : ¬ ((s.pll m).refOk = true ∧ (s.pll m).ref ≠ 2 ∧ (s.pll m).ref ≠ 3) := by
    rintro ⟨hok, h2, h3⟩
    rcases hreturns with ⟨-, h⟩ | ⟨h, -⟩
    · exact Bool.noConfusion (h.symm.trans hok)
    · exact h.elim h2 h3
  unfold refReturnStep
  simp only [hlock, hfar, hcould, hnew, hband, Bool.not_true, Bool.false_eq_true, or_self, if_false]

theorem refReturnStep_none {ppb : Int} (phi : Int)
    (h : (s.pll m).ref < 2 ∨ refInBand (s.pll m).ref (s.pllCorr m + ppb) = false) : refReturnStep m phi ppb s = s := by
  refine if_pos ?_
  rcases h with hnear | hout
  · exact .inr (.inl hnear)
  · exact .inr (.inr (.inr (.inr (by rw [hout]; rfl))))

/-- A loop that locks its phase has done so after 1 s within the band, and not before (R395). -/
theorem phaseLockStep_locking (hlock : (s.pll m).lstate = 2) (hst : (s.pll m).rstate = 1) : phaseLockStep m s =
    if (s.pll m).inBandAt + 1000000000 ≤ s.clk then
      (if (s.pll m).freeRan then mediaAnew m (s.rstTo m 2 0 0) else s.rstTo m 2 0 0)
    else s := by
  unfold phaseLockStep
  simp only [hlock, hst, true_and]

theorem phaseSlewEndStep_slewing (hst : (s.pll m).rstate = 5) : phaseSlewEndStep m s =
    if (s.pll m).slewAt + (s.pll m).slewNs ≤ s.clk then (s.setPll m { s.pll m with phase := 0 }).rstTo m 1 0 0 else s := by
  unfold phaseSlewEndStep
  simp only [hst, true_and]

/-- With every STOP output low a relock takes its new word (R406 step 2). -/
theorem relockStep_low {r : Relock} (hrelock : (s.pll m).relock = some r) (hstep : r.step = 1) : relockStep m s =
    ncoTake m (s.setPll m { s.pll m with relock := some { r with step := 2, at0 := s.clk } }) := by
  unfold relockStep
  simp only [hrelock, hstep, if_true]

theorem pllLocked_none (h : (s.pll m).relock = none) : pllLocked m s = s := by
  unfold pllLocked
  simp only [h]

/-- A relock of a loop that serves no frames ends with its lock (R406 step 3). -/
theorem pllLocked_locks {r : Relock} (hrelock : (s.pll m).relock = some r) (hstep : r.step = 2) (hserves : m ≠ s.serving)
    (hst : (s.pll m).rstate ≠ 3) : pllLocked m s =
    (let b := (s.setPll m { s.pll m with
       lstate := 2, relock := none, lockFr := s.frame32, phase := 0, inBandAt := s.clk }).lockEvent m r.cause
     if m = 2 then b else pllSettle m b) := by
  unfold pllLocked
  simp only [hrelock, hstep, hserves, hst, ne_eq, not_true, if_false]

section
variable {x : Ramp} (hramp : (s.pll m).ramp = some x)
include hramp

theorem segmentEnd_early (h : s.nowNs < x.at0 + x.durUs * 1000) : segmentEnd m s = s := by
  unfold segmentEnd
  simp only [hramp, h, if_true]

/-- A segment that is not the profile's last ends where the next begins (R403). -/
theorem segmentEnd_next (hdue : x.at0 + x.durUs * 1000 ≤ s.nowNs) (hmore : x.idx + 1 < x.segs.length) : segmentEnd m s =
    (let o := (x.segs.getD x.idx (0, 0)).1
     (s.pllPush m).setPll m { (s.pllPush m).pll m with
       offset := o
       ramp := some { x with
         idx := x.idx + 1, at0 := x.at0 + x.durUs * 1000, from0 := o,
         durUs := (segUs o (x.segs.getD (x.idx + 1) (0, 0))).1 } }) := by
  have hover : ¬ s.nowNs < x.at0 + x.durUs * 1000 := by omega
  unfold segmentEnd
  simp only [hramp, hover, hmore, if_false, if_true]

end

/-- A pull that has reached its end has ended (R402). -/
theorem pullEndStep_reached (hpulling : (s.pll m).pulling = true) (hend : (s.pll m).pullAt s.clk s.nowNs = pullDep (s.pll m).pull) :
    pullEndStep m s = pllSettle m ((s.pllPush m).setPll m { (s.pllPush m).pll m with pulling := false }) := by
  unfold pullEndStep
  simp only [hpulling, hend, and_self, if_true]

theorem pullEndStep_none (h : (s.pll m).pulling = false ∨ (s.pll m).pullAt s.clk s.nowNs ≠ pullDep (s.pll m).pull) :
    pullEndStep m s = s := by
  refine if_neg fun ⟨hpulling, hend⟩ => ?_
  rcases h with hstill | hfar
  · exact Bool.noConfusion (hstill.symm.trans hpulling)
  · exact hfar hend

end

/-- In no time nothing moves toward its end. -/
theorem chase_zero (v t : Int) : chase v t 0 = v := by
  unfold chase
  split
  · omega
  · split <;> omega

/-- The pull stands where the limiter placed it when no time has passed since (R401, R402). -/
theorem Pll.pullAt_lim (p : Pll) (now : Nat) : p.pullAt p.lim.at0 now = p.lim.pull := by
  have hnoTime : (p.lim.at0 - p.lim.at0 - p.offUse now) * 1001 = 0 := by omega
  unfold Pll.pullAt
  rw [hnoTime, chase_zero]

/-- Settles O53: the reference lost and found, phase, the relock and the lock, then ramps and pulls. -/
theorem pllsFollowTheirReference : Obligations.PllsFollowTheirReference := by
  unfold Obligations.PllsFollowTheirReference
  intro dt m phi ppb s a ha hm p q
  have hany : decide (m < 3) = true := decide_eq_true hm
  refine ⟨fun hmedia hlock hok hlost => ?_, fun hmedia hnone => ?_, fun hmedia hlock hreturns hband => ?returns,
    fun hmedia hnone => ?_, fun hmedia hlock hst => ⟨fun hearly => ?_, fun hdue => ?_⟩, fun hmedia hst => ?_, ?_,
    fun r hrelock hstep => ?_, fun hrelock => ?_, fun r hrelock hstep hserves hst => ?_, fun x hmedia hramp hearly => ?_,
    fun x hmedia hramp hdue hmore => ?_, fun hmedia hpulling hend => ?_, fun hmedia hnone => ?_, p.pullAt_lim a.nowNs⟩
  · rw [exec_of_run (exec_mpllRefLoss dt m s) (decide_eq_true hmedia) ha, refLossStep_lost hlock hok hlost]
  · rw [exec_of_run (exec_mpllRefLoss dt m s) (decide_eq_true hmedia) ha, refLossStep_none hnone]
  case returns =>
    intro b red
    rw [exec_of_run (exec_mpllRefReturn dt m phi ppb s) (decide_eq_true hmedia) ha, refReturnStep_returns hlock hreturns hband]
    refine ⟨fun hfar => ?_, fun hnear hfollowing => ?_, fun hnear hfollowing => ?_⟩
    · rw [if_pos hfar]
    · rw [if_neg (Nat.not_lt.mpr hnear), if_pos hfollowing]
    · rw [if_neg (Nat.not_lt.mpr hnear), if_neg (Bool.eq_false_iff.mp hfollowing)]
  · rw [exec_of_run (exec_mpllRefReturn dt m phi ppb s) (decide_eq_true hmedia) ha, refReturnStep_none phi hnone]
  · rw [exec_of_run (exec_mpllPhaseLock dt m s) (decide_eq_true hmedia) ha, phaseLockStep_locking hlock hst,
      if_neg (Nat.not_le.mpr hearly)]
  · rw [exec_of_run (exec_mpllPhaseLock dt m s) (decide_eq_true hmedia) ha, phaseLockStep_locking hlock hst, if_pos hdue]
  · rw [exec_of_run (exec_phaseSlewEnd dt m s) (decide_eq_true hmedia) ha, phaseSlewEndStep_slewing hst]
  · rw [exec_of_run (exec_mpllLossOfLock dt m s) hany ha, lossOfLockStep]
  · rw [exec_of_run (exec_mpllRelockStep dt m s) hany ha, relockStep_low hrelock hstep]
  · rw [exec_of_run (exec_mpllLock dt m s) hany ha, pllLocked_none hrelock]
  · rw [exec_of_run (exec_mpllLock dt m s) hany ha, pllLocked_locks hrelock hstep hserves hst]
  · rw [exec_of_run (exec_rampSegmentEnd dt m s) (decide_eq_true hmedia) ha, segmentEnd_early hramp hearly]
  · rw [exec_of_run (exec_rampSegmentEnd dt m s) (decide_eq_true hmedia) ha, segmentEnd_next hramp hdue hmore]
  · rw [exec_of_run (exec_pullRampEnd dt m s) (decide_eq_true hmedia) ha, pullEndStep_reached hpulling hend]
  · rw [exec_of_run (exec_pullRampEnd dt m s) (decide_eq_true hmedia) ha, pullEndStep_none hnone]

end Sys2Proof.Machine
end

section
/-! Privet: its cut, its release and its light (R459 to R463). -/
namespace Sys2Proof.Machine
open Sys2Proof

/-- Where no request for Hibernate is deferred there is none to take effect. -/
theorem deferCheck_none {s : State} (h : s.pwr.deferral = none) : deferCheck s = s := by
  unfold deferCheck
  rw [h]

section
variable {s : State}

theorem privAssertStep_asserted (h : s.priv = true) : privAssertStep s = s := if_pos h

/-- In a state that listens Privet ends what the microphones feed; that the history reads 0 at once is log 97 (DEDUCED). -/
theorem privAssertStep_cuts (hpriv : s.priv = false) (hruns : s.listenRuns = true) : privAssertStep s =
    (jacksCut (waitsCut stPriv (candDrop (vadEnd 1 (vadEnd 0 { s with
      pins := { s.pins with privN := false }
      fk := mclear s.fk (3013 * 4096) (3072 * 4096)
      ls := { s.ls with vad0 := { s.ls.vad0 with sum := 0 }, vad1 := { s.ls.vad1 with sum := 0 } } }))))).privEvent true := by
  have hlistens : State.listenRuns { s with pins := { s.pins with privN := false } } = true := hruns
  unfold privAssertStep
  simp only [hpriv, hlistens, Bool.not_true, Bool.false_eq_true, if_false]

theorem privReleaseStep_released (h : s.priv = false) : privReleaseStep s = s :=
  if_pos (by rw [h]; rfl)

/-- In a state that listens the release begins the settle period of F7, 28 samples, on both channels. -/
theorem privReleaseStep_settles (hpriv : s.priv = true) (hruns : s.listenRuns = true) : privReleaseStep s =
    (let b : State := { s with
       pins := { s.pins with privN := true }
       ls := { s.ls with settle0 := 28, settle1 := 28, zeroTo := s.ls.idx + 28 } }
     (jacksUncut (if s.pwr.straps.privScope then
       forEach (b.ains.map (·.1)) (fun c x => if (x.ain c).powered then x.setAin c ((x.ain c).sync x.nextFrame) else x) b
       else b)).privEvent false) := by
  have hlistens : State.listenRuns { s with pins := { s.pins with privN := true } } = true := hruns
  have hsettle : settleCount 7 = 28 := rfl
  unfold privReleaseStep
  simp only [hpriv, hlistens, hsettle, Bool.not_true, Bool.false_eq_true, if_false]

/-- The light says what Privet's pin does, as long as VAON feeds it (R460). -/
theorem State.privLed_iff (s : State) : s.privLed = true ↔ s.pins.privN = false ∧ s.pwr.vaonLow = false := by
  simp [State.privLed]

end

/-- Settles O33: the assertion, the release, each with the pin that is there already, and the light. -/
theorem privetCutsAndReleases : Obligations.PrivetCutsAndReleases := by
  unfold Obligations.PrivetCutsAndReleases
  intro dt s a ha hruns
  refine ⟨fun hpriv => ?_, fun hpriv hdefer => ?_, fun hpriv => ?_, fun hpriv => ?_, a.privLed_iff⟩
  · rw [exec_of_run (exec_privNAssert dt s) rfl ha, privAssertStep_cuts hpriv hruns]
  · rw [exec_of_run (exec_privNAssert dt s) rfl ha, privAssertStep_asserted hpriv, deferCheck_none hdefer]
  · rw [exec_of_run (exec_privNRelease dt s) rfl ha, privReleaseStep_settles hpriv hruns]
  · rw [exec_of_run (exec_privNRelease dt s) rfl ha, privReleaseStep_released hpriv]

end Sys2Proof.Machine
end

section
/-! Listen: samples, blocks, hops, candidates, waiting reads and the commit of a model (R442 to R472). -/
namespace Sys2Proof.Machine
open Sys2Proof

section
variable {s : State}

/-! ### Samples -/

theorem listenSampleStep_idle (m0 m1 : List Int) (h : s.listenRuns = false) : listenSampleStep m0 m1 s = s :=
  if_pos (by rw [h]; rfl)

/-- What a sample period stores, and what it leaves (R442, R446). -/
theorem listenSampleStep_stores {t : State} (m0 m1 : List Int) (h : s.listenRuns = true) (ht : t = listenSampleStep m0 m1 s) :
    t.ls.idx = s.ls.idx + 1 ∧ t.ls.mod0 = s.f7In 0 s.ls.mod0 m0 ∧ t.ls.mod1 = s.f7In 1 s.ls.mod1 m1 ∧
    t.fk = mwrites s.fk (histAt s.ls.idx 0)
      (le 3 (uns 24 (s.f7Sample 0 s.ls.settle0 t.ls.mod0)) ++ le 3 (uns 24 (s.f7Sample 1 s.ls.settle1 t.ls.mod1))) ∧
    t.mem = s.mem ∧ t.queues = s.queues ∧ t.flight = s.flight ∧ t.ls.cand = s.ls.cand ∧ t.ls.score = s.ls.score := by
  unfold listenSampleStep at ht
  simp only [h, Bool.not_true, Bool.false_eq_true, if_false] at ht
  subst ht
  exact ⟨rfl, rfl, rfl, rfl, rfl, rfl, rfl, rfl, rfl⟩

theorem wf_listenSample {dt : Nat} {m0 m1 : List Int} (h0 : m0.length = 64) (h1 : m1.length = 64)
    (hrange : ∀ x ∈ m0 ++ m1, -8388608 ≤ x ∧ x ≤ 8388607) : (Instr.listenSample dt m0 m1).wf = true := by
  have hall : ∀ m : List Int, m ⊆ m0 ++ m1 → (m.all fun x => decide (-8388608 ≤ x) && decide (x ≤ 8388607)) = true := by
    intro m hm
    rw [List.all_eq_true]
    intro x hx
    obtain ⟨hlo, hhi⟩ := hrange x (hm hx)
    rw [decide_eq_true hlo, decide_eq_true hhi]; rfl
  simp [Instr.wf, h0, h1, hall m0 (List.subset_append_left m0 m1), hall m1 (List.subset_append_right m0 m1)]

/-! ### Candidates and voice activity -/

theorem ite_pwr {c : Prop} [Decidable c] {t u : State} (ht : t.pwr = s.pwr) (hu : u.pwr = s.pwr) :
    (if c then t else u).pwr = s.pwr := by
  split <;> assumption

theorem candDrop_pwr : (candDrop s).pwr = s.pwr := ite_pwr rfl rfl

theorem candFollow_pwr : (candFollow s).pwr = s.pwr := ite_pwr rfl (ite_pwr rfl (ite_pwr rfl candDrop_pwr))

/-- A candidate that is open and has stayed low for 200 ms closes. -/
theorem candTimeoutStep_low {t : Nat} (h : s.ls.candLow = some t) : candTimeoutStep s =
    if s.ls.cand ∧ t + 200000000 ≤ s.clk then
      { s with ls := { s.ls with cand := false, candLow := none, drop := satInc 31 s.ls.drop } }
    else s := by
  unfold candTimeoutStep
  simp only [h]
  by_cases hlow : s.ls.cand ∧ t + 200000000 ≤ s.clk
  · rw [if_pos hlow, if_pos hlow]
    exact if_pos hlow.1
  · rw [if_neg hlow, if_neg hlow]

theorem candTimeoutStep_pwr : (candTimeoutStep s).pwr = s.pwr := by
  unfold candTimeoutStep
  split
  · exact ite_pwr candDrop_pwr rfl
  · rfl

/-- A block that is not full stays as it is. -/
theorem vadOne_notFull {n : Nat} (h : (s.ls.vad n).cnt < 160) : vadOne n s = s :=
  if_pos (by rw [decide_eq_true h, Bool.or_true])

theorem vadOne_pwr (n : Nat) : (vadOne n s).pwr = s.pwr :=
  ite_pwr rfl (ite_pwr rfl (EventsOnly.raise _ _ _).tm_pwr.2)

theorem vadBlockStep_idle (h : s.listenRuns = false) : vadBlockStep s = s := if_neg (by rw [h]; exact Bool.false_ne_true)

theorem vadBlockStep_pwr : (vadBlockStep s).pwr = s.pwr :=
  ite_pwr (candFollow_pwr.trans ((vadOne_pwr 1).trans (vadOne_pwr 0))) rfl

/-! ### The phrase engine -/

theorem phraseHopStep_early (hdefer : s.pwr.deferral = none) (h : s.ls.hopCnt < max 1 s.ls.hop) : phraseHopStep s = s := by
  have hcore : phraseHopCore s = (s, none) := if_pos (by rw [decide_eq_true h, Bool.or_true])
  unfold phraseHopStep
  rw [hcore]
  exact deferCheck_none hdefer

/-- A hop whose score stays below both thresholds leaves an open candidate low, since when it first was (R451). -/
theorem phraseHopStep_low (hdefer : s.pwr.deferral = none) (hruns : s.listenRuns = true) (hengine : s.phRuns = true)
    (hdue : max 1 s.ls.hop ≤ s.ls.hopCnt) {ph sc : Nat}
    (hph : ph = Config.phraseState s.ls.modelId s.ls.phSt
      ((List.range s.ls.hop).map fun k => s.hist (s.ls.idx - s.ls.hopCnt + k) (b2n (bit s.ls.pfl 1))))
    (hsc : sc = Config.phraseScore s.ls.modelId ph % 65536) (hcand : sc < s.ls.candThr) (hdet : sc < s.ls.detThr) :
    phraseHopStep s = { s with ls := { s.ls with
      hopCnt := s.ls.hopCnt - max 1 s.ls.hop, phSt := ph, score := sc,
      candLow := if s.ls.cand then some (s.ls.candLow.getD s.clk) else none } } := by
  have hready : ¬ s.ls.hopCnt < max 1 s.ls.hop := Nat.not_lt.mpr hdue
  unfold phraseHopStep phraseHopCore
  dsimp only
  rw [← hph, ← hsc]
  simp only [hruns, hengine, hready, Nat.not_le.mpr hdet, Nat.not_le.mpr hcand, Bool.not_true, Bool.or_self, decide_false,
    Bool.false_eq_true, false_and, if_false]
  exact deferCheck_none hdefer

/-! ### Waiting reads -/

theorem historyWaitStep_none (h : s.ls.waits = []) : historyWaitStep s = s := by
  unfold historyWaitStep
  rw [h]
  rfl

/-- The one wait is served when its samples have come (R472). -/
theorem historyWaitStep_ready {w : Nat × Nat} {f : Flight} (hwaits : s.ls.waits = [w]) (hflight : s.flightOf w.1 = some f)
    (hcome : w.2 + f.pkt.u16 18 ≤ s.ls.idx) :
    historyWaitStep s = historyDone w.1 f.pkt w.2 s.nowNs { s with ls := { s.ls with waits := [] } } := by
  unfold historyWaitStep
  simp only [hwaits, List.find?_cons, hflight, decide_eq_true hcome, List.erase_cons_head]

/-! ### The commit of a model -/

theorem modelCommitStep_none (h : s.ls.commitJob = none) : modelCommitStep s = s := by
  unfold modelCommitStep
  rw [h]

section
variable {id : Nat} (hjob : s.ls.commitJob = some id)
include hjob

/-- A commit that fails empties the model (R469). -/
theorem modelCommitStep_fails (hfault : (modelFault s.ls).1 ≠ 0) : modelCommitStep s =
    (let u := modelEmpty 0 0 { s with ls := { s.ls with mcrc := (modelFault s.ls).2 } }
     u.finishErr id { status := stBadParam, aux := (modelFault s.ls).1 } u.nowNs) := by
  unfold modelCommitStep
  split
  · next hnone => rw [hjob] at hnone; cases hnone
  · next hsome => rw [hjob] at hsome; cases hsome; exact if_neg hfault

/-- One that passes loads it, and the engine starts afresh where it runs (R469). -/
theorem modelCommitStep_loads (hfault : (modelFault s.ls).1 = 0) : modelCommitStep s =
    (let u : State := { s with ls := { s.ls with
       commitJob := none, mstate := 2, mcrc := (modelFault s.ls).2,
       modelId := fieldLe s.ls.mdata 28 4, hop := fieldLe s.ls.mdata 20 4 } }
     let b := if u.phRuns then phRestart u else u
     b.finishOk id (modelRec b) b.nowNs) := by
  unfold modelCommitStep
  split
  · next hnone => rw [hjob] at hnone; cases hnone
  · next hsome => rw [hjob] at hsome; cases hsome; exact if_pos hfault

end

end

/-- Settles O55: samples and the clock, candidates, blocks and hops, waiting reads, then the commit. -/
theorem listenStoresAndJudges : Obligations.ListenStoresAndJudges := by
  unfold Obligations.ListenStoresAndJudges
  intro dt m0 m1 s a ha h0 h1 hrange
  have hwf := wf_listenSample (dt := dt) h0 h1 hrange
  refine ⟨fun hidle => ⟨?_, ?_⟩, fun hruns => ⟨⟨listenSampleStep m0 m1 a, ?_, ?_⟩, ?_⟩, fun hdefer =>
    ⟨fun t hlow => ?_, fun hidle => ?_, fun hruns => ?_, fun n => vadOne_notFull, fun hearly => ?_,
      fun hruns hengine hdue => ?_⟩,
    fun hwaits => ?_, fun w f hwaits hflight hcome => ?_, fun hjob hdefer => ?_, fun id hjob hfault => ?_,
    fun id hjob hfault => ?_⟩
  · rw [exec_of_run (exec_listenSample dt m0 m1 s) hwf ha, listenSampleStep_idle m0 m1 hidle]
  · rw [exec_of_run (exec_listenClockSwitch dt s) rfl ha, if_neg (by rw [hidle]; exact Bool.false_ne_true)]
  · exact exec_of_run (exec_listenSample dt m0 m1 s) hwf ha
  · exact listenSampleStep_stores m0 m1 hruns rfl
  · rw [exec_of_run (exec_listenClockSwitch dt s) rfl ha, if_pos hruns]
  · rw [exec_of_run (exec_candidateTimeout dt s) rfl ha, deferCheck_none (by rw [candTimeoutStep_pwr, hdefer]),
      candTimeoutStep_low hlow]
  · rw [exec_of_run (exec_vadBlock dt s) rfl ha, vadBlockStep_idle hidle, deferCheck_none hdefer]
  · rw [exec_of_run (exec_vadBlock dt s) rfl ha, deferCheck_none (by rw [vadBlockStep_pwr, hdefer]), vadBlockStep, if_pos hruns]
  · rw [exec_of_run (exec_phraseHop dt s) rfl ha, phraseHopStep_early hdefer hearly]
  · intro x ph sc hcand hdet
    rw [exec_of_run (exec_phraseHop dt s) rfl ha, phraseHopStep_low hdefer hruns hengine hdue (ph := ph) (sc := sc) rfl rfl hcand hdet]
  · rw [exec_of_run (exec_historyWaitDone dt s) rfl ha, historyWaitStep_none hwaits]
  · rw [exec_of_run (exec_historyWaitDone dt s) rfl ha, historyWaitStep_ready hwaits hflight hcome]
  · rw [exec_of_run (exec_modelCommitDone dt s) rfl ha, modelCommitStep_none hjob, deferCheck_none hdefer]
  · rw [exec_of_run (exec_modelCommitDone dt s) rfl ha, modelCommitStep_fails hjob hfault]
  · rw [exec_of_run (exec_modelCommitDone dt s) rfl ha, modelCommitStep_loads hjob hfault]

end Sys2Proof.Machine
end

section
/-! The Gauge: passes, urgent conversions, entries, calibration steps and codes (R476 to R504). -/
namespace Sys2Proof.Machine
open Sys2Proof

section
variable {c : Nat} {s : State}

/-! ### Passes -/

/-- No pass falls due where the sequence does not run, or before the first frame (R483). -/
theorem gaugePassDueStep_idle (h : (s.framing && (s.gg c).running) = false ∨ s.eng.first = true) : gaugePassDueStep c s = s := by
  refine if_pos ?_
  rcases h with hidle | hfirst
  · rw [hidle, Bool.not_false, Bool.true_or]
  · rw [hfirst, Bool.or_true]

section
variable (hframing : s.framing = true) (hfirst : s.eng.first = false) (hrunning : (s.gg c).running = true)
include hframing hfirst hrunning

/-- A scheduled sequence's grid point is reached. -/
theorem gaugePassDueStep_grid (hmode : (s.gg c).mode = 2) (hgrid : 0 ≤ nsDiff s.nowNs (s.gg c).grid) :
    gaugePassDueStep c s =
      gaugeFalls c (s.setGg c { s.gg c with grid := ((s.gg c).grid + (s.gg c).period * 1000) % 2 ^ 64 }) := by
  simp only [gaugePassDueStep, hframing, hfirst, hrunning, hmode, hgrid, Bool.and_self, Bool.not_true, Bool.or_self,
    Bool.false_eq_true, if_false, if_true]

/-- A triggered sequence's trigger is served. -/
theorem gaugePassDueStep_trigger (hmode : (s.gg c).mode = 3) (htrig : 0 < (s.gg c).trigPend) :
    gaugePassDueStep c s = gaugeFalls c (s.setGg c { s.gg c with trigPend := (s.gg c).trigPend - 1 }) := by
  have hnotGrid : ¬ (3 : Nat) = 2 := by decide
  simp only [gaugePassDueStep, hframing, hfirst, hrunning, hmode, htrig, hnotGrid, Bool.and_self, Bool.not_true, Bool.or_self,
    Bool.false_eq_true, and_self, if_false, if_true]

end

theorem gaugeFalls_holds (hpass : (s.gg c).inPass = true) (hheld : (s.gg c).held = false) :
    gaugeFalls c s = s.setGg c { s.gg c with held := true } := by
  simp only [gaugeFalls, hpass, hheld, Bool.true_or, Bool.not_true, Bool.false_eq_true, if_false]

theorem gaugeFalls_counts (hpass : (s.gg c).inPass = true) (hheld : (s.gg c).held = true) :
    gaugeFalls c s = s.setGg c { s.gg c with overrun := satInc 31 (s.gg c).overrun } := by
  simp only [gaugeFalls, hpass, hheld, Bool.true_or, Bool.not_true, Bool.false_eq_true, if_false, if_true]

theorem gaugeFalls_begins (hpass : (s.gg c).inPass = false) (hcal : (s.gg c).calHolds = false) :
    gaugeFalls c s = gaugeBegin c s := if_pos (by rw [hpass, hcal]; rfl)

/-! ### Conversions -/

/-- The jack unit holds back GB alone (R482). -/
theorem not_jackHolds {jack : Bool} (h : c = 0 ∨ jack = false) : (decide (c = 1) && jack) = false := by
  rcases h with rfl | rfl
  · rfl
  · exact Bool.and_false _

/-- The first urgent conversion takes a converter that is free for it, and the entry that it cuts runs again (R482). -/
theorem gaugeUrgStart_takes {u : GUrg} {r : List GUrg} (hurg : (s.gg c).urg = u :: r) (hwaits : u.started = none)
    (hframing : s.framing = true) (hfree : s.gaugeFree c = true)
    (hjack : c = 0 ∨ (s.gbJack = false ∧ s.jackBy (min s.clk u.at0) = false)) :
    gaugeUrgStart c s = s.setGg c { s.gg c with
      cur := none, nextEnt := ((s.gg c).cur.map (·.ent)).getD (s.gg c).nextEnt,
      urg := { u with started := some s.clk } :: r } := by
  have hturn : (decide (c = 1) && (s.gbJack || s.jackBy (min s.clk u.at0))) = false :=
    not_jackHolds (hjack.imp_right fun ⟨hmeas, hpoll⟩ => by rw [hmeas, hpoll, Bool.or_self])
  unfold gaugeUrgStart
  simp only [hurg]
  exact if_pos ⟨hframing, by rw [hwaits]; rfl, hfree, by rw [hturn]; rfl⟩

/-- An urgent conversion under way ends once its settle and its conversion have passed. -/
theorem gaugeConvEnd_urgent {u : GUrg} {r : List GUrg} {st : Nat} (raw : Int) (ovr : Bool) (hurg : (s.gg c).urg = u :: r)
    (hcal : u.cal = none) (hstart : u.started = some st) :
    gaugeConvEnd c raw ovr s =
      if st + u.settle * 1000 + ctimeNs u.ctime ≤ s.clk then gaugeUrgEnd c u st raw ovr s else s := by
  cases u
  cases hcal
  cases hstart
  unfold gaugeConvEnd
  simp only [hurg]

theorem gaugeConvEnd_idle (raw : Int) (ovr : Bool) (hurg : (s.gg c).urg = []) (hcur : (s.gg c).cur = none) :
    gaugeConvEnd c raw ovr s = s := by
  unfold gaugeConvEnd
  simp only [hurg, hcur]

/-- An entry's conversion ends once its settle and its conversion have passed, on GB where the jack unit does not convert. -/
theorem gaugeConvEnd_entry {v : GConv} {e : GEntry} (raw : Int) (ovr : Bool) (hurg : (s.gg c).urg = [])
    (hcur : (s.gg c).cur = some v) (hentry : (s.gg c).seq[v.ent]? = some e) (hjack : c = 0 ∨ s.gbJack = false)
    (hdue : v.at0 + e.settle * 1000 + ctimeNs e.ctime ≤ s.clk) :
    gaugeConvEnd c raw ovr s = gaugeEntryEnd c v e raw ovr s := by
  unfold gaugeConvEnd
  simp only [hurg, hcur, hentry]
  exact if_pos ⟨hdue, by rw [not_jackHolds hjack]; rfl⟩

/-! ### Calibration steps of one conversion -/

/-- The one conversion of a step is the one overranged, or none is. -/
theorem calOver_single (u : GUrg) (raw : Int) :
    calOver u [raw] none = if gOver u.input u.gain raw false then some 0 else none := by
  cases hover : gOver u.input u.gain raw false with
  | false => simp [calOver, hover]
  | true => simp [calOver, hover]

/-- A step of one conversion ends once its settle, the jack unit's conversions and its own have passed, on GB where the jack unit
does not convert (R492). -/
theorem gaugeCalDone_single {u : GUrg} {r : List GUrg} {j : GCalJob} {st : Nat} (raw : Int) (hurg : (s.gg c).urg = u :: r)
    (hcal : u.cal = some j) (hstart : u.started = some st) (hnavg : j.navg = 1) :
    gaugeCalDone c [raw] none s =
      if st + 100000 + u.extra + ctimeNs u.ctime ≤ s.clk ∧ !(decide (c = 1) && s.gbJack) then
        calRelease c u.id (calResult u j c [raw] (if gOver u.input u.gain raw false then some 0 else none) s)
      else s := by
  unfold gaugeCalDone
  simp only [hurg, hcal, hstart, hnavg, calOver_single]
  -- overranged or not, one conversion has been made
  cases gOver u.input u.gain raw false with
  | false => simp
  | true => simp

/-! ### Codes -/

theorem gaugeCode_over {input gain : Nat} {rawOnly ovr : Bool} {raw : Int} (h : gOver input gain raw ovr = true) :
    s.gaugeCode c input gain rawOnly raw ovr = (if raw < 0 then -8388608 else 8388607, true) := if_pos h

theorem gRaw_range {input gain : Nat} {ovr : Bool} {raw : Int} (h : gOver input gain raw ovr = false) :
    ¬ gRaw input gain raw < -8388608 ∧ ¬ 8388607 < gRaw input gain raw := by
  simp only [gOver, Bool.or_eq_false_iff, decide_eq_false_iff_not] at h
  obtain ⟨⟨-, hlo⟩, hhi⟩ := h
  exact ⟨hlo, hhi⟩

/-- A raw code that is not overranged needs no clamp. -/
theorem gaugeCode_raw {input gain : Nat} {ovr : Bool} {raw : Int} (h : gOver input gain raw ovr = false) :
    s.gaugeCode c input gain true raw ovr = (gRaw input gain raw, false) := by
  obtain ⟨hlo, hhi⟩ := gRaw_range h
  simp only [State.gaugeCode, clampI, h, hlo, hhi, Bool.false_eq_true, if_false, if_true, decide_false, Bool.or_self]

end

/-- Settles O56: passes that fall due and what a pass that falls due does, urgent conversions, entries, calibration steps, then codes. -/
theorem gaugePassesAndConversions : Obligations.GaugePassesAndConversions := by
  unfold Obligations.GaugePassesAndConversions
  intro dt c raw ovr s a ha hc
  have hwf : decide (c < 2) = true := decide_eq_true hc
  refine ⟨⟨fun hidle => ?_, fun hframing hfirst hrunning hmode htrig => ?_, fun hframing hfirst hrunning hmode hgrid => ?_,
    gaugeFalls_holds, gaugeFalls_counts, gaugeFalls_begins, fun u r hurg hwaits hframing hfree hjack => ?_,
    fun u r st hurg hcal hstart => ?_, fun hurg hcur => ?_, fun v e hurg hcur hentry hjack hdue => ?_,
    fun u r j st hurg hcal hstart hnavg hjack hdue => ?_, fun u r j st hurg hcal hstart hnavg hearly => ?_⟩,
    fun _ _ => gaugeCode_over, fun _ _ => gaugeCode_raw⟩
  · rw [exec_of_run (exec_gaugePassDue dt c s) hwf ha, gaugePassDueStep_idle hidle]
  · rw [exec_of_run (exec_gaugePassDue dt c s) hwf ha, gaugePassDueStep_trigger hframing hfirst hrunning hmode htrig]
  · rw [exec_of_run (exec_gaugePassDue dt c s) hwf ha, gaugePassDueStep_grid hframing hfirst hrunning hmode hgrid]
  · rw [exec_of_run (exec_urgentConversionStart dt c s) hwf ha, gaugeUrgStart_takes hurg hwaits hframing hfree hjack]
  · rw [exec_of_run (exec_gaugeConversionEnd dt c raw ovr s) hwf ha, gaugeConvEnd_urgent raw ovr hurg hcal hstart]
  · rw [exec_of_run (exec_gaugeConversionEnd dt c raw ovr s) hwf ha, gaugeConvEnd_idle raw ovr hurg hcur]
  · rw [exec_of_run (exec_gaugeConversionEnd dt c raw ovr s) hwf ha, gaugeConvEnd_entry raw ovr hurg hcur hentry hjack hdue]
  · rw [exec_of_run (exec_gaugeCalStepDone dt c [raw] none s) hwf ha, gaugeCalDone_single raw hurg hcal hstart hnavg,
      if_pos ⟨hdue, by rw [not_jackHolds hjack]; rfl⟩]
  · rw [exec_of_run (exec_gaugeCalStepDone dt c [raw] none s) hwf ha, gaugeCalDone_single raw hurg hcal hstart hnavg,
      if_neg fun ⟨hdue, _⟩ => Nat.not_le.mpr hearly hdue]

end Sys2Proof.Machine
end

section
/-! The register file and the rings: enables, registers that are only read, the doorbell and the release of records. -/
namespace Sys2Proof.Machine
open Sys2Proof

/-- Reset leaves every port's copy of the registers as its table gives it. -/
theorem State.reset_pr (port : Nat) : State.reset.pr port = {} := ite_self _

/-- Settles O3: the copy of each port, then the engine's registers and memory. -/
theorem resetLeavesRegisters : Obligations.ResetLeavesRegisters := by
  unfold Obligations.ResetLeavesRegisters
  refine ⟨fun port => ?_, rfl, rfl, rfl, rfl, rfl, rfl, rfl, rfl, rfl⟩
  rw [State.reset_pr]
  exact ⟨rfl, rfl, rfl⟩

/-- With all four bytes written, nothing of the register's old value is left in the word it takes. -/
theorem wholeWord {v : Nat} (hv : v < 4294967296) (old : Nat) :
    (v &&& byteMask 15) + (old &&& (0xFFFFFFFF - byteMask 15)) = v := by
  rw [and_byteMask_full hv]
  exact congrArg (v + ·) (Nat.and_zero old)

/-- Before READY no register takes a write (R513, R566). -/
theorem portWrite_beforeReady {s : State} (hready : s.pwr.ready = false) (port addr v : Nat) : portWrite port addr v s = s := by
  have hreg : regWrite port (addr - addr % 4) v 15 s = s := by simp [regWrite, hready]
  unfold portWrite
  rw [hreg, ite_self]

section
variable {s : State} (hready : s.pwr.ready = true) (port v : Nat)
include hready

/-- IDCODE, DEV_STAT and the snapshot are only read: cause 6. -/
theorem regWrite_readOnly {r : Nat} (hr : r = 0x000 ∨ r = 0x004 ∨ (0x044 ≤ r ∧ r < 0x058)) :
    regWrite port r v 15 s = s.portErr port 6 0 := by
  unfold regWrite
  simp only [hready, Bool.not_true, Bool.false_eq_true, if_false]
  repeat rw [if_neg (by omega)]
  rw [if_pos hr]

/-- SQ_HEAD and CQ_TAIL are only read: cause 6 with the queue. -/
theorem regWrite_readOnlyQueue {r q : Nat} (hr : r = 0x180 + 4 * q ∨ r = 0x200 + 4 * q) (hq : q < 32) :
    regWrite port r v 15 s = s.portErr port 6 q := by
  have hidx : (r - 0x180) / 4 % 32 = q := by omega
  unfold regWrite
  simp only [hready, Bool.not_true, Bool.false_eq_true, if_false]
  repeat rw [if_neg (by omega)]
  rw [if_pos (by omega), hidx]

variable {v} (hv : v < 4294967296)
include hv

/-- IRQ_EN: bit 0 stays 1. -/
theorem regWrite_irqEn : regWrite port 0x014 v 15 s = s.setPr port { s.pr port with irqEn := v % 32 ||| 1 } := by
  simp [regWrite, hready, wholeWord hv]

/-- CQ_IRQ_EN takes the value. -/
theorem regWrite_cqIrqEn : regWrite port 0x018 v 15 s = s.setPr port { s.pr port with cqIrqEn := v } := by
  simp [regWrite, hready, wholeWord hv]

/-- SQ_TAIL rings the doorbell of its queue. -/
theorem regWrite_sqTail {q : Nat} (hq : q < 32) : regWrite port (0x100 + 4 * q) v 15 s = doorbell port q v s := by
  have hidx : (0x100 + 4 * q - 0x100) / 4 = q := by omega
  unfold regWrite
  simp only [hready, Bool.not_true, Bool.false_eq_true, if_false, wholeWord hv]
  repeat rw [if_neg (by omega)]
  rw [if_pos (by omega), hidx]

/-- CQ_HEAD releases records of its queue. -/
theorem regWrite_cqHead {q : Nat} (hq : q < 32) : regWrite port (0x280 + 4 * q) v 15 s = cqRelease port q v s := by
  have hidx : (0x280 + 4 * q - 0x280) / 4 = q := by omega
  unfold regWrite
  simp only [hready, Bool.not_true, Bool.false_eq_true, if_false, wholeWord hv]
  repeat rw [if_neg (by omega)]
  rw [if_pos (by omega), hidx]

end

/-- Settles O13: no write before READY, then a register at a time. -/
theorem registerWriteSetsItsRegister : Obligations.RegisterWriteSetsItsRegister := by
  unfold Obligations.RegisterWriteSetsItsRegister
  intro dt port v s a hinv ha hregs hv
  have hwf : ∀ r : Nat, r < 0x1000 → (Instr.registerWrite dt port r v).wf = true := by
    intro r hr
    have hr24 : r < 16777216 := by omega
    simp [Instr.wf, hregs, hv, hr24]
  have hwrite : a.portRuns port = true → ∀ r : Nat, r < 0x1000 → r % 4 = 0 →
      exec (.registerWrite dt port r v) s = .next (regWrite port r v 15 a) :=
    fun hport r hr => exec_regWrite (exec_registerWrite dt port r v s) (hwf r hr) hinv ha hport hr
  refine ⟨fun r hr hboot => ?_, fun hport hready => ⟨?_, ?_, fun r hr => ?_, fun q hq => ⟨?_, ?_⟩⟩⟩
  · exact (exec_registerWrite dt port r v s).trans
      (run_answers ha (hwf r hr) hinv (portWrite_beforeReady hboot port r v) rfl rfl rfl)
  · rw [hwrite hport _ (by decide) rfl, regWrite_irqEn hready port hv]
  · rw [hwrite hport _ (by decide) rfl, regWrite_cqIrqEn hready port hv]
  · rw [hwrite hport r (by omega) (by omega), regWrite_readOnly hready port v (by omega)]
  · rw [hwrite hport _ (by omega) (by omega), regWrite_readOnlyQueue hready port v (.inl rfl) hq]
  · rw [hwrite hport _ (by omega) (by omega), regWrite_readOnlyQueue hready port v (.inr rfl) hq]

/-- The first n bytes of a queue's submission ring from SQ_HEAD on (R519). -/
def State.ringBytes (s : State) (q n : Nat) : List Byte :=
  (List.range n).map fun i => mread s.mem (0x10000 + q * 0x1000 + ((s.queue q).sqHead + i) % 4096)

/-- A field of bytes that a rule gives one by one does not depend on how many of them follow it. -/
theorem fieldLe_map_range (f : Nat → Byte) {i k n : Nat} (h : i + k ≤ n) :
    fieldLe ((List.range n).map f) i k = unle ((List.range k).map fun j => f (i + j)) := by
  unfold fieldLe
  refine congrArg unle (List.map_congr_left fun j hj => ?_)
  have hj' : i + j < n := by have := List.mem_range.mp hj; omega
  simp [List.getD_eq_getElem?_getD, hj']

theorem lenBad_false {n : Nat} (h : lenBad n = false) : n % 4 = 0 ∧ 16 ≤ n ∧ n ≤ 1024 := by
  simp only [lenBad, Bool.or_eq_false_iff, decide_eq_false_iff_not] at h
  omega

/-- A packet that joins a queue moves no pointer of a ring. -/
theorem State.enqueue_ring (s : State) (p : Packet) (q : Nat) :
    ((s.enqueue p).queue q).sqHead = (s.queue q).sqHead ∧ ((s.enqueue p).queue q).sqTail = (s.queue q).sqTail := by
  have hset : ∀ v : Queue, v.sqHead = (s.queue p.queue).sqHead → v.sqTail = (s.queue p.queue).sqTail →
      ((s.setQueue p.queue v).queue q).sqHead = (s.queue q).sqHead ∧
      ((s.setQueue p.queue v).queue q).sqTail = (s.queue q).sqTail := by
    intro v hhead htail
    by_cases hq : q = p.queue
    · subst hq
      rw [State.queue_setQueue_same]
      exact ⟨hhead, htail⟩
    · rw [State.queue_setQueue_other _ _ _ _ hq]
      exact ⟨rfl, rfl⟩
  unfold State.enqueue
  dsimp only
  split
  · exact hset _ rfl rfl
  · exact hset _ rfl rfl

/-- With SQ_HEAD at SQ_TAIL no packet is in the ring. -/
theorem takePackets_empty {s : State} {q : Nat} (n : Nat) (h : (s.queue q).sqHead = (s.queue q).sqTail) : takePackets q n s = s := by
  have hnone : ((s.queue q).sqTail + 65536 - (s.queue q).sqTail) % 65536 = 0 := by omega
  cases n with
  | zero => rfl
  | succ n =>
    unfold takePackets
    simp only [h, hnone]
    rw [if_pos (.inl (by decide))]

/-- A ring whose bytes are one complete packet gives it. -/
theorem takePackets_one {s : State} {q len : Nat} (n : Nat)
    (hbytes : ((s.queue q).sqTail + 65536 - (s.queue q).sqHead) % 65536 = len)
    (hlen : fieldLe (s.ringBytes q len) 4 2 = len) (hok : lenBad len = false) :
    takePackets q (n + 1) s = takePackets q n
      ((s.setQueue q { s.queue q with sqHead := ((s.queue q).sqHead + len) % 65536 }).enqueue (packetOf q (s.ringBytes q len))) := by
  obtain ⟨-, hmin, -⟩ := lenBad_false hok
  have hhead : fieldLe (s.ringBytes q 6) 4 2 = len := by
    rw [← hlen]
    unfold State.ringBytes
    rw [fieldLe_map_range _ (by decide), fieldLe_map_range _ (by omega)]
  have htakes : ¬ (len < 8 ∨ (!lenBad len) = true ∧ len < len) := by omega
  unfold State.ringBytes at hhead
  conv => lhs; unfold takePackets
  simp only [hbytes, hhead]
  rw [if_neg htakes]
  simp only [hok, Bool.false_eq_true, if_false]
  rfl

section
variable {a : State} {q v : Nat}

/-- SQ_TAIL of a queue of another port: cause 1. -/
theorem doorbell_otherPort (v : Nat) (hport : (a.queue q).port ≠ 1) : doorbell 1 q v a = a.portErr 1 1 q := by
  unfold doorbell
  rw [if_pos (.inr hport)]

variable (hv : v < 65536) (hport : (a.queue q).port = 1)
include hv hport

/-- A tail that the ring cannot have: cause 2. -/
theorem doorbell_badTail (htail : v % 4 ≠ 0 ∨ 4096 < (v + 65536 - (a.queue q).sqHead) % 65536) :
    doorbell 1 q v a = a.portErr 1 2 q := by
  unfold doorbell
  simp only [Nat.mod_eq_of_lt hv]
  rw [if_neg (by omega), if_pos htail]

/-- A tail that completes exactly one packet: the packet joins the queue, and the ring is empty behind it. -/
theorem doorbell_one {len : Nat} (hbytes : (v + 65536 - (a.queue q).sqHead) % 65536 = len) (hword : v % 4 = 0)
    (hring : len ≤ 4096) (hhead : (a.queue q).sqHead < 65536) (hlen : fieldLe (a.ringBytes q len) 4 2 = len)
    (hok : lenBad len = false) :
    doorbell 1 q v a = (a.setQueue q { a.queue q with sqTail := v, sqHead := v }).enqueue (packetOf q (a.ringBytes q len)) := by
  have hend : ((a.queue q).sqHead + len) % 65536 = v := by omega
  have hrung : (a.setQueue q { a.queue q with sqTail := v }).ringBytes q len = a.ringBytes q len := by
    unfold State.ringBytes
    rw [State.queue_setQueue_same]
    rfl
  have hqueue : (a.setQueue q { a.queue q with sqTail := v }).setQueue q { a.queue q with sqTail := v, sqHead := v } =
      a.setQueue q { a.queue q with sqTail := v, sqHead := v } := by
    simp only [State.setQueue, tset_tset]
  unfold doorbell
  simp only [Nat.mod_eq_of_lt hv]
  rw [if_neg (by omega), if_neg (by omega)]
  rw [takePackets_one (len := len) 255 (by rw [State.queue_setQueue_same]; exact hbytes) (by rw [hrung]; exact hlen) hok, hrung]
  simp only [State.queue_setQueue_same, hend, hqueue]
  refine takePackets_empty 255 ?_
  rw [(State.enqueue_ring _ _ q).1, (State.enqueue_ring _ _ q).2, State.queue_setQueue_same]

end

/-- Settles O14: the port, the tail, then the one packet. -/
theorem doorbellTakesPackets : Obligations.DoorbellTakesPackets := by
  unfold Obligations.DoorbellTakesPackets
  intro dt q v s a hinv ha hq hv hqspi hready
  have hv32 : v < 4294967296 := by omega
  have hring : exec (.sqTailDoorbell dt q v) s = .next (doorbell 1 q v a) := by
    rw [exec_regWrite (exec_sqTailDoorbell dt q v s) (by simp [Instr.wf, hq, hv32]) hinv ha hqspi (by omega) (by omega),
      regWrite_sqTail hready 1 hv32 hq]
  rw [hring]
  refine ⟨fun hport => ?_, fun hport htail => ?_, fun hport hword hlen hhead hfield hok => ?_⟩
  · rw [doorbell_otherPort v hport]
  · rw [doorbell_badTail hv hport htail]
  · rw [doorbell_one hv hport rfl hword hlen hhead hfield hok]; rfl

/-- The ends that follow the first v of a list. -/
theorem afterEnd_first {old : List Nat} (new : List Nat) {v : Nat} (h : v ∉ old) : afterEnd v (old ++ v :: new) = new := by
  induction old with
  | nil => exact if_pos rfl
  | cons e old ih =>
    obtain ⟨hne, hrest⟩ := not_or.mp (mt List.mem_cons.mpr h)
    exact (if_neg (Ne.symm hne)).trans (ih hrest)

section
variable {a : State} {q v : Nat} (port : Nat) (hv : v < 65536)
include hv

/-- CQ_HEAD with its present value. -/
theorem cqRelease_present (h : v = (a.queue q).cqHead) : cqRelease port q v a = a := by
  unfold cqRelease
  rw [Nat.mod_eq_of_lt hv, if_pos h]

variable (hmoves : v ≠ (a.queue q).cqHead)
include hmoves

/-- CQ_HEAD at the end of an unread record: the records up to it are released. -/
theorem cqRelease_end {old new : List Nat} (hends : (a.queue q).recEnds = old ++ v :: new) (hfirst : v ∉ old) :
    cqRelease port q v a = a.setQueue q { a.queue q with
      cqHead := v, recEnds := new, lostEnds := (a.queue q).lostEnds.filter new.contains } := by
  unfold cqRelease
  simp only [Nat.mod_eq_of_lt hv, if_neg hmoves, hends, afterEnd_first new hfirst]
  rw [if_pos (by simp)]

/-- CQ_HEAD at any other value: cause 3. -/
theorem cqRelease_noEnd (hends : v ∉ (a.queue q).recEnds) : cqRelease port q v a = a.portErr port 3 q := by
  unfold cqRelease
  simp only [Nat.mod_eq_of_lt hv, if_neg hmoves]
  rw [if_neg (by simpa using hends)]

end

/-- Settles O15: the present head, the end of a record, then any other value. -/
theorem cqHeadReleasesRecords : Obligations.CqHeadReleasesRecords := by
  unfold Obligations.CqHeadReleasesRecords
  intro dt port q v s a hinv ha hregs hq hv hport hready
  have hv32 : v < 4294967296 := by omega
  have hrelease : exec (.cqHeadRelease dt port q v) s = .next (cqRelease port q v a) := by
    rw [exec_regWrite (exec_cqHeadRelease dt port q v s) (by simp [Instr.wf, hregs, hq, hv32]) hinv ha hport (by omega) (by omega),
      regWrite_cqHead hready port hv32 hq]
  rw [hrelease]
  refine ⟨fun hhead => ?_, fun old new hends hfirst hmoves => ?_, fun hends hmoves => ?_⟩
  · rw [cqRelease_present port hv hhead]
  · rw [cqRelease_end port hv hmoves hends hfirst]
  · rw [cqRelease_noEnd port hv hmoves hends]

end Sys2Proof.Machine
end

section
/-! QSPI: what a burst reads and what it stores (R508 to R512). -/
namespace Sys2Proof.Machine
open Sys2Proof

/-- A burst reads the byte of each of its addresses. -/
theorem State.qspiBurst_eq (s : State) (n : Nat) :
    ∀ a : Nat, s.qspiBurst n a = (List.range n).map fun k => s.qspiByte (burstAddr a k) := by
  induction n with
  | zero => intro a; rfl
  | succ n ih =>
    intro a
    rw [State.qspiBurst, ih (nextAddr a), List.range_succ_eq_map, List.map_cons, List.map_map]
    exact congrArg _ (List.map_congr_left fun k _ => congrArg s.qspiByte (burstAddr_next k a))

theorem qspiRead_on {s : State} (hon : s.qspiOn = true) (addr n : Nat) :
    qspiRead addr n s = { s with qout := (List.range n).map fun k => s.qspiByte (burstAddr addr k) } := by
  unfold qspiRead
  rw [if_pos hon, State.qspiBurst_eq]

/-- Byte k of a number of n little-endian bytes. -/
theorem le_getD {n : Nat} : ∀ {k : Nat} (x : Nat), k < n → (le n x).getD k 0#8 = BitVec.ofNat 8 (x / 256 ^ k) := by
  induction n with
  | zero => intro k x h; omega
  | succ n ih =>
    intro k x h
    cases k with
    | zero => rw [le, List.getD_cons_zero, Nat.pow_zero, Nat.div_one]
    | succ k => rw [le, List.getD_cons_succ, ih _ (by omega), Nat.div_div_eq_div_mul, Nat.pow_succ']

theorem le_length (n : Nat) : ∀ x : Nat, (le n x).length = n := by
  induction n with
  | zero => intro x; rfl
  | succ n ih => intro x; exact congrArg (· + 1) (ih _)

/-- A number's w bytes repeated. -/
theorem repeated_le {w : Nat} (hw : 0 < w) (x n : Nat) :
    repeated (le w x) n = (List.range n).map fun k => BitVec.ofNat 8 (x / 256 ^ (k % w)) := by
  unfold repeated
  rw [le_length, Nat.max_eq_right hw]
  exact List.map_congr_left fun k _ => le_getD x (Nat.mod_lt k hw)

/-- One byte repeated. -/
theorem repeated_byte (x n : Nat) : repeated (le 1 x) n = List.replicate n (BitVec.ofNat 8 x) := by
  rw [repeated_le (by decide)]
  simp only [Nat.mod_one, Nat.pow_zero, Nat.div_one]
  rw [List.map_const', List.length_range]

/-- An instruction byte that R508 does not list. -/
theorem qspiUnknown_unlisted {s : State} (hon : s.qspiOn = true) {code : Nat}
    (h : code ∉ [0x03, 0x0B, 0xEB, 0x02, 0x32, 0x05, 0x9F]) : qspiUnknown code s = s.portErr 1 6 0 := by
  unfold qspiUnknown
  rw [if_pos ⟨hon, by simpa using h⟩]

/-- Settles O16: the three reads, the status and the identification, then any other instruction byte. -/
theorem qspiReadsChangeNothing : Obligations.QspiReadsChangeNothing := by
  unfold Obligations.QspiReadsChangeNothing
  intro dt addr n s a hinv ha haddr hon
  have hread := qspiRead_on hon addr n
  have hwf : decide (addr < 16777216) = true := decide_eq_true haddr
  refine ⟨?_, ?_, ?_, ?_, ?_, fun code hcode hunlisted => ?_⟩
  · exact (exec_read dt addr n s).trans (run_answers ha hwf hinv hread rfl rfl rfl)
  · exact (exec_fastRead dt addr n s).trans (run_answers ha hwf hinv hread rfl rfl rfl)
  · exact (exec_quadRead dt addr n s).trans (run_answers ha hwf hinv hread rfl rfl rfl)
  · exact (exec_readStatus dt n s).trans (run_answers ha rfl hinv (by rw [if_pos hon, repeated_byte]) rfl rfl rfl)
  · exact (exec_readId dt n s).trans (run_answers ha rfl hinv (by rw [if_pos hon, repeated_le (by decide)]) rfl rfl rfl)
  · exact (exec_qspiUnknownInstruction dt code s).trans
      (run_answers ha (decide_eq_true hcode) hinv (qspiUnknown_unlisted hon hunlisted) (by simp) (by simp) (by simp))

/-- A burst stores at address a: a window of a queue bound to QSPI, or the bulk window (R512). -/
def State.storesAt (s : State) (a : Nat) : Prop :=
  (inWindow a = true ∧ (s.queue (windowQueue a)).port = 1) ∨ (0x100000 ≤ a ∧ a < 0x200000)

theorem inWindow_iff {a : Nat} : inWindow a = true ↔ 0x10000 ≤ a ∧ a < 0x50000 := by
  simp [inWindow]

/-- Neither a window nor the bulk window lies in the register file. -/
theorem State.storesAt_not_register {s : State} {a : Nat} (h : s.storesAt a) : ¬ a < 0x1000 := by
  rcases h with ⟨hwin, -⟩ | ⟨hbulk, -⟩
  · have := inWindow_iff.mp hwin; omega
  · omega

theorem State.qspiStore_storesAt {s : State} {a : Nat} (h : s.storesAt a) (b : Byte) :
    s.qspiStore a b = { s with mem := mwrite s.mem a b } := by
  unfold State.qspiStore
  rcases h with ⟨hwin, hport⟩ | hbulk
  · simp only [hwin, hport, if_true]
  · have hout : inWindow a = false := by
      rw [Bool.eq_false_iff, ne_eq, inWindow_iff]; omega
    simp only [hout, Bool.false_eq_true, if_false, if_pos hbulk]

/-- In a window of another port's queue a byte is not stored: cause 1. -/
theorem State.qspiStore_refused {s : State} {a q : Nat} (hwin : inWindow a = true) (hq : windowQueue a = q)
    (hport : (s.queue q).port ≠ 1) (b : Byte) : s.qspiStore a b = s.portErr 1 1 q := by
  unfold State.qspiStore
  simp only [hwin, hq, if_true, if_neg hport]

/-- The next byte of a burst outside the register file. -/
theorem qspiWrites_cons {a : Nat} (h : ¬ a < 0x1000) (b : Byte) (bs : List Byte) (v m : Nat) (s : State) :
    qspiWrites v m a (b :: bs) s = qspiWrites 0 0 (nextAddr a) bs (s.qspiStore a b) := by
  rw [qspiWrites, if_neg h]

/-- The addresses of a burst of n bytes that starts at a rise by one. -/
def Straight (a n : Nat) : Prop := ∀ k, k + 1 < n → nextAddr (a + k) = a + k + 1

theorem Straight.tail {a n : Nat} (h : Straight a (n + 1)) : Straight (a + 1) n := by
  intro k hk
  have := h (k + 1) (by omega)
  rwa [← Nat.add_assoc, Nat.add_right_comm] at this

/-- A burst inside one page rises by one (R509). -/
theorem straight_page {a n : Nat} (hwin : inWindow a = true) (hpage : a % 4096 + n ≤ 4096) : Straight a n := by
  intro k hk
  have ha := inWindow_iff.mp hwin
  have hk' : inWindow (a + k) = true := inWindow_iff.mpr (by omega)
  unfold nextAddr
  rw [if_pos hk']
  omega

/-- So does one inside the bulk window. -/
theorem straight_bulk {a n : Nat} (hlo : 0x100000 ≤ a) (hhi : a + n ≤ 0x200000) : Straight a n := by
  intro k hk
  have hout : ¬ inWindow (a + k) = true := by rw [inWindow_iff]; omega
  unfold nextAddr
  rw [if_neg hout]
  exact Nat.mod_eq_of_lt (by omega)

/-- The addresses of a page belong to one window. -/
theorem window_page {a k : Nat} (hwin : inWindow a = true) (hpage : a % 4096 + k < 4096) :
    inWindow (a + k) = true ∧ windowQueue (a + k) = windowQueue a := by
  have ha := inWindow_iff.mp hwin
  unfold windowQueue
  exact ⟨inWindow_iff.mpr (by omega), by omega⟩

/-- A burst whose addresses rise by one, all of them where a burst stores, stores its bytes. -/
theorem qspiWrites_stores (data : List Byte) : ∀ (a : Nat) (s : State), (∀ k, k < data.length → s.storesAt (a + k)) →
    Straight a data.length → qspiWrites 0 0 a data s = { s with mem := mwrites s.mem a data } := by
  induction data with
  | nil => intro a s _ _; rfl
  | cons b bs ih =>
    intro a s hstores hrise
    have hfirst : s.storesAt a := hstores 0 (Nat.succ_pos _)
    rw [qspiWrites_cons (State.storesAt_not_register hfirst), State.qspiStore_storesAt hfirst]
    cases bs with
    | nil => rfl
    | cons c cs =>
      have hnext : nextAddr a = a + 1 := hrise 0 (by simp)
      rw [hnext, ih (a + 1) _ (fun k hk => ?_) hrise.tail]
      · rfl
      · have := hstores (k + 1) (Nat.succ_lt_succ hk)
        rwa [← Nat.add_assoc, Nat.add_right_comm] at this

/-- A burst inside one window of another port's queue stores nothing: each byte counts as one error (R517). -/
theorem qspiWrites_refused {q : Nat} (data : List Byte) : ∀ (a : Nat) (s : State), data ≠ [] → inWindow a = true →
    windowQueue a = q → a % 4096 + data.length ≤ 4096 → (s.queue q).port ≠ 1 →
    ∃ sat : Bool, qspiWrites 0 0 a data s = { s with pr1 := { s.pr1 with
      stickyErr := true, errCause := 1, errQueue := q, errCnt := min 0xFFFF (s.pr1.errCnt + data.length), errSat := sat } } := by
  induction data with
  | nil => intro a s hne; exact absurd rfl hne
  | cons b bs ih =>
    intro a s _ hwin hq hpage hport
    have hreg : ¬ a < 0x1000 := by have := inWindow_iff.mp hwin; omega
    rw [qspiWrites_cons hreg, State.qspiStore_refused hwin hq hport]
    cases bs with
    | nil => exact ⟨_, rfl⟩
    | cons c cs =>
      simp only [List.length_cons] at hpage ⊢
      have hnext : nextAddr a = a + 1 := straight_page hwin (n := 2) (by omega) 0 (by decide)
      obtain ⟨hwin', hq'⟩ := window_page (k := 1) hwin (by omega)
      obtain ⟨sat, hrest⟩ := ih (a + 1) (s.portErr 1 1 q) (List.cons_ne_nil c cs) hwin' (hq'.trans hq)
        (by simp only [List.length_cons]; omega) hport
      have hcount : min 0xFFFF (min 0xFFFF (s.pr1.errCnt + 1) + (cs.length + 1)) =
          min 0xFFFF (s.pr1.errCnt + (cs.length + 1 + 1)) := by omega
      refine ⟨sat, ?_⟩
      rw [hnext, hrest, ← hcount]
      rfl

/-- t differs from s in memory at most at the addresses P, and keeps its canonical form; TW0, the commands in flight and what the
engine has pending are as s has them. -/
structure StoresOnly (P : Nat → Prop) (s t : State) : Prop where
  flight : t.flight = s.flight
  tw0 : t.tw0 = s.tw0
  pendSet : t.eng.pendSet = s.eng.pendSet
  pendB : t.eng.pendB = s.eng.pendB
  others : ∀ x, ¬ P x → mread t.mem x = mread s.mem x
  wf : memWf s.mem = true → memWf t.mem = true

theorem StoresOnly.refl (P : Nat → Prop) (s : State) : StoresOnly P s s := ⟨rfl, rfl, rfl, rfl, fun _ _ => rfl, id⟩

theorem StoresOnly.trans {P : Nat → Prop} {s t u : State} (h : StoresOnly P s t) (g : StoresOnly P t u) : StoresOnly P s u :=
  ⟨g.flight.trans h.flight, g.tw0.trans h.tw0, g.pendSet.trans h.pendSet, g.pendB.trans h.pendB,
    fun x hx => (g.others x hx).trans (h.others x hx), g.wf ∘ h.wf⟩

theorem StoresOnly.mono {P Q : Nat → Prop} {s t : State} (hPQ : ∀ x, P x → Q x) (h : StoresOnly P s t) : StoresOnly Q s t :=
  ⟨h.flight, h.tw0, h.pendSet, h.pendB, fun x hx => h.others x (mt (hPQ x) hx), h.wf⟩

/-- What stores nothing. -/
theorem StoresOnly.ports {P : Nat → Prop} {s t : State} (h : PortsOnly s t) : StoresOnly P s t :=
  ⟨h.flight, h.tw0, h.pendSet, h.pendB, fun _ _ => by rw [h.mem], fun hwf => by rw [h.mem]; exact hwf⟩

theorem StoresOnly.qspiStore {P : Nat → Prop} (s : State) {a : Nat} (hP : P a) (b : Byte) : StoresOnly P s (s.qspiStore a b) := by
  obtain ⟨hflight, htw0, heng, hmem⟩ := s.qspiStore_frame a b
  refine ⟨hflight, htw0, by rw [heng], by rw [heng], fun x hx => ?_, fun hwf => ?_⟩
  · rcases hmem with h | h
    · rw [h]
    · have hne : x ≠ a := fun hxa => hx (hxa ▸ hP)
      rw [h, mread_mwrite_other _ _ _ _ hne]
  · rcases hmem with h | h
    · rw [h]; exact hwf
    · rw [h]; exact memWf_mwrite _ _ _ hwf

/-- The addresses of a burst of n bytes that starts at a, as R509 counts. -/
def burstHits (a n x : Nat) : Prop := ∃ k, k < n ∧ burstAddr a k = x

theorem burstHits_tail {a n x : Nat} (h : burstHits (nextAddr a) n x) : burstHits a (n + 1) x := by
  obtain ⟨k, hk, hx⟩ := h
  exact ⟨k + 1, Nat.succ_lt_succ hk, (burstAddr_next k a).symm.trans hx⟩

/-- A burst changes the bytes of its own addresses only. -/
theorem qspiWrites_storesOnly (data : List Byte) :
    ∀ (v m a : Nat) (s : State), StoresOnly (burstHits a data.length) s (qspiWrites v m a data s) := by
  induction data with
  | nil => intro v m a s; exact .refl _ s
  | cons b bs ih =>
    intro v m a s
    have hrest : ∀ v m t, StoresOnly (burstHits a (bs.length + 1)) t (qspiWrites v m (nextAddr a) bs t) :=
      fun v m t => (ih v m (nextAddr a) t).mono fun _ => burstHits_tail
    unfold qspiWrites
    dsimp only
    split
    · split
      · exact (StoresOnly.ports (.regWrite _ _ _ _ s)).trans (hrest _ _ _)
      · exact hrest _ _ _
    · exact (StoresOnly.qspiStore s ⟨0, Nat.succ_pos _, rfl⟩ b).trans (hrest _ _ _)

theorem qspiWrite_on {s : State} (hon : s.qspiOn = true) (addr : Nat) (data : List Byte) :
    qspiWrite addr data s = qspiWrites 0 0 addr data s := if_pos hon

theorem qspiWrite_storesOnly (addr : Nat) (data : List Byte) (s : State) :
    StoresOnly (burstHits addr data.length) s (qspiWrite addr data s) := by
  unfold qspiWrite
  split
  · exact qspiWrites_storesOnly data 0 0 addr s
  · exact .refl _ s

/-- WRITE and QUAD_WRITE answer what the burst leaves. -/
theorem exec_writes {dt addr : Nat} {data : List Byte} {s a t : State} (hinv : s.Inv) (ha : s.advance dt = a)
    (haddr : addr < 16777216) (ht : qspiWrite addr data a = t) :
    exec (.write dt addr data) s = .next t ∧ exec (.quadWrite dt addr data) s = .next t := by
  have hwf : decide (addr < 16777216) = true := decide_eq_true haddr
  have hkeeps : StoresOnly (burstHits addr data.length) a t := ht ▸ qspiWrite_storesOnly addr data a
  exact ⟨(exec_write dt addr data s).trans (run_answers ha hwf hinv ht hkeeps.flight hkeeps.pendSet hkeeps.pendB),
    (exec_quadWrite dt addr data s).trans (run_answers ha hwf hinv ht hkeeps.flight hkeeps.pendSet hkeeps.pendB)⟩

/-- Settles O17: a burst that stores, one that another port's window refuses, then what any burst leaves. -/
theorem qspiWriteStoresItsBytes : Obligations.QspiWriteStoresItsBytes := by
  unfold Obligations.QspiWriteStoresItsBytes
  refine ⟨fun dt addr data s a hinv ha hdata haddr hon => ⟨fun hplace => ?_, fun hwin hpage hport => ?_⟩,
    fun dt addr data s a hinv ha haddr => ?_⟩
  · refine exec_writes hinv ha haddr ((qspiWrite_on hon addr data).trans ?_)
    rcases hplace with ⟨hwin, hpage, hport⟩ | ⟨hlo, hhi⟩
    · refine qspiWrites_stores data addr a (fun k hk => .inl ?_) (straight_page hwin hpage)
      obtain ⟨hwink, hqk⟩ := window_page (k := k) hwin (by omega)
      exact ⟨hwink, by rw [hqk]; exact hport⟩
    · exact qspiWrites_stores data addr a (fun k hk => .inr (by omega)) (straight_bulk hlo hhi)
  · obtain ⟨sat, hburst⟩ := qspiWrites_refused data addr a hdata hwin rfl hpage hport
    obtain ⟨hwrite, hquad⟩ := exec_writes hinv ha haddr ((qspiWrite_on hon addr data).trans hburst)
    exact ⟨_, hwrite, hquad, rfl, rfl⟩
  · obtain ⟨hwrite, hquad⟩ := exec_writes hinv ha haddr (data := data) rfl
    have hkeeps := qspiWrite_storesOnly addr data a
    refine ⟨_, hwrite, hquad, fun x hx => hkeeps.others x ?_, hkeeps.wf, hkeeps.tw0, hkeeps.flight⟩
    rintro ⟨k, hk, hkx⟩
    exact hx k hk hkx

end Sys2Proof.Machine
end

section
/-! TW0: its pointer, its shadows, and its release (R522 to R529). -/
namespace Sys2Proof.Machine
open Sys2Proof

section
variable {s : State}

/-- While TW0 is off a read leaves nothing. -/
theorem tw0ReadStep_off (h : s.tw0On = false) (r : TwRead) : tw0ReadStep r s = s := by
  unfold tw0ReadStep
  simp only [h, Bool.not_false, if_true]

/-- At another address a read that ends without a STOP drives no byte. -/
theorem tw0ReadStep_other {x : Byte} (n : Nat) (hon : s.tw0On = true) (hx : s.tw0Acks x true = false) :
    tw0ReadStep ⟨x, n, false⟩ s = { s with tw0 := { s.tw0 with out := [] } } := by
  have hack : ∀ v : Tw0, State.tw0Acks { s with tw0 := v } x true = false := fun _ => hx
  unfold tw0ReadStep
  simp only [hon, hack, Bool.not_true, Bool.false_eq_true, if_false]

/-- At its own address a read before a repeated START takes no packet. -/
theorem tw0ReadStep_restart {x : Byte} (n : Nat) (hon : s.tw0On = true) (hx : s.tw0Acks x true = true) :
    tw0ReadStep ⟨x, n, false⟩ s = twReads n { s with tw0 := { s.tw0 with out := [] } } := by
  have hack : ∀ v : Tw0, State.tw0Acks { s with tw0 := v } x true = true := fun _ => hx
  unfold tw0ReadStep
  simp only [hon, hack, Bool.not_true, Bool.false_eq_true, if_false, if_true]

/-- TW0 acknowledges no other address byte. -/
theorem State.tw0Acks_other {x : Byte} {read : Bool} (h : x.toNat ≠ 2 * (0x3C + s.pwr.straps.addr) + b2n read) :
    s.tw0Acks x read = false :=
  Bool.eq_false_iff.mpr (mt State.tw0Acks_iff.mp h)

/-- A byte written in a completion window: stored, and the pointer moves on within its 64 bytes (R523). -/
theorem State.twByte_completion (first : Bool) (b : Byte) (hlo : 0x2000 ≤ s.tw0.ptr) (hhi : s.tw0.ptr < 0x3000) :
    s.twByte first b = { s with tw0 := { s.tw0 with
      ptr := s.tw0.ptr / 64 * 64 + (s.tw0.ptr + 1) % 64, cmem := mwrite s.tw0.cmem (s.tw0.ptr - 0x2000) b } } := by
  unfold State.twByte
  dsimp only
  rw [if_neg (by omega), if_neg (by omega), if_pos hhi]

/-- A byte read from a completion window: driven, and the pointer moves on within its window (R523). -/
theorem twReads_completion (k : Nat) (hlo : 0x2000 ≤ s.tw0.ptr) (hhi : s.tw0.ptr < 0x3000) :
    twReads (k + 1) s = twReads k { s with tw0 := { s.tw0 with
      ptr := s.tw0.ptr / 0x400 * 0x400 + (s.tw0.ptr + 1) % 0x400,
      out := s.tw0.out ++ [mread s.tw0.cmem (s.tw0.ptr - 0x2000)] } } := by
  rw [twReads]
  dsimp only
  rw [if_neg (by omega), if_neg (by omega), if_pos hhi, if_pos ⟨hlo, hhi⟩]

end

/-- Settles O18: TW0 off, at another address, and at its own; then a byte written and a byte read. -/
theorem tw0PointerReadsAndWrites : Obligations.Tw0PointerReadsAndWrites := by
  unfold Obligations.Tw0PointerReadsAndWrites
  intro dt n x h l bs stop s a hinv ha
  refine ⟨fun hoff => ⟨?_, ?_⟩, fun hon hx => ?_, fun hon hx => ?_, fun hon hx => ⟨?_, fun b => ?_⟩, fun hon hx => ⟨?_, ?_⟩,
    fun u f b hlo hhi => State.twByte_completion f b hlo hhi, fun u k hlo hhi => twReads_completion k hlo hhi⟩
  · exact (exec_tw0Write dt (x :: bs) stop s).trans (run_answers ha rfl hinv (tw0WriteStep_off hoff _ _) rfl rfl rfl)
  · exact (exec_tw0Read dt ⟨x, n, stop⟩ s).trans (run_answers ha rfl hinv (tw0ReadStep_off hoff _) rfl rfl rfl)
  · exact (exec_tw0Write dt (x :: bs) false s).trans
      (run_answers ha rfl hinv (tw0WriteStep_other hon (State.tw0Acks_other hx) bs false) rfl rfl rfl)
  · exact (exec_tw0Read dt ⟨x, n, false⟩ s).trans
      (run_answers ha rfl hinv (tw0ReadStep_other n hon (State.tw0Acks_other hx)) rfl rfl rfl)
  · exact (exec_tw0Write dt [x, h, l] false s).trans
      (run_answers ha rfl hinv (tw0WriteStep_pointer hon (State.tw0Acks_iff.mpr hx) h l false) rfl rfl rfl)
  · rw [exec_of_run (exec_tw0Write dt (x :: h :: l :: b :: bs) false s) rfl ha,
      tw0WriteStep_bytes hon (State.tw0Acks_iff.mpr hx) h l b bs false, if_neg Bool.false_ne_true]
  · rw [exec_of_run (exec_tw0Read dt ⟨x, n, false⟩ s) rfl ha, tw0ReadStep_restart n hon (State.tw0Acks_iff.mpr hx)]
  · rw [exec_of_run (exec_tw0Read dt ⟨x, n, true⟩ s) rfl ha, tw0ReadStep_stop n hon (State.tw0Acks_iff.mpr hx)]

/-- Settles O19: a shadow at a time. -/
theorem tw0ShadowsLapse : Obligations.Tw0ShadowsLapse := by
  unfold Obligations.Tw0ShadowsLapse
  intro dt s a hinv ha
  refine ⟨fun r hrd => (exec_tw0ReadShadowExpire dt s).trans ?_, fun r hwr => (exec_tw0WriteShadowExpire dt s).trans ?_⟩
  · have hstep : tw0RdExpire a = if r.at0 + 2000000 ≤ a.clk then { a with tw0 := { a.tw0 with rd := none } } else a := by
      unfold tw0RdExpire; rw [hrd]
    exact run_answers ha rfl hinv hstep (by split <;> rfl) (by split <;> rfl) (by split <;> rfl)
  · have hstep : tw0WrExpire a = if r.at0 + 2000000 ≤ a.clk then { a with tw0 := { a.tw0 with wr := none } } else a := by
      unfold tw0WrExpire; rw [hwr]
    exact run_answers ha rfl hinv hstep (by split <;> rfl) (by split <;> rfl) (by split <;> rfl)

/-- A release: the shadows go, the error and the count are kept, and TW_STUCK is raised. -/
theorem tw0StuckStep_on {s : State} (hon : s.tw0On = true) : tw0StuckStep s =
    (({ s with tw0 := { s.tw0 with rd := none, wr := none }, pc := { s.pc with tw0Stuck := satInc 31 s.pc.tw0Stuck } } :
      State).portErr 3 5 0).raise 0xD03 [0#8, 0#8, 0#8, 0#8] := by
  unfold tw0StuckStep
  rw [hon]
  rfl

/-- Settles O20: the release completes no command. -/
theorem stuckTw0IsReleased : Obligations.StuckTw0IsReleased := by
  unfold Obligations.StuckTw0IsReleased
  intro dt s a hinv ha hon
  exact (exec_tw0StuckRelease dt s).trans (run_answers ha rfl hinv (tw0StuckStep_on hon) (by simp) (by simp) (by simp))

end Sys2Proof.Machine
end

section
/-! TW1: the bus clear, arbitration, and how a transfer ends (R533 to R536). -/
namespace Sys2Proof.Machine
open Sys2Proof

section
variable {s : State} {c : Tw1Cur} (hcur : s.tw1.cur = some c)
include hcur

section
variable (hidle : c.active = false)
include hidle

/-- An attempt with SDA high: no clear. -/
theorem tw1Attempt_free : tw1Attempt 0 false none s = { s with
    tw1 := { s.tw1 with cur := some { c with attempts := c.attempts + 1, active := true } } } := by
  unfold tw1Attempt
  simp [hcur, hidle]

/-- An attempt after a clear that let SDA go. -/
theorem tw1Attempt_cleared {pulses : Nat} (hpos : 0 < pulses) (hmax : pulses ≤ 9) : tw1Attempt pulses false none s = { s with
    pc := { s.pc with tw1Clear := satInc 31 s.pc.tw1Clear },
    tw1 := { s.tw1 with cur := some { c with pulses := c.pulses + pulses, attempts := c.attempts + 1, active := true } } } := by
  have hn : min 9 pulses = pulses := Nat.min_eq_right hmax
  have hne : pulses ≠ 0 := by omega
  unfold tw1Attempt
  simp [hcur, hidle, hn, hne]

/-- A clear that leaves SDA low ends the transfer (R536). -/
theorem tw1Attempt_stuck (pulses : Nat) : tw1Attempt pulses true none s = tw1Next (({ s with
    pc := { s.pc with tw1Clear := satInc 31 s.pc.tw1Clear },
    tw1 := { s.tw1 with cur := some { c with pulses := c.pulses + 9 } } } : State).finishErr c.id
      { status := stBusy, aux := 4, detail := c.pulses + 9 } s.nowNs) := by
  unfold tw1Attempt
  simp only [hcur, hidle, Bool.false_eq_true, if_false, if_true]
  rfl

/-- An attempt that loses arbitration: it waits to begin again, or was the last (R534). -/
theorem tw1Attempt_lost {byte bt : Nat} (hbyte : byte < 65536) (hbit : bt < 8) {b : State}
    (hb : b = { s with pc := { s.pc with tw1Arb := satInc 31 s.pc.tw1Arb },
                       tw1 := { s.tw1 with cur := some { c with attempts := c.attempts + 1 } } }) :
    tw1Attempt 0 false (some (byte, bt)) s = if c.attempts < c.retry then b
      else tw1Next (b.finishErr c.id
        { status := stBusy, aux := 5, detail := (c.attempts + 1) % 256 * 2 ^ 24 + byte * 256 + bt } s.nowNs) := by
  have hbyte' : byte % 65536 = byte := Nat.mod_eq_of_lt hbyte
  have hbit' : bt % 256 = bt := Nat.mod_eq_of_lt (by omega)
  have hwaits : ({ c with attempts := c.attempts + 1, active := false } : Tw1Cur) = { c with attempts := c.attempts + 1 } := by
    rw [← hidle]
  subst hb
  unfold tw1Attempt
  simp only [hcur, hidle, Bool.false_eq_true, if_false, Nat.min_zero, if_true, Nat.add_zero, hwaits, hbyte', hbit', Nat.succ_le_iff]
  rfl

end

section
variable (hactive : c.active = true)
include hactive

/-- A transfer all of whose bytes were acknowledged completes (R535). -/
theorem tw1DoneStep_complete {acked : Nat} (data : List Byte) (h : c.wlen ≤ acked) : tw1DoneStep acked true data s =
    tw1Next (s.finishOk c.id (le 2 c.wlen ++ le 2 c.rlen ++ le 1 (min 255 c.attempts) ++ le 1 (min 255 c.pulses) ++ le 2 0 ++
      slice data 0 c.rlen) s.nowNs) := by
  unfold tw1DoneStep
  simp only [hcur, hactive, Bool.not_true, Bool.false_eq_true, if_false, if_neg (Nat.not_lt.mpr h)]

/-- A data byte not acknowledged (R536). -/
theorem tw1DoneStep_dataNack {acked : Nat} (data : List Byte) (h : acked < c.wlen) : tw1DoneStep acked true data s =
    tw1Next (s.finishErr c.id { status := stTimeout, aux := 2, detail := acked } s.nowNs) := by
  unfold tw1DoneStep
  simp only [hcur, hactive, Bool.not_true, Bool.false_eq_true, if_false, if_pos h]
  rfl

/-- The address not acknowledged (R536). -/
theorem tw1DoneStep_addressNack (acked : Nat) (data : List Byte) : tw1DoneStep acked false data s =
    tw1Next (s.finishErr c.id { status := stTimeout, aux := 1 } s.nowNs) := by
  unfold tw1DoneStep
  simp only [hcur, hactive, Bool.not_true, Bool.not_false, Bool.false_eq_true, if_false, if_true]
  rfl

/-- SCL held low too long (R536). -/
theorem tw1StretchStep_active (moved : Nat) : tw1StretchStep moved s =
    tw1Next (({ s with tw1 := { s.tw1 with stopOwed := true } } : State).finishErr c.id
      { status := stTimeout, aux := 3, detail := moved } s.nowNs) := by
  unfold tw1StretchStep
  simp only [hcur, hactive, if_true]
  rfl

end

end

/-- While a STOP is owed no transfer follows. -/
theorem tw1Next_owed {s : State} (h : s.tw1.stopOwed = true) : tw1Next s = { s with tw1 := { s.tw1 with cur := none } } := by
  unfold tw1Next
  cases s.tw1.waiting with
  | nil => rfl
  | cons c r => exact if_pos h

/-- A transfer with the settings of TW1 now in force, as it begins (R535, R548). -/
def State.tw1Begins (s : State) (c : Tw1Cur) : Tw1Cur :=
  { c with speed := s.pc.tw1Speed, tout := s.pc.tw1Tout, retry := if c.retry = 0xFF then s.pc.tw1Retry else c.retry }

theorem tw1Free_none {s : State} (h : s.tw1.stopOwed = false) : tw1Free s = s :=
  if_neg (Bool.eq_false_iff.mp h)

/-- The STOP that was owed has been sent: the transfer that waits longest begins (R536). -/
theorem tw1Free_owed {s : State} {c : Tw1Cur} {r : List Tw1Cur} (hstop : s.tw1.stopOwed = true) (hwait : s.tw1.waiting = c :: r) :
    tw1Free s = { s with tw1 := { s.tw1 with stopOwed := false, waiting := r, cur := some (s.tw1Begins c) } } := by
  unfold tw1Free tw1Next
  simp only [hstop, hwait, if_true, Bool.false_eq_true, if_false]
  rfl

/-- TW1_ATTEMPT_START with no STOP owed. -/
theorem exec_tw1Attempt {dt : Nat} {s a : State} (ha : s.advance dt = a) (hstop : a.tw1.stopOwed = false) (pulses : Nat) (stuck : Bool)
    (arb : Option (Nat × Nat)) :
    exec (.tw1AttemptStart dt pulses stuck arb) s = .next (tw1Attempt pulses stuck arb a).flush := by
  rw [exec_of_run (exec_tw1AttemptStart dt pulses stuck arb s) rfl ha, tw1AttemptStep, tw1Free_none hstop]

/-- Settles O21: the clear, the free bus and the stuck one; then the transfer that waited for a STOP. -/
theorem tw1BusIsClearedFirst : Obligations.Tw1BusIsClearedFirst := by
  unfold Obligations.Tw1BusIsClearedFirst
  intro dt pulses s a c ha hpos hmax
  refine ⟨fun hstop hcur hidle => ⟨?_, ?_, ?_⟩, fun r hstop hnone hwait hidle => ?_⟩
  · rw [exec_tw1Attempt ha hstop, tw1Attempt_cleared hcur hidle hpos hmax]
  · rw [exec_tw1Attempt ha hstop, tw1Attempt_free hcur hidle]
  · rw [exec_tw1Attempt ha hstop, tw1Attempt_stuck hcur hidle]
  · rw [exec_of_run (exec_tw1AttemptStart dt 0 false none s) rfl ha, tw1AttemptStep, tw1Free_owed hstop hwait,
      tw1Attempt_free (c := a.tw1Begins c) rfl hidle]
    rfl

/-- Settles O22: the attempt that loses arbitration. -/
theorem tw1ArbitrationIsRetried : Obligations.Tw1ArbitrationIsRetried := by
  unfold Obligations.Tw1ArbitrationIsRetried
  intro dt byte bt s a c ha hcur hidle hstop hbyte hbit
  rw [exec_tw1Attempt ha hstop, tw1Attempt_lost hcur hidle hbyte hbit rfl]

/-- Settles O23: the four ends of a transfer. -/
theorem tw1TransferEnds : Obligations.Tw1TransferEnds := by
  unfold Obligations.Tw1TransferEnds
  intro dt acked moved data s a c ha hcur hactive
  refine ⟨fun hall => ?_, fun hnack => ?_, ?_, ?_⟩
  · rw [exec_of_run (exec_tw1XferDone dt acked true data s) rfl ha, tw1DoneStep_complete hcur hactive data hall]
  · rw [exec_of_run (exec_tw1XferDone dt acked true data s) rfl ha, tw1DoneStep_dataNack hcur hactive data hnack]
  · rw [exec_of_run (exec_tw1XferDone dt acked false data s) rfl ha, tw1DoneStep_addressNack hcur hactive]
  · rw [exec_of_run (exec_tw1StretchTimeout dt moved s) rfl ha, tw1StretchStep_active hcur hactive, tw1Next_owed rfl]
    rfl

end Sys2Proof.Machine
end

section
/-! Wakes of a part that sleeps, and the steps of its boot (R531, R560, R563, R566). -/
namespace Sys2Proof.Machine
open Sys2Proof

section
variable {s : State}

theorem State.discharged_iff : s.discharged = true ↔ s.pwr.pwrEnAt + 10000000 ≤ s.clk := decide_eq_true_iff

theorem State.discharged_early (h : s.clk < s.pwr.pwrEnAt + 10000000) : s.discharged = false :=
  decide_eq_false (Nat.not_le.mpr h)

theorem State.asleep_iff :
    s.asleep = true ↔ s.pwr.pstate = .hibernate ∨ (3 ≤ s.pwr.pgTries ∧ s.pwr.pwrEn = false ∧ s.held = false) := by
  simp [State.asleep, and_assoc]

theorem State.not_asleep (hstate : s.pwr.pstate ≠ .hibernate) (htries : s.pwr.pgTries < 3) : s.asleep = false := by
  rw [Bool.eq_false_iff, ne_eq, State.asleep_iff]
  rintro (h | ⟨h, -⟩)
  · exact hstate h
  · omega

/-- WAKE_N held: TW0 is left as it is. -/
theorem holdWake_wakeN : holdWake 6 s = { s with pwr := { s.pwr with heldWake := some (s.pwr.heldWake.getD 6) } } := by
  unfold holdWake
  rw [decide_eq_false (by decide), Bool.or_false]

/-- A TW0 match held: the transactions after it are not acknowledged. -/
theorem holdWake_tw0 : holdWake 7 s = { s with
    pwr := { s.pwr with heldWake := some (s.pwr.heldWake.getD 7) }, tw0 := { s.tw0 with nackUntilRun := true } } := by
  unfold holdWake
  rw [decide_eq_true rfl, Bool.or_true]

/-- A part holds a wake cause where it sleeps and PWR_EN is not yet 10 ms low, or is on its way from step 2 of R559 on. -/
def State.holdsWake (s : State) : Prop :=
  (s.asleep = true ∧ s.discharged = false) ∨ (s.asleep = false ∧ 2 ≤ s.hibStep)

theorem wakeNStep_holds (h : s.holdsWake) :
    wakeNStep s = { s with pwr := { s.pwr with heldWake := some (s.pwr.heldWake.getD 6) } } := by
  rw [← holdWake_wakeN]
  unfold wakeNStep
  rcases h with ⟨hasleep, hearly⟩ | ⟨hawake, hstep⟩
  · simp only [hasleep, hearly, if_true, Bool.false_eq_true, if_false]
  · simp only [hawake, hstep, if_true, Bool.false_eq_true, if_false]

theorem tw0WakeStep_holds (h : s.holdsWake) (hmatch : bit s.pc.tw0Fl 0 = true) : tw0WakeStep s = { s with
    pwr := { s.pwr with heldWake := some (s.pwr.heldWake.getD 7) }, tw0 := { s.tw0 with nackUntilRun := true } } := by
  rw [← holdWake_tw0]
  unfold tw0WakeStep
  rcases h with ⟨hasleep, hearly⟩ | ⟨hawake, hstep⟩
  · simp only [hmatch, hasleep, hearly, Bool.not_true, if_true, Bool.false_eq_true, if_false]
  · simp only [hmatch, hawake, hstep, Bool.not_true, if_true, Bool.false_eq_true, if_false]

/-- A held cause waits while PWR_EN is not yet 10 ms low, and in a part that does not sleep. -/
theorem heldWakeStep_waits (h : s.asleep = false ∨ s.discharged = false) : heldWakeStep s = s := by
  have hnot : ¬ (s.asleep = true ∧ s.discharged = true) := by
    rintro ⟨hasleep, hlow⟩
    rcases h with h | h
    · rw [h] at hasleep; exact Bool.false_ne_true hasleep
    · rw [h] at hlow; exact Bool.false_ne_true hlow
  unfold heldWakeStep
  cases s.pwr.heldWake with
  | none => rfl
  | some c => exact if_neg hnot

/-- Without WAKE_EN a TW0 match wakes nothing (R531). -/
theorem tw0WakeStep_disabled (h : bit s.pc.tw0Fl 0 = false) : tw0WakeStep s = s := by
  unfold tw0WakeStep
  simp only [h, Bool.not_false, if_true]

/-- A part that neither sleeps nor leaves for Hibernate heeds no wake cause. -/
theorem wakeSteps_awake (hawake : s.asleep = false) (hstep : s.hibStep < 2) : wakeNStep s = s ∧ tw0WakeStep s = s := by
  have hearly : ¬ 2 ≤ s.hibStep := by omega
  unfold wakeNStep tw0WakeStep
  simp only [hawake, hearly, Bool.false_eq_true, if_false, ite_self, and_self]

end

/-- Settles O27: a part that sleeps, 10 ms after PWR_EN fell and before; one that does not; and WAKE_EN. -/
theorem wakesBootThePart : Obligations.WakesBootThePart := by
  unfold Obligations.WakesBootThePart
  intro dt s a ha
  refine ⟨fun hsleeps => ⟨fun hdue => ⟨?_, fun c hheld => ?_, fun hmatch => ?_⟩, fun hearly hinv => ⟨?_, ?_, fun hmatch => ?_⟩⟩,
    fun hstate htries hinv => ⟨?_, fun hstep => ⟨?_, fun hmatch => ?_⟩, fun hstep => ⟨?_, ?_⟩⟩, fun hoff hinv => ?_⟩
  · rw [exec_of_run (exec_wakeN dt s) rfl ha, wakeNStep_boots (State.asleep_iff.mpr hsleeps) (State.discharged_iff.mpr hdue)]
  · rw [exec_of_run (exec_heldWake dt s) rfl ha,
      heldWakeStep_boots (State.asleep_iff.mpr hsleeps) (State.discharged_iff.mpr hdue) hheld]
  · rw [exec_of_run (exec_tw0WakeMatch dt s) rfl ha,
      tw0WakeStep_boots (State.asleep_iff.mpr hsleeps) (State.discharged_iff.mpr hdue) hmatch]
  · have hholds : a.holdsWake := .inl ⟨State.asleep_iff.mpr hsleeps, State.discharged_early hearly⟩
    exact (exec_wakeN dt s).trans (run_answers ha rfl hinv (wakeNStep_holds hholds) rfl rfl rfl)
  · exact (exec_heldWake dt s).trans
      (run_answers ha rfl hinv (heldWakeStep_waits (.inr (State.discharged_early hearly))) rfl rfl rfl)
  · have hholds : a.holdsWake := .inl ⟨State.asleep_iff.mpr hsleeps, State.discharged_early hearly⟩
    exact (exec_tw0WakeMatch dt s).trans (run_answers ha rfl hinv (tw0WakeStep_holds hholds hmatch) rfl rfl rfl)
  · exact (exec_heldWake dt s).trans
      (run_answers ha rfl hinv (heldWakeStep_waits (.inl (State.not_asleep hstate htries))) rfl rfl rfl)
  · have hholds : a.holdsWake := .inr ⟨State.not_asleep hstate htries, hstep⟩
    exact (exec_wakeN dt s).trans (run_answers ha rfl hinv (wakeNStep_holds hholds) rfl rfl rfl)
  · have hholds : a.holdsWake := .inr ⟨State.not_asleep hstate htries, hstep⟩
    exact (exec_tw0WakeMatch dt s).trans (run_answers ha rfl hinv (tw0WakeStep_holds hholds hmatch) rfl rfl rfl)
  · exact (exec_wakeN dt s).trans
      (run_answers ha rfl hinv (wakeSteps_awake (State.not_asleep hstate htries) hstep).1 rfl rfl rfl)
  · exact (exec_tw0WakeMatch dt s).trans
      (run_answers ha rfl hinv (wakeSteps_awake (State.not_asleep hstate htries) hstep).2 rfl rfl rfl)
  · exact (exec_tw0WakeMatch dt s).trans (run_answers ha rfl hinv (tw0WakeStep_disabled hoff) rfl rfl rfl)

section
variable {s : State} (image : Option (List Byte)) (bus : BusClear)

/-- Step 2 of R566: QSPI answers 1 ms after release. -/
theorem bootStepGo_released (hboot : s.pwr.boot = .released) (hdue : s.pwr.bootT0 + 1000000 ≤ s.clk) :
    bootStepGo image bus s = { s with pwr := { s.pwr with boot := .qspi, stepAt := s.clk } } := by
  unfold bootStepGo
  simp only [hboot, if_pos hdue]

/-- Step 3: TW0 answers. -/
theorem bootStepGo_qspi (hboot : s.pwr.boot = .qspi) : bootStepGo image bus s = { s with
    pwr := { s.pwr with boot := .tw0, stepAt := s.clk }, tw0 := { s.tw0 with stretch := false, nackUntilRun := false } } := by
  unfold bootStepGo
  simp only [hboot]

/-- Step 4: trims, memories and MPLL0. -/
theorem bootStepGo_tw0 (hboot : s.pwr.boot = .tw0) : bootStepGo image bus s = bootLoaded s := by
  unfold bootStepGo
  simp only [hboot]

/-- Step 5 with no EEPROM that answers: result 2, or 6 where the bus clear failed (R533, R567). -/
theorem bootStepGo_noImage (hboot : s.pwr.boot = .image) (hload : s.pwr.loaded = false) (hsel : 2 ≤ s.pwr.straps.bootsel) :
    bootStepGo none bus s = loadEnd (if bus = .stuck then 6 else 2) (bootBus bus s) := by
  have heeprom : ¬ s.pwr.straps.bootsel < 2 := by omega
  unfold bootStepGo
  simp only [hboot, hload, heeprom, Bool.false_eq_true, if_false]
  split <;> rfl

/-- Step 6: READY, 1 ms after step 5 ended. -/
theorem bootStepGo_loaded (hboot : s.pwr.boot = .image) (hload : s.pwr.loaded = true) (hdue : s.pwr.stepAt + 1000000 ≤ s.clk) :
    bootStepGo image bus s = bootReady s := by
  unfold bootStepGo
  simp only [hboot, hload, if_true, if_pos hdue]

/-- The bus clear counts where one was made, and step 5 ends. -/
theorem loadEnd_bootBus (result : Nat) : loadEnd result (bootBus bus s) = { s with
    pwr := { s.pwr with boot := .image, loaded := true, stepAt := s.clk, result := result, cfgRest := [] },
    pc := if bus = .idle then s.pc else { s.pc with tw1Clear := satInc 31 s.pc.tw1Clear } } := by
  unfold bootBus
  cases bus <;> rfl

end

/-- Settles O28: the step that each place of the boot makes. -/
theorem bootStepsInOrder : Obligations.BootStepsInOrder := by
  unfold Obligations.BootStepsInOrder
  intro dt image bus s a ha
  refine ⟨fun hboot hdue => ?_, fun hboot => ?_, fun hboot => ?_, fun hboot hload hsel => ?_, fun hboot hload hdue => ⟨_, ?_, rfl⟩⟩
  · rw [exec_of_run (exec_bootStep dt image bus s) rfl ha, bootStepGo_released image bus hboot hdue]
  · rw [exec_of_run (exec_bootStep dt image bus s) rfl ha, bootStepGo_qspi image bus hboot]
  · rw [exec_of_run (exec_bootStep dt image bus s) rfl ha, bootStepGo_tw0 image bus hboot, bootLoaded]
  · rw [exec_of_run (exec_bootStep dt none bus s) rfl ha, bootStepGo_noImage bus hboot hload hsel, loadEnd_bootBus]
  · rw [exec_of_run (exec_bootStep dt image bus s) rfl ha, bootStepGo_loaded image bus hboot hload hdue]
    rfl

end Sys2Proof.Machine
end

section
/-! The block's step: its queue of waiting commands, and the two refusals (R588, log 1). -/
namespace Sys2Proof.Machine
open Sys2Proof

/-- Settles O1: a command at the front, and none. -/
theorem stepRunsFront : Obligations.StepRunsFront := by
  unfold Obligations.StepRunsFront
  refine ⟨fun c rest s hfront => ?_, fun s hempty => ?_⟩
  · unfold step; rw [hfront]
  · unfold step; rw [hempty]

theorem EventsOnly.pins {s t : State} (h : EventsOnly s t) : t.pins = s.pins := by
  obtain ⟨_, _, _, _, _, _, _, rfl⟩ := h; rfl

/-- Time that passes moves no pin. -/
@[simp] theorem State.advance_pins (s : State) (dt : Nat) : (s.advance dt).pins = s.pins := by
  have hpass : (s.pass dt).pins = s.pins := by unfold State.pass; split <;> rfl
  unfold State.advance State.wrapTime
  split
  · exact hpass
  · exact (EventsOnly.raise _ _ _).pins.trans hpass

/-- Only with TMODE high does a command of the test group stop COMMAND_START (R588). -/
theorem State.testStart_tmode {s : State} (h : s.testStart = true) : s.pins.tmode = true := by
  unfold State.testStart at h
  split at h
  · simp only [Bool.and_eq_true] at h
    obtain ⟨⟨⟨htmode, -⟩, -⟩, -⟩ := h
    exact htmode
  · exact absurd h Bool.false_ne_true

/-- So it is for CONFIG_PACKET_RUN. -/
theorem State.testConfig_tmode {s : State} (h : s.testConfig = true) : s.pins.tmode = true := by
  unfold State.testConfig at h
  split at h
  · simp only [Bool.and_eq_true] at h
    obtain ⟨⟨⟨htmode, -⟩, -⟩, -⟩ := h
    exact htmode
  · exact absurd h Bool.false_ne_true

/-- A row that runs an effect answers a next state, or is ill-formed. -/
theorem run_next_or_illFormed (i : Instr) (s : State) (f : State → State) :
    (∃ t, run i s f = .next t) ∨ (run i s f = .refused .illFormed ∧ i.wf = false) := by
  cases hwf : i.wf with
  | true => exact .inl ⟨_, run_next hwf⟩
  | false => exact .inr ⟨by rw [run, hwf]; rfl, rfl⟩

/-- Settles O6: each row is `run` of its effect, but two that refuse the test group first. -/
theorem stepRefusesOnlyByName : Obligations.StepRefusesOnlyByName := by
  unfold Obligations.StepRefusesOnlyByName
  intro i s
  by_cases hstart : ∃ dt, i = .commandStart dt
  · obtain ⟨dt, rfl⟩ := hstart
    rw [exec_commandStart]
    cases htest : (s.advance dt).testStart with
    | true => exact .inr (.inr ⟨rfl, State.advance_pins s dt ▸ State.testStart_tmode htest, dt, .inl rfl⟩)
    | false => exact .inl ⟨_, (if_neg Bool.false_ne_true).trans (run_next rfl)⟩
  · by_cases hconfig : ∃ dt, i = .configPacketRun dt
    · obtain ⟨dt, rfl⟩ := hconfig
      rw [exec_configPacketRun]
      cases htest : (s.advance dt).testConfig with
      | true => exact .inr (.inr ⟨rfl, State.advance_pins s dt ▸ State.testConfig_tmode htest, dt, .inr rfl⟩)
      | false => exact .inl ⟨_, (if_neg Bool.false_ne_true).trans (run_next rfl)⟩
    · obtain ⟨f, hrun⟩ := exec_eq_run i s (not_exists.mp hstart) (not_exists.mp hconfig)
      rw [hrun]
      exact (run_next_or_illFormed i s f).imp_right .inl

end Sys2Proof.Machine
end

section
/-! The end of each cause of reset, and when the boot starts (R562 to R564, R566). -/
namespace Sys2Proof.Machine
open Sys2Proof

section
variable {s : State}

@[simp] theorem tryBoot_flight : (tryBoot s).flight = s.flight := by unfold tryBoot; split <;> rfl
@[simp] theorem tryBoot_eng : (tryBoot s).eng = s.eng := by unfold tryBoot; split <;> rfl

/-- A row that ends a cause of reset, and completes no command, answers the state in which the boot may start. -/
theorem run_answers_tryBoot {i : Instr} {a b : State} {f : State → State} (ha : s.advance i.dt = a) (hwf : i.wf = true)
    (hinv : s.Inv) (hf : f a = tryBoot b) (hflight : b.flight = a.flight) (heng : b.eng = a.eng) :
    run i s f = .next (tryBoot b) :=
  run_answers ha hwf hinv hf (tryBoot_flight.trans hflight) (by rw [tryBoot_eng, heng]) (by rw [tryBoot_eng, heng])

theorem rstReleaseStep_low (st : Straps) (hrst : s.pins.rstN = false) (hvaon : s.pwr.vaonLow = false) : rstReleaseStep st s =
    tryBoot { s with pins := { s.pins with rstN := true }, pwr := { s.pwr with straps := st } } := by
  unfold rstReleaseStep
  dsimp only
  rw [if_neg (Bool.eq_false_iff.mp hrst), if_neg (Bool.eq_false_iff.mp hvaon)]
  rfl

theorem vaonValidStep_low (st : Straps) (hvaon : s.pwr.vaonLow = true) (hrst : s.pins.rstN = true) : vaonValidStep st s =
    tryBoot { s with
      pwr := { s.pwr with vaonLow := false, pstate := .idle, pwrEn := true, pwrEnAt := s.clk, straps := st } } := by
  have hpins : ∀ w : Pwr, (setPwrEn true { s with pwr := w }).pins.rstN = true := fun _ => hrst
  unfold vaonValidStep
  simp only [hvaon, hpins, Bool.not_true, Bool.false_eq_true, if_false, if_true]
  rfl

theorem crystalRestartStep_stopped (st : Straps) (hstop : s.pwr.crystalStopped = true) : crystalRestartStep st s =
    tryBoot { s with pwr := { s.pwr with crystalStopped := false, straps := st } } := by
  unfold crystalRestartStep
  rw [if_pos hstop]
  rfl

theorem vcoreRecoveryStep_recovered {mv : Nat} (hbrown : s.pwr.brownOut = true) (hmv : 720 ≤ mv) : vcoreRecoveryStep mv s =
    tryBoot { s with env := { s.env with vcoreMv := mv }, pwr := { s.pwr with brownOut := false } } := by
  unfold vcoreRecoveryStep
  exact if_pos ⟨hbrown, hmv⟩

theorem pwrRaiseStep_due (hraise : s.pwr.raiseDue = true) (hdue : s.pwr.pwrEnAt + 100000000 ≤ s.clk) : pwrRaiseStep s =
    tryBoot { s with pwr := { s.pwr with raiseDue := false, pwrEn := true, pwrEnAt := s.clk } } := by
  unfold pwrRaiseStep
  rw [if_pos ⟨hraise, hdue⟩]
  rfl

/-- While PG_IN has not risen, PWR_EN falls 50 ms after it rose, and not before (R563). -/
theorem pwrRetryStep_waiting (hen : s.pwr.pwrEn = true) (hpg : s.pins.pgIn = false) (hheld : s.fullHeld = false) : pwrRetryStep s =
    if s.pwr.pwrEnAt + 50000000 ≤ s.clk then
      { s with pwr := { s.pwr with
          pgTries := s.pwr.pgTries + 1, raiseDue := decide (s.pwr.pgTries + 1 < 3), pwrEn := false, pwrEnAt := s.clk } }
    else s := by
  unfold pwrRetryStep
  simp only [hen, hpg, hheld, Bool.not_false, true_and]
  rfl

/-- When the boot starts, and the TAP it finds (R566, R587). -/
theorem tryBoot_eq (s : State) : tryBoot s =
    if s.pins.pgIn = true ∧ s.pwr.pwrEn = true ∧ s.held = false ∧ s.pwr.boot = .off then
      { s with jtag := s.tapAtReset,
               pwr := { s.pwr with boot := .released, bootT0 := s.clk, stepAt := s.clk, pgTries := 0, pstate := .idle } }
    else s := by
  unfold tryBoot
  simp only [Bool.not_eq_true']

end

/-- Settles O26: the row that ends each cause, PWR_EN raised and let fall, and the boot's condition. -/
theorem resetCausesEnd : Obligations.ResetCausesEnd := by
  unfold Obligations.ResetCausesEnd
  intro dt mv st s a ha hinv hst
  refine ⟨fun hrst hvaon => ?_, fun hvaon hrst => ?_, fun hstop => ?_, fun hbrown hmv => ?_, ?_, fun hraise hdue => ?_,
    fun hen hpg hheld => ?_, tryBoot_eq s⟩
  · exact (exec_rstNRelease dt st s).trans (run_answers_tryBoot ha hst hinv (rstReleaseStep_low st hrst hvaon) rfl rfl)
  · exact (exec_vaonValid dt st s).trans (run_answers_tryBoot ha hst hinv (vaonValidStep_low st hvaon hrst) rfl rfl)
  · exact (exec_crystalRestart dt st s).trans (run_answers_tryBoot ha hst hinv (crystalRestartStep_stopped st hstop) rfl rfl)
  · exact (exec_vcoreRecovery dt mv s).trans (run_answers_tryBoot ha rfl hinv (vcoreRecoveryStep_recovered hbrown hmv) rfl rfl)
  · exact (exec_pgInRise dt s).trans (run_answers_tryBoot ha rfl hinv (by rw [pgRiseStep]) rfl rfl)
  · exact (exec_pwrEnRaise dt s).trans (run_answers_tryBoot ha rfl hinv (pwrRaiseStep_due hraise hdue) rfl rfl)
  · exact (exec_pwrEnRetry dt s).trans (run_answers ha rfl hinv (pwrRetryStep_waiting hen hpg hheld)
      (by split <;> rfl) (by split <;> rfl) (by split <;> rfl))

end Sys2Proof.Machine
end

section
/-! The image of the boot window, the configuration section, and the entry to Run (R558, R567 to R572). -/
namespace Sys2Proof.Machine
open Sys2Proof

section
variable {s : State}

section
variable (hboot : s.pwr.boot = .image) (hload : s.pwr.loaded = false) (hsel : s.pwr.straps.bootsel = 1)
include hboot hload hsel

/-- The magic number stands in the boot window: the image is taken (R567). -/
theorem bootPoll_image (hmagic : fieldLe (mreads s.mem 0x1E0000 4) 0 4 = 0x49424C48) : bootPoll s =
    imageApply (mreads s.mem 0x1E0000 (min 0x20000 (max 32 (fieldLe (mreads s.mem 0x1E0008 4) 0 4)))) s := by
  unfold bootPoll
  simp only [hboot, hload, hsel, hmagic, Bool.not_false, and_self, if_true]

/-- No image stands there: it is waited for, 1 s long (R567). -/
theorem bootPoll_noImage (hmagic : fieldLe (mreads s.mem 0x1E0000 4) 0 4 ≠ 0x49424C48) : bootPoll s =
    if s.pwr.stepAt + 1000000000 ≤ s.clk then loadEnd 7 s else s := by
  unfold bootPoll
  simp only [hboot, hload, hsel, if_neg hmagic, Bool.not_false, and_self, if_true]

end

section
variable (hboot : s.pwr.boot = .config) (hjob : s.pwr.cfgJob = none)
include hboot hjob

/-- With no packet of it in flight the section stops after 1 s (R570). -/
theorem configTimeoutStep_noJob : configTimeoutStep s =
    if s.pwr.cfgAt + 1000000000 ≤ s.clk then loadEnd 5 s else s := by
  unfold configTimeoutStep
  simp only [hboot, hjob, true_and]

section
variable {p : Packet} {rest : List Packet} (hstatus : s.pwr.cfgStatus = stOk) (hrest : s.pwr.cfgRest = p :: rest)
include hstatus hrest

theorem State.configNext_head : s.configNext = some p := by
  unfold State.configNext
  simp only [hboot, hjob, hstatus, hrest, true_or, and_self, if_true, List.head?_cons]

/-- The section's next packet starts as on a queue of QSPI (R570). -/
theorem configRunStep_head (hallowed : configErr p = none) : configRunStep s = startPacket p 1 { s with
    pwr := { s.pwr with cfgRest := rest, cfgRun := s.pwr.cfgRun + 1, cfgJob := some (s.seq + 1) } } := by
  unfold configRunStep
  simp only [State.configNext_head hboot hjob hstatus hrest, hrest, List.tail_cons, hallowed]
  generalize startErr p 1 _ = e
  cases e <;> rfl

end

end

/-- With TMODE low no command is of the test group (R588). -/
theorem State.testConfig_low (h : s.pins.tmode = false) : s.testConfig = false :=
  Bool.eq_false_iff.mpr fun htest => absurd (State.testConfig_tmode htest) (by rw [h]; exact Bool.false_ne_true)

/-- The first step of an entry to Run (R558). -/
theorem runEntry_first {t : PTrans} (htrans : s.pwr.trans = some t) (htarget : t.target = .run) (hstep : t.step = 1)
    (hframing : s.framing = true) (hrun : s.tm.frameRun = true) : runEntry s = outsRunStart (powerDone t s) := by
  unfold runEntry
  simp only [htrans, htarget, hstep, hframing, hrun, and_self, if_true]

/-- In Run: front-ends get their power, then deliver (R558). -/
theorem runEntry_inRun (htrans : s.pwr.trans = none) (hrun : s.inRun = true) : runEntry s =
    (let cold := (List.range s.nAin).filter fun c => (s.ain c).en && !(s.ain c).powered
     if cold = [] then forUpto s.nAin settleEndStep s else forEach cold frontEndPoweredStep s) := by
  unfold runEntry
  simp only [htrans, hrun, Bool.not_true, Bool.false_eq_true, if_false, List.isEmpty_iff]

end

/-- Settles O29: the boot window, the section's time limit, and its next packet. -/
theorem bootImageAndConfiguration : Obligations.BootImageAndConfiguration := by
  unfold Obligations.BootImageAndConfiguration
  intro dt s a ha
  refine ⟨fun hboot hload hsel => ⟨fun hmagic => ?_, fun hmagic => ?_⟩, fun hboot hjob => ?_,
    fun p rest hboot hjob hstatus hrest htmode hallowed => ?_⟩
  · rw [exec_of_run (exec_bootWindowPoll dt s) rfl ha, bootPoll_image hboot hload hsel hmagic]
  · rw [exec_of_run (exec_bootWindowPoll dt s) rfl ha, bootPoll_noImage hboot hload hsel hmagic, loadEnd]
  · rw [exec_of_run (exec_configTimeout dt s) rfl ha, configTimeoutStep_noJob hboot hjob, loadEnd]
  · have hrun : exec (.configPacketRun dt) s = run (.configPacketRun dt) s configRunStep := by
      rw [exec_configPacketRun, ha, State.testConfig_low htmode, if_neg Bool.false_ne_true]
    rw [exec_of_run hrun rfl ha, configRunStep_head hboot hjob hstatus hrest hallowed]

/-- Settles O30: the step that reaches Run, and those in Run. -/
theorem runIsEnteredInSteps : Obligations.RunIsEnteredInSteps := by
  unfold Obligations.RunIsEnteredInSteps
  intro dt s a ha
  refine ⟨fun t htrans htarget hstep hframing hrun => ?_, fun htrans hrun => ?_⟩
  · rw [exec_of_run (exec_runEntryStep dt s) rfl ha, runEntry_first htrans htarget hstep hframing hrun]
  · rw [exec_of_run (exec_runEntryStep dt s) rfl ha, runEntry_inRun htrans hrun]

end Sys2Proof.Machine
end

section
/-! The test access port: what an instruction loads, and the test hold (R563, R587 to R592). -/
namespace Sys2Proof.Machine
open Sys2Proof

/-- The TAP after an instruction that is not a test one, or after Test-Logic-Reset, where TDO has driven nothing. -/
def State.tapPlain (s : State) (ir : Nat) (sc : Scan) : Jtag :=
  let r := s.tapCapture ir ++ sc.cells
  let n := sc.cells.length
  { s.jtag with
    tap := sc.rest, ir := ir, dr := r.drop n, cells := if sc.cells = [] then s.jtag.cells else r.drop n,
    tdo := if sc.rest = .testLogicReset then [] else irCapture ++ r.take n, train := decide (sc.edges % 2 = 1) }

/-- Such an instruction's effect: where the TAP runs, it is loaded, and a hold ends. -/
def plainEffect (ir : Nat) (sc : Scan) (s : State) : State :=
  if s.tapRuns then holdEnd sc.straps { s with jtag := s.tapPlain ir sc } else s

section
variable {s : State} {ir : Nat} {sc : Scan}

/-- A load that does not go on to Test-Logic-Reset. -/
theorem State.tapLoad_eq_tapPlain (hrest : sc.rest ≠ .testLogicReset) : s.tapLoad ir sc = s.tapPlain ir sc := by
  unfold State.tapLoad State.tapPlain
  simp only [List.length_eq_zero_iff, if_neg hrest]

theorem State.tapAtReset_eq_tapPlain (st : Straps) :
    s.tapAtReset = s.tapPlain 2 { rest := .testLogicReset, straps := st } := by
  unfold State.tapAtReset State.tapPlain
  simp only [List.append_nil, List.length_nil, List.drop_zero, if_true]
  rfl

theorem plainLoad_eq_plainEffect (hrest : sc.rest ≠ .testLogicReset) : plainLoad ir sc = plainEffect ir sc := by
  funext s
  unfold plainLoad plainEffect tapRest
  rw [if_neg hrest, State.tapLoad_eq_tapPlain hrest]
  cases s.tapRuns <;> rfl

theorem tapResetStep_eq_plainEffect (st : Straps) :
    tapResetStep st = plainEffect 2 { rest := .testLogicReset, straps := st } := by
  funext s
  unfold tapResetStep plainEffect tapToReset
  rw [State.tapAtReset_eq_tapPlain st]

/-- Where the TAP does not run nothing changes (R587). -/
theorem plainEffect_off (hoff : s.tapRuns = false) : plainEffect ir sc s = s := by
  unfold plainEffect
  rw [hoff, if_neg Bool.false_ne_true]

theorem plainEffect_free (hon : s.tapRuns = true) (hfree : s.jtag.hold = false) :
    plainEffect ir sc s = { s with jtag := s.tapPlain ir sc } := by
  have hkept : (s.tapPlain ir sc).hold = false := hfree
  unfold plainEffect holdEnd
  simp only [hon, hkept, if_true, Bool.not_false]

/-- The end of a hold that no other cause of a full reset outlasts boots the part and latches the straps (R563, R592). -/
theorem plainEffect_held (hon : s.tapRuns = true) (hhold : s.jtag.hold = true) (hrst : s.pins.rstN = true)
    (hcrystal : s.pwr.crystalStopped = false) : plainEffect ir sc s = tryBoot { s with
      jtag := { s.tapPlain ir sc with hold := false },
      pwr := { s.pwr with cause := 1, fullBoot := true, straps := sc.straps } } := by
  have hkept : (s.tapPlain ir sc).hold = true := hhold
  have hvaon : s.pwr.vaonLow = false := by
    simp only [State.tapRuns, Bool.and_eq_true, Bool.not_eq_true'] at hon
    exact hon.2
  unfold plainEffect holdEnd State.fullHeld
  simp only [hon, hkept, hrst, hcrystal, hvaon, if_true, Bool.not_true, Bool.false_eq_true, if_false, Bool.or_self]
  rfl

/-- The TAP that a test instruction leaves, written out. -/
theorem State.tapPlain_hold (hrest : sc.rest ≠ .testLogicReset) : ({ s.tapPlain ir sc with hold := true } : Jtag) =
    (let r := s.tapCapture ir ++ sc.cells
     let n := sc.cells.length
     { tap := sc.rest, ir := ir, dr := r.drop n,
       cells := if sc.cells = [] then s.jtag.cells else r.drop n,
       tdo := irCapture ++ r.take n, train := decide (sc.edges % 2 = 1), hold := true }) := by
  unfold State.tapPlain
  simp only [if_neg hrest]

section
variable (hon : s.tapRuns = true) (hrest : sc.rest ≠ .testLogicReset)
include hon hrest

/-- A test instruction in a hold changes the TAP only (R592). -/
theorem testLoad_again (hhold : s.jtag.hold = true) :
    testLoad ir sc s = { s with jtag := { s.tapPlain ir sc with hold := true } } := by
  unfold testLoad tapRest
  simp only [hon, hhold, Bool.not_true, Bool.false_eq_true, if_false, if_true, if_neg hrest, State.tapLoad_eq_tapPlain hrest]

/-- One outside a hold begins it: every unit is reset with PWR_EN high (R592). -/
theorem testLoad_begins (hfree : s.jtag.hold = false) : testLoad ir sc s =
    ({ s with jtag := { s.tapPlain ir sc with hold := true } } : State).resetPart 1 true true := by
  unfold testLoad tapRest
  simp only [hon, hfree, Bool.not_true, Bool.false_eq_true, if_false, if_neg hrest, State.tapLoad_eq_tapPlain hrest]

end

/-- HIGHZ in a hold drives no ball but PWR_EN (R589). -/
theorem State.drive_highz {b : Ball} (hb : b ≠ .pwrEn) (hhold : s.jtag.hold = true) (hir : s.jtag.ir = 4) : s.drive b = .highZ := by
  unfold State.drive
  rw [if_neg hb, if_pos hhold, if_pos hir, ite_self]

theorem State.drive_pwrEn : s.drive .pwrEn = if s.pwr.pwrEn then .high else .low := if_pos rfl

end

/-- Settles O24: the test instructions, the others with Test-Logic-Reset, the balls, and TMODE. -/
theorem tapInstructionsHoldAndLeaveThePart : Obligations.TapInstructionsHoldAndLeaveThePart := by
  unfold Obligations.TapInstructionsHoldAndLeaveThePart
  refine ⟨?test, ?plain, fun b a => ⟨State.drive_highz, State.drive_pwrEn⟩, fun dt lvl s a ha hinv => ?tmode⟩
  case test =>
    intro dt ir i sc s a ha hon hstraps hrest hrow r n j
    obtain ⟨hadv, hwf, hrun⟩ : s.advance i.dt = a ∧ i.wf = true ∧ exec i s = run i s (testLoad ir sc) := by
      rcases hrow with ⟨rfl, rfl⟩ | ⟨rfl, rfl, rfl⟩ | ⟨rfl, rfl, rfl⟩ | ⟨rfl, rfl⟩ | ⟨rfl, rfl⟩
      · exact ⟨ha, hstraps, exec_extest dt sc s⟩
      · exact ⟨ha, rfl, exec_clamp dt s⟩
      · exact ⟨ha, rfl, exec_highz dt s⟩
      · exact ⟨ha, hstraps, exec_extestPulse dt sc s⟩
      · exact ⟨ha, hstraps, exec_extestTrain dt sc s⟩
    have hj : ({ a.tapPlain ir sc with hold := true } : Jtag) = j := State.tapPlain_hold hrest
    refine ⟨fun hhold hinv => ?_, fun hfree => ⟨({ a with jtag := j } : State).resetPart 1 true true, ?_, ?_⟩⟩
    · exact hrun.trans (run_answers hadv hwf hinv (by rw [testLoad_again hon hrest hhold, hj]) rfl rfl rfl)
    · have hstep := testLoad_begins (ir := ir) hon hrest hfree
      rw [exec_of_run_noFlight hrun hwf hadv (by rw [hstep]; rfl), hstep, hj]
    · exact ⟨rfl, rfl, rfl, rfl, rfl, Bool.and_false _, rfl, rfl, rfl, rfl, rfl, rfl, rfl, rfl, rfl, fun _ _ => rfl⟩
  case plain =>
    intro dt ir i sc s a ha hinv hstraps hrow r n j
    obtain ⟨hadv, hwf, hrun⟩ : s.advance i.dt = a ∧ i.wf = true ∧ exec i s = run i s (plainEffect ir sc) := by
      have hidle : ∀ (k : Nat) (st : Straps), plainLoad k { straps := st } = plainEffect k { straps := st } :=
        fun k st => plainLoad_eq_plainEffect (by decide : TapState.runTestIdle ≠ .testLogicReset)
      rcases hrow with ⟨rfl, rfl, hrest⟩ | ⟨rfl, rfl, hsc⟩ | ⟨rfl, hlo, hhi, hsc⟩ | ⟨rfl, rfl, hsc⟩
      · exact ⟨ha, hstraps, by rw [exec_samplePreload, plainLoad_eq_plainEffect hrest]⟩
      · exact ⟨ha, hstraps, by rw [exec_idcode, hidle, ← hsc]⟩
      · exact ⟨ha, by simp [Instr.wf, hlo, hhi, hstraps], by rw [exec_bypass, hidle, ← hsc]⟩
      · exact ⟨ha, hstraps, by rw [exec_tapReset, tapResetStep_eq_plainEffect, ← hsc]⟩
    refine ⟨fun hoff => ?_, fun hon hfree => ?_, fun hon hhold hrst hcrystal => ?_⟩
    · exact hrun.trans (run_answers hadv hwf hinv (plainEffect_off hoff) rfl rfl rfl)
    · exact hrun.trans (run_answers hadv hwf hinv (plainEffect_free hon hfree) rfl rfl rfl)
    · exact hrun.trans (run_answers_tryBoot hadv hwf hinv (plainEffect_held hon hhold hrst hcrystal) rfl rfl)
  case tmode => exact (exec_tmodeChange dt lvl s).trans (run_answers ha rfl hinv rfl rfl rfl rfl)

end Sys2Proof.Machine
end
